-- ==== Sys2Proof/Word.lean ====
section
/-! DEFINITION. The word types of the model and its sparse map. Registers that the spec names bit by bit
are held as their fields; a value that is counted, compared or indexed is a Nat with its width stated at
the operation that stores it; bytes are bit vectors. -/
namespace Sys2Proof

/-- One byte. -/
abbrev Byte := BitVec 8

/-- A sparse map: index and value pairs, indices strictly rising, no entry equal to the default that
its reader passes. Equal maps are therefore equal data. -/
abbrev SMap (α : Type) := List (Nat × α)

end Sys2Proof
end

