-- ==== Sys2Proof/Machine/SeqCode.lean ====
section
/-! DEFINITION. The 64-bit instructions of region programs (R92, R93): decoding, which the load check uses, and encoding. -/
namespace Sys2Proof.Machine

/-- The fields of ISSUE (R93). -/
structure IssueWord where
  entry : Nat
  firstC : Nat
  route : Nat
  routeEn : Bool
  idxA : Nat
  rowMask : Nat
  colMask : Nat
  pred : Nat
deriving DecidableEq, Repr

/-- A region instruction (R92). -/
inductive SeqOp where
  | nop
  | wait (n : Nat)
  | idlew (f n : Nat)
  | halt
  | drainpt
  | br (t : Nat)
  | brc (k : Nat) (neg : Bool) (t : Nat)
  | loop (c t : Nat)
  | ldc (c v : Nat)
  | cmp (k c rel v : Nat)
  | lda (a v : Nat)
  | addi (a v : Nat)
  | adda (a b : Nat)
  | strm (ch a b : Nat)
  | syncsig (o : Nat)
  | syncwt (a o : Nat)
  | issue (w : IssueWord)
  | walk (a : Nat)
deriving DecidableEq, Repr

/-- Whether every field fits its bits and holds no reserved code (R92, R93). -/
def SeqOp.wf : SeqOp → Bool
  | .nop => true
  | .wait n => decide (1 ≤ n) && decide (n < 2 ^ 24)
  | .idlew f n => decide (f < 16) && decide (1 ≤ n) && decide (n < 2 ^ 24)
  | .halt => true
  | .drainpt => true
  | .br t => decide (t < 2048)
  | .brc k _ t => decide (k < 4) && decide (t < 2048)
  | .loop c t => decide (c < 8) && decide (t < 2048)
  | .ldc c v => decide (c < 8) && decide (v < 2 ^ 24)
  | .cmp k c rel v => decide (k < 4) && decide (c < 8) && decide (rel < 4) && decide (v < 2 ^ 24)
  | .lda a v => decide (a < 16) && decide (v < 2 ^ 40)
  | .addi a v => decide (a < 16) && decide (v < 2 ^ 40)
  | .adda a b => decide (a < 16) && decide (b < 16)
  | .strm ch a b => decide (ch < 4) && decide (a < 16) && decide (b < 16) && decide (b % 2 = 0)
  | .syncsig o => decide (o < 8192)
  | .syncwt a o => decide (a < 16) && decide (o < 8192)
  | .issue w =>
    decide (w.entry < 64) && decide (w.firstC < 6) && decide (w.route < 16) && decide (w.idxA < 16) && decide (w.idxA % 2 = 0)
      && decide (w.rowMask < 256) && decide (w.colMask < 256) && decide (w.pred < 5)
  | .walk a => decide (a < 16)

/-- The word of an instruction, by the encoding tables of R92 and R93. -/
def SeqOp.encode : SeqOp → Nat
  | .nop => 0
  | .wait n => 0x01 * 2 ^ 56 + n
  | .idlew f n => 0x02 * 2 ^ 56 + f * 2 ^ 52 + n
  | .halt => 0x03 * 2 ^ 56
  | .drainpt => 0x04 * 2 ^ 56
  | .br t => 0x05 * 2 ^ 56 + t
  | .brc k neg t => 0x06 * 2 ^ 56 + k * 2 ^ 53 + b2n neg * 2 ^ 52 + t
  | .loop c t => 0x07 * 2 ^ 56 + c * 2 ^ 53 + t
  | .ldc c v => 0x08 * 2 ^ 56 + c * 2 ^ 53 + v
  | .cmp k c rel v => 0x09 * 2 ^ 56 + k * 2 ^ 53 + c * 2 ^ 50 + rel * 2 ^ 48 + v
  | .lda a v => 0x10 * 2 ^ 56 + a * 2 ^ 52 + v
  | .addi a v => 0x11 * 2 ^ 56 + a * 2 ^ 52 + v
  | .adda a b => 0x12 * 2 ^ 56 + a * 2 ^ 52 + b * 2 ^ 48
  | .strm ch a b => 0x20 * 2 ^ 56 + ch * 2 ^ 54 + a * 2 ^ 50 + b * 2 ^ 46
  | .syncsig o => 0x21 * 2 ^ 56 + o
  | .syncwt a o => 0x22 * 2 ^ 56 + a * 2 ^ 52 + o
  | .issue w =>
    0x30 * 2 ^ 56 + w.entry * 2 ^ 50 + w.firstC * 2 ^ 47 + w.route * 2 ^ 43 + b2n w.routeEn * 2 ^ 42 + w.idxA * 2 ^ 38
      + w.rowMask * 2 ^ 30 + w.colMask * 2 ^ 22 + w.pred * 2 ^ 19
  | .walk a => 0x31 * 2 ^ 56 + a * 2 ^ 52

/-- Answers `op` when the bits `[hi:lo]` of every reserved field listed are 0 and no code of `op` is reserved. -/
def SeqOp.ifOk (w : Nat) (reserved : List (Nat × Nat)) (op : SeqOp) : Option SeqOp :=
  if reserved.all (fun r => decide (bits w r.1 r.2 = 0)) && op.wf then some op else none

/-- The instruction that a 64-bit word spells; none for a reserved opcode, a reserved bit set, a reserved code, or an odd B
of STRM (R92). -/
def SeqOp.decode (w : Nat) : Option SeqOp :=
  match bits w 63 56 with
  | 0x00 => SeqOp.ifOk w [(55, 0)] .nop
  | 0x01 => SeqOp.ifOk w [(55, 24)] (.wait (bits w 23 0))
  | 0x02 => SeqOp.ifOk w [(51, 24)] (.idlew (bits w 55 52) (bits w 23 0))
  | 0x03 => SeqOp.ifOk w [(55, 0)] .halt
  | 0x04 => SeqOp.ifOk w [(55, 0)] .drainpt
  | 0x05 => SeqOp.ifOk w [(55, 11)] (.br (bits w 10 0))
  | 0x06 => SeqOp.ifOk w [(55, 55), (51, 11)] (.brc (bits w 54 53) (bit w 52) (bits w 10 0))
  | 0x07 => SeqOp.ifOk w [(52, 11)] (.loop (bits w 55 53) (bits w 10 0))
  | 0x08 => SeqOp.ifOk w [(52, 24)] (.ldc (bits w 55 53) (bits w 23 0))
  | 0x09 => SeqOp.ifOk w [(55, 55), (47, 24)] (.cmp (bits w 54 53) (bits w 52 50) (bits w 49 48) (bits w 23 0))
  | 0x10 => SeqOp.ifOk w [(51, 40)] (.lda (bits w 55 52) (bits w 39 0))
  | 0x11 => SeqOp.ifOk w [(51, 40)] (.addi (bits w 55 52) (bits w 39 0))
  | 0x12 => SeqOp.ifOk w [(47, 0)] (.adda (bits w 55 52) (bits w 51 48))
  | 0x20 => SeqOp.ifOk w [(45, 0)] (.strm (bits w 55 54) (bits w 53 50) (bits w 49 46))
  | 0x21 => SeqOp.ifOk w [(55, 13)] (.syncsig (bits w 12 0))
  | 0x22 => SeqOp.ifOk w [(51, 13)] (.syncwt (bits w 55 52) (bits w 12 0))
  | 0x30 => SeqOp.ifOk w [(18, 0)]
      (.issue { entry := bits w 55 50, firstC := bits w 49 47, route := bits w 46 43, routeEn := bit w 42, idxA := bits w 41 38
                rowMask := bits w 37 30, colMask := bits w 29 22, pred := bits w 21 19 })
  | 0x31 => SeqOp.ifOk w [(51, 0)] (.walk (bits w 55 52))
  | _ => none

/-- The branch target of an instruction, where it has one. -/
def SeqOp.target : SeqOp → Option Nat
  | .br t => some t
  | .brc _ _ t => some t
  | .loop _ t => some t
  | _ => none

end Sys2Proof.Machine
end

