-- ==== Sys2Proof/Machine/Types.lean ====
section
/-! DEFINITION. Operand types of the commands, and what the block sends out. -/
namespace Sys2Proof.Machine

/-- A region of the image loaded in partition `part` (R106, R116), by its number in the region table. -/
structure RegionId where
  part : Fin 8
  idx : Nat
deriving DecidableEq, Repr

/-- A generation control message as a unit receives or sends it (R159, R161): the header's job and epoch, the sending
device, the flags byte, GEN, GEN2, TICK1, TICK2, and the data words that follow the control header (2,016 16-bit values
of MAXIMA and EXPOSE; cause, stop cause and detecting device of ABORT). -/
structure GenMsg where
  job : Nat
  epoch : Nat
  sender : Nat
  flags : Nat
  gen : Nat
  gen2 : Nat
  tick1 : Nat
  tick2 : Nat
  data : List Nat
deriving DecidableEq, Repr

/-- A Ciosh message: the header of R270 and its decoded data with the poison mark of each byte's granule (R269). -/
structure Msg where
  mtype : Nat
  flags : Nat
  src : Nat
  dst : Nat
  parts : Nat
  rop : Nat
  job : Nat
  epoch : Nat
  mid : Nat
  length : Nat
  addr : Nat
  signal : Nat
  expfmt : Nat
  qseq : Nat
  data : List (Byte × Bool)
deriving DecidableEq, Repr

/-- A flit (R256): the fields of its header word, its 240 B of payload, and its check. -/
structure Flit where
  ftype : Nat
  vc : Nat
  cls : Nat
  seq : Nat
  ack : Nat
  crVc : Nat
  crCls : Nat
  crCount : Nat
  mtag : Nat
  som : Bool
  eom : Bool
  cmp : Bool
  len : Nat
  payload : List Byte
  check : Nat
deriving DecidableEq, Repr

/-- A flit as a port receives it (R248): with the symbols that the FEC decoder corrected on each lane since the last one,
and the uncorrectable codewords it had bytes in. -/
structure Arrival where
  flit : Flit
  fixed : List Nat
  lost : Nat
deriving DecidableEq, Repr

/-- A power directive as it arrives (R198): its header, whether every reserved byte is 0, and whether the MAC checks
under the key that KEY_ID names. -/
structure PowerMsg where
  magic : Nat
  ver : Nat
  key : Nat
  spare : Bool
  seq : Nat
  target : Nat
  issue : Nat
  effect : Nat
  expire : Nat
  mac : Bool
deriving DecidableEq, Repr

/-- A requester as it reaches memory or a cache slice (R239): its ID, the partition it acts for, and whether it acts for
that partition's job with a GCLASS (R158). -/
structure Asker where
  id : Fin 65536
  part : Fin 16
  job : Bool
  gclass : Fin 4
deriving DecidableEq, Repr

/-- An error found at an issue (R375): none, a corrected one in a cell or sequencer, the parity of a cell's op-table entry,
the sequencer's own memory or registers, an uncorrectable error in 32 B word `word` of a cell's local store, or the parity of a
cell's vector register. -/
inductive IssueError where
  | none
  | corrected
  | table (x y : Nat)
  | sequencer
  | store (x y word : Nat)
  | vector (x y reg : Nat)
deriving DecidableEq, Repr

/-- What the ECC decoder finds in a granule (R214, R215): a symbol of lane `lane` corrected, `symbols` symbols in error
beyond correction, or a POISON byte that is neither value. -/
inductive Ecc where
  | clean
  | corrected (lane : Nat)
  | uncorrectable (symbols : Nat)
  | badTag
deriving DecidableEq, Repr

/-- What a cold start finds (R338): PROFILE_SEL; the flash regions that stay bad after three more reads (0, 1 header
copies; 2, 3 firmware slots; 4 + 2·profile + half; 12, 13 device-area copies) and the extra reads made; the channels that
fail training or the start-up test (R223); the proof kernels that fail twice, as plate, column, physical row and kernel
(R389); the milliseconds from the deassertion of RESET_N to step 6. -/
structure BootFinds where
  sel : Fin 4
  bad : List Nat
  retries : Nat
  channels : List Nat
  proofs : List (Nat × Nat × Nat × Nat)
  ms : Nat
deriving DecidableEq, Repr

/-- One sensor reading (R428): class 0 plate, 1 stack, 2 hub, 3 converter, 4 inlet, 5 outlet; index; °C. -/
structure Reading where
  cls : Fin 6
  index : Fin 128
  temp : Int
deriving DecidableEq, Repr

/-- What leaves the block. -/
inductive Out where
  /-- The data that a memory controller or a cache slice returns to a requester, with the poison marks. -/
  | data (id : Nat) (bytes : List (Byte × Bool))
  /-- An MSI-X message of a function (R309, R330). -/
  | msix (func vector addr data : Nat)
  /-- A read completion on a function; `ep` is the poisoned mark (R301). -/
  | completion (func : Nat) (data : List Byte) (ep : Bool)
  /-- A flit that a port sends (R256). -/
  | flit (port : Nat) (f : Flit)
  /-- A value shifted out of the TAP (R419). -/
  | scan (value : Nat)
  /-- The contents of an answer to a management request (R353): its command by the order of R353's list, and the values. -/
  | answer (command : Nat) (values : List Nat) (bytes : List Byte)
  /-- A REPORT under a directive key: its 40 payload bytes (R198). -/
  | report (key : Nat) (payload : List Byte)
deriving DecidableEq, Repr

/-- The sensors of R353. -/
inductive Sensor where
  | plateTemperature (plate : Fin 8)
  | stackTemperature (stack : Fin 16)
  | inputPower
  | limit
  | partitionPower (part : Fin 8)
  | ready
  | recovery
  | profileFailed
deriving DecidableEq, Repr

end Sys2Proof.Machine
end

