-- ==== Sys2Proof/Syntax.lean ====
section
/-! DEFINITION. The commands of the block: one constructor for each row of the opcode table. A command that the spec
describes as an event carries what the event finds (a reading, a check's outcome, the cycles that have passed). -/
namespace Sys2Proof

open Sys2Proof.Machine

/-- A command. -/
inductive Instr where
  /-- NOP (R92) -/
  | nop (r : RegionId)
  /-- WAIT (R92) -/
  | wait (r : RegionId) (n : Fin (2 ^ 24))
  /-- WAIT_END (R92) -/
  | waitEnd (r : RegionId)
  /-- IDLEW (R92) -/
  | idlew (r : RegionId) (f : Fin 16) (n : Fin (2 ^ 24))
  /-- IDLE_WINDOW_END (R20) -/
  | idleWindowEnd (r : RegionId)
  /-- HALT (R92) -/
  | halt (r : RegionId)
  /-- DRAINPT (R98) -/
  | drainpt (r : RegionId)
  /-- BR (R92) -/
  | br (r : RegionId) (t : Fin 2048)
  /-- BRC (R92) -/
  | brc (r : RegionId) (k : Fin 4) (neg : Bool) (t : Fin 2048)
  /-- LOOP (R92) -/
  | loop (r : RegionId) (c : Fin 8) (t : Fin 2048)
  /-- LDC (R92) -/
  | ldc (r : RegionId) (c : Fin 8) (v : Fin (2 ^ 24))
  /-- CMP (R92) -/
  | cmp (r : RegionId) (k : Fin 4) (c : Fin 8) (rel : Fin 4) (v : Fin (2 ^ 24))
  /-- LDA (R92) -/
  | lda (r : RegionId) (a : Fin 16) (v : Fin (2 ^ 40))
  /-- ADDI (R92) -/
  | addi (r : RegionId) (a : Fin 16) (v : Fin (2 ^ 40))
  /-- ADDA (R92) -/
  | adda (r : RegionId) (a : Fin 16) (c : Fin 16)
  /-- STRM (R99) -/
  | strm (r : RegionId) (ch : Fin 4) (a : Fin 16) (rb : Fin 16)
  /-- SYNCSIG (R112) -/
  | syncsig (r : RegionId) (o : Fin 8192)
  /-- SYNCWT (R112) -/
  | syncwt (r : RegionId) (a : Fin 16) (o : Fin 8192)
  /-- SYNCWT_SATISFIED (R112) -/
  | syncwtSatisfied (r : RegionId) (cycles : Nat)
  /-- ISSUE (R93) -/
  | issue (r : RegionId) (w : IssueWord) (err : IssueError)
  /-- WALK (R124) -/
  | walk (r : RegionId) (a : Fin 16)
  /-- WALK_RETIRE (R128) -/
  | walkRetire (r : RegionId)
  /-- OP_NOP (R67) -/
  | opNop (x : Fin 640) (y : Fin 512)
  /-- MMA (R70) -/
  | mma (x : Fin 640) (y : Fin 512) (fog : Option Nat)
  /-- SPILL_COMPLETE (R76) -/
  | spillComplete (x : Fin 640) (y : Fin 512)
  /-- OVERFLOW_REPLAY_RESTART (R77) -/
  | overflowReplayRestart (r : RegionId)
  /-- DRAIN (R81) -/
  | drain (x : Fin 640) (y : Fin 512) (fog : Option Nat) (crowded : Bool)
  /-- BRACKET_RECORD_WRITE (R386) -/
  | bracketRecordWrite (x : Fin 640) (y : Fin 512) (free : Bool)
  /-- CHAIN (R80) -/
  | chain (x : Fin 640) (y : Fin 512) (fog : Option Nat)
  /-- SAVE (R86) -/
  | save (x : Fin 640) (y : Fin 512)
  /-- RESTORE (R86) -/
  | restore (x : Fin 640) (y : Fin 512)
  /-- ACLR (R67) -/
  | aclr (x : Fin 640) (y : Fin 512)
  /-- VLD (R83) -/
  | vld (x : Fin 640) (y : Fin 512) (crowded : Bool)
  /-- VST (R83) -/
  | vst (x : Fin 640) (y : Fin 512) (crowded : Bool)
  /-- VADD (R83) -/
  | vadd (x : Fin 640) (y : Fin 512)
  /-- VSUB (R83) -/
  | vsub (x : Fin 640) (y : Fin 512)
  /-- VMUL (R83) -/
  | vmul (x : Fin 640) (y : Fin 512)
  /-- VFMA (R83) -/
  | vfma (x : Fin 640) (y : Fin 512)
  /-- VMAX (R437) -/
  | vmax (x : Fin 640) (y : Fin 512)
  /-- VMIN (R437) -/
  | vmin (x : Fin 640) (y : Fin 512)
  /-- VCMPGT (R437) -/
  | vcmpgt (x : Fin 640) (y : Fin 512)
  /-- VCVT (R437) -/
  | vcvt (x : Fin 640) (y : Fin 512)
  /-- VEXP2 (R60) -/
  | vexp2 (x : Fin 640) (y : Fin 512)
  /-- VLOG2 (R60) -/
  | vlog2 (x : Fin 640) (y : Fin 512)
  /-- VRCP (R60) -/
  | vrcp (x : Fin 640) (y : Fin 512)
  /-- VRSQRT (R60) -/
  | vrsqrt (x : Fin 640) (y : Fin 512)
  /-- VTANH (R60) -/
  | vtanh (x : Fin 640) (y : Fin 512)
  /-- VSIGM (R60) -/
  | vsigm (x : Fin 640) (y : Fin 512)
  /-- VERF (R60) -/
  | verf (x : Fin 640) (y : Fin 512)
  /-- VSUMW (R75) -/
  | vsumw (x : Fin 640) (y : Fin 512)
  /-- VMAXR (R437) -/
  | vmaxr (x : Fin 640) (y : Fin 512)
  /-- VACC (R67) -/
  | vacc (x : Fin 640) (y : Fin 512)
  /-- STREAM_BEAT_ARRIVAL (R96) -/
  | streamBeatArrival (cx : Fin 80) (cy : Fin 64) (ch : Fin 4) (net : Fin 3)
  /-- FREEZE_RESUME (R104) -/
  | freezeResume (r : RegionId) (cycles : Nat)
  /-- DESCRIPTOR_RETIRE (R101) -/
  | descriptorRetire (cx : Fin 80) (cy : Fin 64) (ch : Fin 4)
  /-- STAGE_START (R110) -/
  | stageStart (p : Fin 8) (stage : Fin 256)
  /-- CLUSTER_COMPLETE (R113) -/
  | clusterComplete (cx : Fin 80) (cy : Fin 64)
  /-- DEVICE_COMPLETION (R113) -/
  | deviceCompletion (p : Fin 8)
  /-- DRAIN_REQUEST (R98) -/
  | drainRequest (r : RegionId)
  /-- REGION_RESUME (R98) -/
  | regionResume (r : RegionId) (cycles : Nat)
  /-- STEP_GATE (R15) -/
  | stepGate (p : Fin 8)
  /-- MAXIMA (R159) -/
  | maxima (p : Fin 8) (m : GenMsg)
  /-- EXPOSE (R160) -/
  | expose (p : Fin 8) (m : GenMsg)
  /-- READY (R159) -/
  | ready (p : Fin 8) (m : GenMsg)
  /-- ORDER (R163) -/
  | order (p : Fin 8) (m : GenMsg)
  /-- FIX_TICK (R164) -/
  | fixTick (p : Fin 8)
  /-- FIXED (R159) -/
  | fixed (p : Fin 8) (m : GenMsg)
  /-- CONFIRM (R166) -/
  | confirm (p : Fin 8) (m : GenMsg)
  /-- ABORT (R168) -/
  | abort (p : Fin 8) (m : GenMsg)
  /-- REWOUND (R169) -/
  | rewound (p : Fin 8) (m : GenMsg)
  /-- RESTART (R170) -/
  | restart (p : Fin 8) (m : GenMsg)
  /-- RESTART_GATE (R170) -/
  | restartGate (p : Fin 8)
  /-- LOADED (R167) -/
  | loaded (p : Fin 8) (m : GenMsg)
  /-- LOADED_REPEAT (R167) -/
  | loadedRepeat (p : Fin 8)
  /-- ORDER_TIMEOUT (R165) -/
  | orderTimeout (p : Fin 8)
  /-- EXPOSE_TIMEOUT (R165) -/
  | exposeTimeout (p : Fin 8)
  /-- REJOIN_TIMEOUT (R171) -/
  | rejoinTimeout (p : Fin 8)
  /-- PTP_SYNC (R180) -/
  | ptpSync (us : Fin (2 ^ 64)) (frac : Fin 65536)
  /-- CT_MS_EDGE (R180) -/
  | ctMsEdge (dev : Int) (dis : Int)
  /-- HOLDOVER (R181) -/
  | holdover (src : Fin 3)
  /-- HOLDOVER_LIMIT (R181) -/
  | holdoverLimit
  /-- GRID_SYNC_EDGE (R186) -/
  | gridSyncEdge
  /-- GRID_LOST (R187) -/
  | gridLost
  /-- GENERATED_MAINS_CYCLE (R187) -/
  | generatedMainsCycle
  /-- POWER_SAMPLE (R188) -/
  | powerSample (v : Fin 65536) (i : Fin 65536)
  /-- ESTIMATE_SCALE (R188) -/
  | estimateScale (est : List (Fin 65536)) (shares : List (Fin 65536))
  /-- BUDGET_DIVISION (R200) -/
  | budgetDivision (pdev : Fin 65536) (needs : List (Fin 65536))
  /-- FLAT_FIELD_OFFER (R201) -/
  | flatFieldOffer (proj : Fin 65536)
  /-- LEVEL_CHANGE (R194) -/
  | levelChange (level : Fin 8)
  /-- SWALLOW_START (R195) -/
  | swallowStart
  /-- PLL_LOCK (R362) -/
  | pllLock (n : Fin 28)
  /-- PLL_SWITCH (R196) -/
  | pllSwitch (p : Fin 8) (need : Fin 65536)
  /-- PLL_SWITCH_RETRY (R196) -/
  | pllSwitchRetry (p : Fin 8) (need : Fin 65536)
  /-- VOLTAGE_STEP (R194) -/
  | voltageStep (p : Fin 8) (need : Fin 65536)
  /-- CURTAIL_MISS (R194) -/
  | curtailMiss
  /-- SET_CAP (R198) -/
  | setCap (m : PowerMsg) (w : Fin 65536)
  /-- SET_SHARES (R198) -/
  | setShares (m : PowerMsg) (weights : List (Fin 256))
  /-- SET_SLEW (R198) -/
  | setSlew (m : PowerMsg) (w : Fin 65536)
  /-- SET_FLOOR (R198) -/
  | setFloor (m : PowerMsg) (w : Fin 65536)
  /-- QUERY (R198) -/
  | query (m : PowerMsg)
  /-- REPORT (R198) -/
  | report (m : PowerMsg)
  /-- DIRECTIVE_EFFECT (R199) -/
  | directiveEffect
  /-- DIRECTIVE_EXPIRE (R199) -/
  | directiveExpire
  /-- TIM_HOST_CAP (R199) -/
  | timHostCap (w : Fin (2 ^ 32))
  /-- TIM_FLOOR (R192) -/
  | timFloor (w : Fin (2 ^ 32))
  /-- MEM_READ (R215) -/
  | memRead (q : Asker) (a : Fin (2 ^ 48)) (ecc : Ecc) (act : Bool)
  /-- MEM_WRITE (R215) -/
  | memWrite (q : Asker) (a : Fin (2 ^ 48)) (bs : List Byte) (poison : Bool) (cmpr : Bool) (act : Bool)
  /-- ECC_WRITEBACK (R217) -/
  | eccWriteback (a : Fin (2 ^ 48))
  /-- PATROL_SCRUB (R217) -/
  | patrolScrub (ecc : Ecc)
  /-- REFRESH (R218) -/
  | refresh
  /-- TEMPERATURE_READ (R219) -/
  | temperatureRead (stack : Fin 16) (t : Int)
  /-- SKEW_MILLISECOND (R220) -/
  | skewMillisecond
  /-- SKEWED_SECOND (R220) -/
  | skewedSecond
  /-- CHANNEL_RETRAIN (R221) -/
  | channelRetrain (ch : Fin 512) (failed : Bool) (lanes : List (Fin 1024))
  /-- SELF_REFRESH_EXIT (R224) -/
  | selfRefreshExit (stack : Fin 16)
  /-- TG_START (R225) -/
  | tgStart (ch : Fin 512) (op : Fin 4) (pattern : Fin 8)
  /-- TG_DONE (R225) -/
  | tgDone (ch : Fin 512) (errs : Nat) (lane0 : Fin (2 ^ 32)) (lane1 : Fin (2 ^ 32)) (first : Fin (2 ^ 32))
  /-- MEM_CH_MAPOUT_PEND (R226) -/
  | memChMapoutPend (stack : Fin 16) (mask : Fin (2 ^ 32))
  /-- MEM_PRANGE (R212) -/
  | memPrange (k : Fin 32) (base : Fin 65536) (size : Fin 65536)
  /-- WRITE (R233) -/
  | write (q : Asker) (cmpr : Bool) (a : Fin (2 ^ 48)) (bs : List (Byte × Bool))
  /-- WSET (R234) -/
  | wset (q : Asker) (fmt : Fin 32) (ex : Int) (a : Fin (2 ^ 48)) (bs : List (Byte × Bool))
  /-- WADD (R235) -/
  | wadd (q : Asker) (fmt : Fin 32) (ex : Int) (a : Fin (2 ^ 48)) (bs : List (Byte × Bool))
  /-- IADD32 (R233) -/
  | iadd32 (q : Asker) (a : Fin (2 ^ 48)) (bs : List (Byte × Bool))
  /-- IADD64 (R233) -/
  | iadd64 (q : Asker) (a : Fin (2 ^ 48)) (bs : List (Byte × Bool))
  /-- SMAX64 (R233) -/
  | smax64 (q : Asker) (a : Fin (2 ^ 48)) (bs : List (Byte × Bool))
  /-- SMIN64 (R233) -/
  | smin64 (q : Asker) (a : Fin (2 ^ 48)) (bs : List (Byte × Bool))
  /-- UMAX64 (R233) -/
  | umax64 (q : Asker) (a : Fin (2 ^ 48)) (bs : List (Byte × Bool))
  /-- UMIN64 (R233) -/
  | umin64 (q : Asker) (a : Fin (2 ^ 48)) (bs : List (Byte × Bool))
  /-- FMAX (R233) -/
  | fmax (q : Asker) (fmt : Fin 32) (a : Fin (2 ^ 48)) (bs : List (Byte × Bool))
  /-- FMIN (R233) -/
  | fmin (q : Asker) (fmt : Fin 32) (a : Fin (2 ^ 48)) (bs : List (Byte × Bool))
  /-- FADD (R237) -/
  | fadd (q : Asker) (fmt : Fin 32) (a : Fin (2 ^ 48)) (bs : List (Byte × Bool))
  /-- GV4ADD (R237) -/
  | gv4add (q : Asker) (fmt : Fin 32) (a : Fin (2 ^ 48)) (bs : List (Byte × Bool))
  /-- GV4ADD_DONE (R237) -/
  | gv4addDone
  /-- ALLOC (R243) -/
  | alloc (hub : Fin 2) (reqs : List (Fin 65536 × Fin 16))
  /-- FORWARDED_ALLOC (R243) -/
  | forwardedAlloc (hub : Fin 2)
  /-- POOL_EMPTY_ANSWER (R243) -/
  | poolEmptyAnswer (hub : Fin 2)
  /-- CREDIT_REENTRY (R243) -/
  | creditReentry (hub : Fin 2)
  /-- FREE (R241) -/
  | free (id : Fin 65536) (part : Fin 16) (frame : Fin 65536)
  /-- GIVE (R241) -/
  | give (id : Fin 65536) (part : Fin 16) (frame : Fin 65536) (newId : Fin 65536) (newPart : Fin 16)
  /-- FRAME_ZEROING_DONE (R240) -/
  | frameZeroingDone (frame : Fin 65536)
  /-- FRAMES_RECLAIMED (R244) -/
  | framesReclaimed (p : Fin 8)
  /-- SHC_FQ_MIN (R242) -/
  | shcFqMin (i : Fin 9) (n : Fin (2 ^ 32))
  /-- SHC_FQ_MAX (R242) -/
  | shcFqMax (i : Fin 9) (n : Fin (2 ^ 32))
  /-- CL_ENABLE (R250) -/
  | clEnable (n : Fin 36) (on : Bool)
  /-- FORCE_X2 (R253) -/
  | forceX2 (n : Fin 36) (on : Bool)
  /-- LANE_SIGNAL_DETECT (R250) -/
  | laneSignalDetect (n : Fin 36) (lanes : Fin 16)
  /-- EQUALISE_DONE (R250) -/
  | equaliseDone (n : Fin 36)
  /-- ALIGN_DONE (R250) -/
  | alignDone (n : Fin 36) (lanes : Fin 16)
  /-- TRAINING_TIMEOUT (R251) -/
  | trainingTimeout (n : Fin 36)
  /-- INIT (R252) -/
  | init (n : Fin 36) (a : Arrival)
  /-- IDLE (R257) -/
  | idle (n : Fin 36) (a : Arrival)
  /-- DATA (R259) -/
  | data (n : Fin 36) (a : Arrival)
  /-- NAK (R259) -/
  | nak (n : Fin 36) (a : Arrival)
  /-- NAK_RETRY_TIMEOUT (R259) -/
  | nakRetryTimeout (n : Fin 36)
  /-- DROPPED (R260) -/
  | dropped (n : Fin 36) (a : Arrival)
  /-- RESUME (R254) -/
  | resume (n : Fin 36) (a : Arrival)
  /-- RETRAIN_REQ (R257) -/
  | retrainReq (n : Fin 36) (a : Arrival)
  /-- LANE_DEGRADE (R253) -/
  | laneDegrade (n : Fin 36) (lane : Fin 4)
  /-- UPGRADE_ATTEMPT (R253) -/
  | upgradeAttempt (n : Fin 36)
  /-- DIRECTION_LOST (R255) -/
  | directionLost (d : Fin 6)
  /-- PUT (R272) -/
  | put (n : Fin 37) (m : Msg)
  /-- GET_REQ (R271) -/
  | getReq (n : Fin 37) (m : Msg)
  /-- GET_RSP (R271) -/
  | getRsp (n : Fin 37) (m : Msg)
  /-- REFUSED (R272) -/
  | refused (n : Fin 37) (m : Msg)
  /-- MGMT_DIRECTION_LOST (R261) -/
  | mgmtDirectionLost (n : Fin 37) (m : Msg)
  /-- MGMT_DIRECTION_RESTORED (R261) -/
  | mgmtDirectionRestored (n : Fin 37) (m : Msg)
  /-- COLL (R281) -/
  | coll (q : Fin 256)
  /-- REDUCE_SCATTER (R285) -/
  | reduceScatter (x : Fin 6) (p : Fin 8)
  /-- ALL_GATHER (R286) -/
  | allGather (x : Fin 6) (p : Fin 8)
  /-- ALL_REDUCE (R286) -/
  | allReduce (x : Fin 6) (p : Fin 8)
  /-- BROADCAST (R286) -/
  | broadcast (x : Fin 6) (p : Fin 8)
  /-- ALL_TO_ALL (R286) -/
  | allToAll (x : Fin 6) (p : Fin 8)
  /-- SEND (R286) -/
  | send (x : Fin 6) (p : Fin 8)
  /-- RECV (R286) -/
  | recv (x : Fin 6) (p : Fin 8)
  /-- COLLECTIVE_PART_START (R281) -/
  | collectivePartStart (x : Fin 6) (p : Fin 8)
  /-- COLLECTIVE_DATA (R287) -/
  | collectiveData (x : Fin 6) (m : Msg)
  /-- COLLECTIVE_CREDIT (R288) -/
  | collectiveCredit (x : Fin 6) (m : Msg)
  /-- DOORBELL (R304) -/
  | doorbell (f : Fin 9) (q : Fin 256) (v : Fin (2 ^ 64))
  /-- COMMAND_START (R308) -/
  | commandStart (q : Fin 256)
  /-- COMMAND_COMPLETE (R308) -/
  | commandComplete (q : Fin 256)
  /-- CMD_NOP (R306) -/
  | cmdNop (q : Fin 256)
  /-- LOAD (R317) -/
  | load (q : Fin 256)
  /-- UNLOAD (R317) -/
  | unload (q : Fin 256)
  /-- RUN (R306) -/
  | run (q : Fin 256)
  /-- DMA (R310) -/
  | dma (q : Fin 256)
  /-- COPY (R310) -/
  | copy (q : Fin 256)
  /-- FILL (R310) -/
  | fill (q : Fin 256)
  /-- PRINT (R173) -/
  | print (q : Fin 256)
  /-- SYNC (R306) -/
  | sync (q : Fin 256)
  /-- MGMT (R351) -/
  | mgmt (q : Fin 256)
  /-- INFO (R351) -/
  | info (q : Fin 256)
  /-- OVERRIDE (R350) -/
  | override (q : Fin 256)
  /-- FLASH_WRITE (R351) -/
  | flashWrite (q : Fin 256)
  /-- RETAINED_RESET (R351) -/
  | retainedReset (q : Fin 256)
  /-- MEASURE (R351) -/
  | measure (q : Fin 256)
  /-- OWNER_KEY (R351) -/
  | ownerKey (q : Fin 256)
  /-- DEADLINE_EXPIRY (R316) -/
  | deadlineExpiry (q : Fin 256)
  /-- HANG_ESCALATION (R316) -/
  | hangEscalation (p : Fin 8)
  /-- TIME_SLICE_END (R314) -/
  | timeSliceEnd (en : Fin 48)
  /-- QUEUE_ENABLE (R304) -/
  | queueEnable (f : Fin 9) (q : Fin 256)
  /-- QUEUE_DISABLE (R311) -/
  | queueDisable (f : Fin 9) (q : Fin 256)
  /-- QUEUE_BIND (R312) -/
  | queueBind (f : Fin 9) (q : Fin 256) (engine : Fin 64) (part : Fin 16)
  /-- FE_PART (R303) -/
  | fePart (f : Fin 9) (i : Fin 8) (valid : Bool) (first : Fin 16) (size : Fin 4)
  /-- ADD (R323) -/
  | add (f : Fin 9) (n : Fin 8192) (amount : Fin (2 ^ 28))
  /-- RELEASE (R324) -/
  | release (f : Fin 9) (n : Fin 8192)
  /-- ACQUIRE (R324) -/
  | acquire (f : Fin 9) (n : Fin 8192)
  /-- SET (R323) -/
  | set (f : Fin 9) (n : Fin 8192) (v : Fin (2 ^ 64))
  /-- SYN_CTL_MODE (R322) -/
  | synCtlMode (f : Fin 9) (n : Fin 8192) (mode : Fin 4)
  /-- GUARD_SLOT_WRITE (R325) -/
  | guardSlotWrite (f : Fin 9) (k : Fin 64) (base : Fin (2 ^ 48)) (part : Fin 16) (len : Fin (2 ^ 32)) (valid : Bool) (obj : Fin 8192)
  /-- EVT_CONS (R330) -/
  | evtCons (f : Fin 9) (k : Fin 36) (v : Fin (2 ^ 32))
  /-- EVT_CTL (R339) -/
  | evtCtl (f : Fin 9) (k : Fin 36) (enable : Bool) (mirror : Bool) (size : Fin 16) (minsev : Fin 4) (vector : Fin 128)
  /-- MSIX_MODERATION_EXPIRY (R330) -/
  | msixModerationExpiry (k : Fin 36)
  /-- FLR_VF (R302) -/
  | flrVf (i : Fin 8)
  /-- FLR_PF0 (R302) -/
  | flrPf0
  /-- APERTURE_READ (R301) -/
  | apertureRead (f : Fin 9) (off : Fin (2 ^ 36)) (n : Fin 4097)
  /-- APERTURE_WRITE (R301) -/
  | apertureWrite (f : Fin 9) (off : Fin (2 ^ 36)) (bs : List Byte) (ep : Bool)
  /-- HOST_READ_ERROR (R302) -/
  | hostReadError (q : Fin 256) (kind : Fin 4) (a : Fin (2 ^ 64)) (n : Nat)
  /-- PCIE_LINK_DOWN (R299) -/
  | pcieLinkDown (portB : Bool)
  /-- PERST_N (R339) -/
  | perstN (portB : Bool)
  /-- COLD_RESET (R338) -/
  | coldReset (finds : BootFinds)
  /-- WARM_RESET_N (R367) -/
  | warmResetN
  /-- RETAINED_RESET_SEQUENCE (R369) -/
  | retainedResetSequence
  /-- PROFILE_SEL_CHANGE (R339) -/
  | profileSelChange (sel : Fin 4)
  /-- WATCHDOG_EXPIRY (R352) -/
  | watchdogExpiry
  /-- SET_ENDPOINT_ID (R353) -/
  | setEndpointId (eid : Fin 256)
  /-- GET_ENDPOINT_ID (R353) -/
  | getEndpointId
  /-- GET_VERSION_SUPPORT (R353) -/
  | getVersionSupport
  /-- GET_MESSAGE_TYPE_SUPPORT (R353) -/
  | getMessageTypeSupport
  /-- PLDM_DISCOVERY (R353) -/
  | pldmDiscovery
  /-- PLDM_SENSOR_READ (R353) -/
  | pldmSensorRead (sensor : Sensor)
  /-- PLDM_FIRMWARE_UPDATE (R353) -/
  | pldmFirmwareUpdate (target : Fin 5) (image : List Byte)
  /-- GET_VERSION (R353) -/
  | getVersion
  /-- GET_CAPABILITIES (R353) -/
  | getCapabilities
  /-- NEGOTIATE_ALGORITHMS (R353) -/
  | negotiateAlgorithms (ecdsaP384 : Bool) (sha384 : Bool)
  /-- GET_DIGESTS (R353) -/
  | getDigests
  /-- GET_CERTIFICATE (R354) -/
  | getCertificate (off : Fin 65536) (len : Fin 65536)
  /-- CHALLENGE (R354) -/
  | challenge (nonce : List Byte)
  /-- GET_MEASUREMENTS (R354) -/
  | getMeasurements (index : Fin 256) (nonce : List Byte)
  /-- GATE (R360) -/
  | gate (d : Fin 128)
  /-- UNGATE (R360) -/
  | ungate (d : Fin 128)
  /-- DOMAIN_RESET (R370) -/
  | domainReset (d : Fin 128)
  /-- SWITCH (R362) -/
  | switch (p : Fin 8) (fstep : Fin 32)
  /-- ACTIVE (R372) -/
  | active
  /-- HOLD (R371) -/
  | hold
  /-- SAFELIGHT (R371) -/
  | safelight (slLs : Bool)
  /-- OFF (R371) -/
  | off
  /-- PSTATE_ENTERED (R371) -/
  | pstateEntered
  /-- CLOCK_LOST (R364) -/
  | clockLost (n : Fin 33) (missing : Bool)
  /-- CLOCK_RECOVERY (R364) -/
  | clockRecovery (n : Fin 33)
  /-- GUARD_REJOINED (R366) -/
  | guardRejoined (d : Fin 128)
  /-- BRACKET_COMPARE (R387) -/
  | bracketCompare (k : Nat) (ox : Fin 640) (oy : Fin 512) (equal : Bool)
  /-- BRACKET_VOTE (R387) -/
  | bracketVote (k : Nat) (vote : Fin 4)
  /-- PROOF_KERNEL_DONE (R390) -/
  | proofKernelDone (plate : Fin 8) (col : Fin 160) (phys : Fin 258) (kernel : Fin 256) (ok : Bool)
  /-- PROOF_OVERDUE_HOUR (R389) -/
  | proofOverdueHour
  /-- UNCORRECTED_CONTROL (R376) -/
  | uncorrectedControl (kind : Fin 256)
  /-- OBS_SNAP_REQ (R405) -/
  | obsSnapReq (plates : Fin 256) (cells : Bool) (hub : Bool)
  /-- SNAPSHOT_TICK (R405) -/
  | snapshotTick
  /-- OBS_CS_REQ (R406) -/
  | obsCsReq (scope : Fin 512) (stop : Bool)
  /-- CONTACT_SHEET (R406) -/
  | contactSheet (cycles : Nat)
  /-- OBS_BP_ARM (R408) -/
  | obsBpArm (k : Fin 16) (arm : Bool) (scope : Bool) (part : Fin 16) (plate : Fin 8) (cluster : Fin 1024) (pc : Fin 2048)
  /-- OBS_BP_RESUME (R408) -/
  | obsBpResume (mask : Fin 256) (cycles : Nat)
  /-- THERMAL_SAMPLE (R428) -/
  | thermalSample (readings : List Reading)
  /-- TLIMIT_UPDATE (R430) -/
  | tlimitUpdate
  /-- MODULE_POWER_UP (R423) -/
  | modulePowerUp
  /-- POWER_FAIL (R421) -/
  | powerFail
  /-- INPUT_LOW (R421) -/
  | inputLow
  /-- INPUT_HIGH (R421) -/
  | inputHigh
  /-- BYPASS (R419) -/
  | bypass
  /-- IDCODE (R419) -/
  | idcode
  /-- SAMPLE (R419) -/
  | sample
  /-- EXTEST (R419) -/
  | extest
  /-- REGISTER_WRITE (R7) -/
  | registerWrite (f : Fin 9) (obs : Bool) (off : Fin (2 ^ 26)) (v : Fin (2 ^ 32))
  /-- RESET_N_ASSERTION (R419) -/
  | resetNAssertion
  /-- PARTITION_RESET_DONE (R367) -/
  | partitionResetDone (p : Fin 8)
  /-- FOG_CHARGE_EXPIRY (R391) -/
  | fogChargeExpiry (plate : Fin 8) (phys : Fin 258)
  /-- PCIE_LINK_UP (R299) -/
  | pcieLinkUp (portB : Bool)
  /-- CABLING_CHANGE (R250) -/
  | cablingChange (n : Fin 36)
  /-- REGISTER_PAIR_READ (R5) -/
  | registerPairRead (f : Fin 9) (obs : Bool) (off : Fin (2 ^ 26))
deriving DecidableEq, Repr

end Sys2Proof
end

