-- ==== Sys2Proof/Machine/StateBoot.lean ====
section
/-! DEFINITION. State of start-up, flash, profiles, fuses and the management protocols (R338 to R357). -/
namespace Sys2Proof.Machine

/-- The registers loaded from one profile's records (R347); the defaults are those of absent records, with the topology
of the safe configuration (R348). A coordinate is 1 + x + 16·y + 128·z. -/
structure Profile where
  myId : Nat := 0
  sx : Nat := 1
  sy : Nat := 1
  sz : Nat := 1
  coords : SMap Nat := [(0, 1)]
  epoch : Nat := 0
  hashKey : Nat := 0
  memMode : Nat := 0
  actMax : Nat := 40
  raaimt : Nat := 32
  skewLimit : Nat := 0x40
  scrubPeriod : Nat := 24
  laneLimit : Nat := 16
  levels : List Nat := [2000, 2700, 3400, 4100, 4800, 5500, 6200, 6900]
  slew : Nat := 500
  floor : Nat := 5200
  hold : Nat := 30
  mains60 : Bool := false
  volts : List Nat := (List.range 18).map (fun i => 550 + 10 * i)
  shares : List Nat := [1, 1, 1, 1, 1, 1, 1, 1]
  parts : List Nat := [0, 0, 0, 0, 0, 0, 0, 0]
  ip : Nat := 0
  subnet : Nat := 0
  ptpDomain : Nat := 0
  ptpUdp : Bool := false
  gateway : Nat := 0
  port : Nat := 47210
  vlan : Nat := 0
  keys : SMap (Option (List Byte)) := []
  group : Option Nat := none
  portEnable : Nat := 2 ^ 36 - 1
  wCol : Nat := 1
  wPipe : Nat := 1
  upHold : Nat := 60
  peerHold : Nat := 10
  clLaneLimit : Nat := 10000000
  smbus : Nat := 0x62
deriving DecidableEq, Repr

/-- A header copy of the flash (R341), as it reads: `ok` when MAGIC, VERSION, CRC and directory are right. -/
structure Header where
  ok : Bool := true
  active : Nat := 0
  seq : Nat := 0
deriving DecidableEq, Repr

/-- A firmware slot (R342): whether its image verifies but for the fuse SVN and revocation, its block's fields, and the
SHA-384 of image and block; none for the image as shipped. -/
structure Firmware where
  ok : Bool := true
  key : Nat := 0
  svn : Nat := 0
  commit : Bool := false
  ver : Nat := 0
  digest : Option (List Byte) := none
deriving DecidableEq, Repr

/-- The flash (R340) and the hub fuses (R343): profile halves by 2·profile + half, the map-out record, the certificate
chain, owner-slot hashes by slot, and the OWNER_KEY record (R349). -/
structure Flash where
  headers : SMap Header := []
  slots : SMap Firmware := []
  halves : SMap (List Byte) := []
  mapout : List Nat := []
  cert : List Byte := []
  fuseSvn : Nat := 0
  revoked : Nat := 0
  programmed : Nat := 3
  owners : SMap (List Byte) := []
  ownerRec : Option Nat := none
deriving DecidableEq, Repr

/-- A flash update that runs (R351): target 0 firmware, 1-4 profile, and the queue and sequence number of its command. -/
structure Update where
  target : Nat
  queue : Nat
  seq : Nat
deriving DecidableEq, Repr

/-- The SPDM responder's place (R353): 0 nothing, 1 version given, 2 capabilities given, 3 algorithms chosen. -/
structure Endpoint where
  eid : Nat := 0
  spdm : Nat := 0
deriving DecidableEq, Repr

/-- Start-up and management (R338 to R357): GLB and CFG fields, the profiles verified at the last cold start with the
halves they were read from, the active one and the override, the update that runs, the retained reset that waits for step 6, and the endpoint. `pstatus`
holds each profile's code + 4·half, `fails` its first failing TYPE. -/
structure BootUnit where
  flash : Flash := {}
  ready : Bool := false
  stage : Nat := 0
  recovery : Bool := false
  profileFailed : Bool := false
  opened : Bool := false
  active : Nat := 0
  pinSel : Nat := 0
  fwSlot : Nat := 0
  fwVer : Nat := 0
  fwSvn : Nat := 0
  fwKey : Nat := 0
  bootMs : Nat := 0
  profile : Profile := {}
  verified : SMap (Option Profile) := []
  halves : SMap (List Byte) := []
  pstatus : SMap Nat := []
  fails : SMap Nat := []
  override : Option Nat := none
  update : Option Update := none
  retainedAsked : Option Nat := none
  endpoint : Endpoint := {}
  counters : SMap Nat := []
deriving DecidableEq, Repr

end Sys2Proof.Machine
end

