-- ==== Sys2Proof/Machine/StateClock.lean ====
section
/-! DEFINITION. State of the clock, reset and power-state controller (R358 to R374). -/
namespace Sys2Proof.Machine

/-- A PLL's register (R373): n = 0-27 of R358. -/
structure Pll where
  lock : Bool := false
  ready : Bool := false
  lost : Bool := false
  active : Bool := false
  mhz : Nat := 0
deriving DecidableEq, Repr

/-- A reference's register (R373). -/
structure Ref where
  present : Bool := false
  ready : Bool := false
  lost : Bool := false
deriving DecidableEq, Repr

/-- A clock domain (R373): STATE 0 running, 1 gated, 2 in reset, 3 clock lost, 4 isolated awaiting rejoin; the words
dropped and the responses synthesised at its guards, in all and since the last rejoin (R365, R366); `since` is the campus
time at which a domain reset of it began, plus one. -/
structure Dom where
  state : Nat := 0
  drops : Nat := 0
  synth : Nat := 0
  dropsNew : Nat := 0
  synthNew : Nat := 0
  since : Nat := 0
deriving DecidableEq, Repr

/-- A reset in progress: its RESET_BEGIN trigger (R374) and the campus time of its start. -/
structure ResetRun where
  trigger : Nat
  since : Nat
deriving DecidableEq, Repr

/-- A power-state transition in progress (R371): the state it goes to (3 is Off) and SL_LS. -/
structure PstateRun where
  target : Nat
  slLs : Bool
deriving DecidableEq, Repr

/-- A scheduled switch of a partition's plate source (R196, R362): the operating point, its tick, and whether PF0 asked. -/
structure SwitchRun where
  fstep : Nat
  tick : Nat
  pf0 : Bool
deriving DecidableEq, Repr

/-- The CLK block (R373). `ret` and `parts` are the retained reset and the partition resets in progress; `lost` the
source indices whose loss waits for recovery (R364); `retMs` is GLB_RET_MS; `slFrom` is when the device entered Safelight. -/
structure ClockUnit where
  pstate : Nat := 0
  slLs : Bool := false
  off : Bool := false
  ret : Option ResetRun := none
  parts : SMap (Option ResetRun) := []
  doms : SMap Dom := []
  plls : SMap Pll := []
  refs : SMap Ref := []
  alert : Bool := false
  mgmtH1 : Bool := false
  moving : Option PstateRun := none
  pstateRes : Nat := 0
  gateDom : Nat := 0
  gateRes : Nat := 0
  drstRes : Nat := 0
  switchPart : Nat := 0
  switchRes : Nat := 0
  switches : SMap (Option SwitchRun) := []
  lost : List Nat := []
  retMs : Nat := 0
  slFrom : Nat := 0
  counters : SMap Nat := []
deriving DecidableEq, Repr

end Sys2Proof.Machine
end

