-- ==== Sys2Proof/Machine/StateColl.lean ====
section
/-! DEFINITION. State of the collective engines (R281 to R297). -/
namespace Sys2Proof.Machine

/-- A collective block (R282). -/
structure CollBlock where
  op : Nat
  mode : Nat
  dims : List Nat
  flags : Nat
  expSlot : Nat
  fmtIn : Nat
  fmtOut : Nat
  rop : Nat
  queue : Nat
  peer : Nat
  elems : Nat
  src : Nat
  dst : Nat
  scratch : Nat
  signal : Nat
  signalEn : Bool
  reserved : Bool
  sig : Nat
deriving DecidableEq, Repr

/-- A data or credit segment (R287): its header and its data with their poison marks. -/
structure Segment where
  num : Nat
  sig : Nat
  phase : Nat
  half : Nat
  kind : Nat
  credits : Nat
  seg : Nat
  off : Nat
  count : Nat
  data : List (Byte × Bool)
deriving DecidableEq, Repr

/-- A part of a collective command on one engine (R281): the command's queue and sequence number; its COLL_SEQ once it
has started; the credits held and the pieces sent by chain (R288); the pieces that wait in staging. -/
structure CollPart where
  queue : Nat
  seq : Nat
  num : Option Nat := none
  credits : SMap Nat := []
  sent : SMap Nat := []
  stage : List Segment := []
deriving DecidableEq, Repr

/-- A collective command that is not complete: its block, the exposure read at its start (R282), the phase in progress,
the elements that phase still has to bring here, and the poisoned elements delivered. -/
structure CollCmd where
  queue : Nat
  seq : Nat
  part : Nat
  block : CollBlock
  started : Bool := false
  exposure : Int := 0
  phase : Nat := 0
  todo : Nat := 0
  poisoned : Nat := 0
  finished : Bool := false
deriving DecidableEq, Repr

/-- One engine (R296): its part queues and active parts by partition, COL_SEQp, counters. -/
structure CollEngine where
  queued : SMap (List CollPart) := []
  active : SMap (List CollPart) := []
  seqs : SMap Nat := []
  counters : SMap Nat := []
  lastEvt : SMap Nat := []
deriving DecidableEq, Repr

/-- The collective engines CE0 to CE5. -/
structure CollUnit where
  engines : SMap CollEngine := []
  cmds : List CollCmd := []
deriving DecidableEq, Repr

end Sys2Proof.Machine
end

