-- ==== Sys2Proof/Machine/StateGen.lean ====
section
/-! DEFINITION. State of the generation unit (R156 to R178), of the loaded job (R145, R151, R320), and of the integrity
unit (R375 to R399). CUR_GEN itself stands in State. -/
namespace Sys2Proof.Machine

/-- One generational region (R156, R320). -/
structure GenReg where
  role : Nat := 0
  baseA : Nat := 0
  baseB : Nat := 0
  len : Nat := 0
deriving DecidableEq, Repr

/-- The training record (R151); FP32 fields as codes. -/
structure Training where
  floats : List Nat
  stages : Nat
  mb : Nat
  shards : Nat
  buckets : Nat
  axis : Nat
  mode : Nat
  opt : Nat
  advance : Nat
  gaccBase : Nat
deriving DecidableEq, Repr

/-- One bucket-table entry (R145). -/
structure Bucket where
  base0 : Nat
  base1 : Nat
  elems : Nat
  gaccOff : Nat
  soFull : Nat
  soFree : Nat
  writers : Nat
  expSlot : Nat
  fmt : Nat
deriving DecidableEq, Repr

/-- What LOAD keeps of a job (R317 to R321): devices in list order, training record, bucket table, step-scoped and
listed sync objects, exact regions as base and length with the GACC area first, step lists by queue with their descriptors' device address and count, and the DETERMINISTIC flag. -/
structure Job where
  devices : List Nat := []
  deterministic : Bool := false
  training : Option Training := none
  buckets : List Bucket := []
  objects : List (Nat × Nat × Bool) := []
  exact : List (Nat × Nat) := []
  lists : List (Nat × Nat × Nat) := []
  seed : Nat := 0
  g0 : Nat := 0
deriving DecidableEq, Repr

/-- An ORDER held (R163): fix tick, next step gate, ORDDEP. -/
structure Order where
  tick : Nat
  gate : Nat
  orddep : Bool
deriving DecidableEq, Repr

/-- A RESTART held (R169, R170): target, restart gate. -/
structure Restart where
  target : Nat
  gate : Nat
deriving DecidableEq, Repr

/-- A partition's generation registers (R177). -/
structure GenRegs where
  state : Nat := 0
  prevIntact : Bool := false
  orddep : Bool := false
  root : Bool := false
  epoch : Nat := 0
  jobId : Nat := 0
  fixMargin : Nat := 0x320
  gateGap : Nat := 0x64
  orderTimeout : Nat := 0x1388
  rejoinTimeout : Nat := 0x2710
  visible : Nat := 0
  printed : Nat := 0
  fixTick : Nat := 0
  rewinds : Nat := 0
  printStall : Nat := 0
  latentWait : Nat := 0
  staleMsg : Nat := 0
  regions : SMap GenReg := []
deriving DecidableEq, Repr

/-- Where a partition's generation unit stands in the protocol (R159): children heard per message, what has been sent
in this step; `rewound` and `loaded` list each child with its minimum CUR_GEN or G0 and its INTACT bit; the merged maxima (slot to product exponent plus 32,768), the flags gathered, messages held, timeouts. -/
structure Proto where
  maxGot : List Nat := []
  readyGot : List Nat := []
  fixedGot : List Nat := []
  rewound : List (Nat × Nat × Bool) := []
  loaded : List (Nat × Nat × Bool) := []
  axDone : Bool := false
  latentDone : Bool := false
  gathersLeft : Nat := 0
  sentMax : Bool := false
  sentReady : Bool := false
  sentFixed : Bool := false
  sentRewound : Bool := false
  sentLoaded : Bool := false
  maxima : SMap Nat := []
  exposure : SMap Nat := []
  exposeGot : Bool := false
  exposeDone : Bool := false
  rngCopied : Bool := false
  readyPoison : Bool := false
  readyOrd : Bool := false
  latentOrd : Bool := false
  ordWarned : Bool := false
  order : Option Order := none
  restart : Option Restart := none
deriving DecidableEq, Repr

/-- The rest of a partition's generation unit: control messages of an epoch that has not begun here, rewind bookkeeping, timeouts, pins
and waits, the fix tick and the ORDDEP of the generation in each bank (R174), and register writes that wait for the step
gate (R177). -/
structure GenAux where
  early : List (Nat × GenMsg) := []
  confirmed : Bool := false
  gateFired : Bool := false
  gateTick : Nat := 0
  exposeBy : Nat := 0
  orderBy : Nat := 0
  rejoinBy : Nat := 0
  loadedAt : Nat := 0
  pins : SMap Nat := []
  waitFrom : Option Nat := none
  stallFrom : Option Nat := none
  stallSeen : Bool := false
  lostWrites : Nat := 0
  fixAt : SMap Nat := []
  ordAt : SMap Bool := []
  pendRegs : SMap Nat := []
deriving DecidableEq, Repr

/-- One partition's generation unit. -/
structure GenUnit where
  regs : GenRegs := {}
  proto : Proto := {}
  aux : GenAux := {}
  job : Job := {}
deriving DecidableEq, Repr

/-- One physical row's health (R391, R392): its state, fog events within FOG_WINDOW, and proof failures. -/
structure RowHealth where
  state : Nat := 0
  fog : Nat := 0
  proof : Nat := 0
deriving DecidableEq, Repr

/-- A bracket record that waits for its recompute (R386, R387). -/
structure Bracket where
  part : Nat
  x : Nat
  y : Nat
  other : Option (Nat × Nat)
  frames : List Nat
deriving DecidableEq, Repr

/-- The integrity unit (R397). `plog` holds the newest 16 poisoned addresses per partition, newest first; `tryLog`
those of the present attempt at a step and `faultLog` those of the attempt before it that faulted with cause 0 (R381). `spareStore` is the SPARE_ROWS record of the device area (R395): the failed rows
of each plate, which a cold reset keeps. -/
structure Integrity where
  brkEn : Bool := true
  brkN : Nat := 0x10
  remapAuto : Bool := true
  fogLimit : Nat := 2
  proofPeriod : Nat := 300
  fogWindow : Nat := 24
  unmapped : Nat := 0
  plateFailed : Nat := 0
  latentPoison : SMap Bool := []
  currentPoison : SMap Bool := []
  plog : SMap (List Nat) := []
  tryLog : SMap (List Nat) := []
  faultLog : SMap (List Nat) := []
  rows : SMap RowHealth := []
  spareStore : SMap (List Nat) := []
  brackets : SMap (Option Bracket) := []
  proofTry : SMap Bool := []
  counters : SMap Nat := []
  lastEvt : SMap Nat := []
deriving DecidableEq, Repr

end Sys2Proof.Machine
end

