-- ==== Sys2Proof/Machine/StateHost.lean ====
section
/-! DEFINITION. State of the host interface: command queues and engines (R303 to R316, R335), sync objects and
guard slots (R322 to R327, R336), event rings (R328 to R333, R337), MSI-X tables. -/
namespace Sys2Proof.Machine

/-- Campus time in µs with its 16-bit fraction (R179). The local count of R184 is this count as it stands. -/
structure Clock where
  now : Nat := 0
  frac : Nat := 0
deriving DecidableEq, Repr

/-- A command descriptor, read from its 64 bytes (R305). -/
structure Desc where
  opc : Nat
  flags : Nat
  deadline : Nat
  waitSo : Nat
  sigSo : Nat
  waitVal : Nat
  deps : List (Nat × Nat)
  arg : Nat
  imm : Nat
  reserved : Bool
deriving DecidableEq, Repr

/-- Where a command of a queue stands (R308, R311). -/
inductive Phase where
  | edge | wait | executing | retired | finished | abandoned
deriving DecidableEq, Repr

/-- A command the front end has taken from its ring and that has not left the queue (R308). `seq` is its sequence
number, `due` the campus time of its deadline (R315), `lock` the sync object it holds by ACQ, `gens` the generation of each
partition visible when it started (R30), `part` its partition, `stepList` whether a step list put it there (R321), `pin` the
partition and bank that a print pins (R176). -/
structure Running where
  seq : Nat
  desc : Desc
  phase : Phase
  due : Nat
  lock : Option Nat
  gens : List Nat
  part : Nat
  stepList : Bool
  pin : Option (Nat × Nat) := none
deriving DecidableEq, Repr

/-- One submission queue (R304, R335): the window's fields, the commands taken from the ring and those a step list
appended, the gate before which none of the latter starts (R321), and the campus time plus one since when its engine has
not been serving it, which its deadlines do not count (R315). -/
structure Queue where
  base : Nat := 0
  host : Bool := false
  enable : Bool := false
  job : Bool := false
  part : Nat := 15
  engine : Nat := 0
  size : Nat := 0
  vector : Nat := 0
  submitted : Nat := 0
  completed : Nat := 0
  caddr : Nat := 0
  caddrHost : Bool := false
  state : Nat := 0
  reason : Nat := 0
  abnd : Nat := 0
  abndSeqs : List (Nat × Nat) := []
  running : List Running := []
  listBase : Nat := 0
  gateAt : Nat := 0
  pausedAt : Nat := 0
deriving DecidableEq, Repr

/-- A partition layout register (R303, FE_PARTi). -/
structure Part where
  valid : Bool := false
  first : Nat := 0
  size : Nat := 0
deriving DecidableEq, Repr

/-- What an engine is doing with its rounds (R313, R314): the queue it serves, the queue whose RUN it holds suspended, the
campus time at which the slice ends, whether it waits for a drain point because the slice is over, and the queue, plus one,
that it last served for each partition. -/
structure Engine where
  serving : Option Nat := none
  suspended : Option Nat := none
  sliceEnd : Nat := 0
  sliceOver : Bool := false
  last : SMap Nat := []
deriving DecidableEq, Repr

/-- The front end (R335). Counters are held by the offset of their register. -/
structure FrontEnd where
  ready : Bool := false
  parts : SMap Part := []
  ts : SMap Nat := []
  dl : SMap Nat := []
  aper : Nat := 0
  vfAper : SMap Nat := []
  queues : SMap Queue := []
  engines : SMap Engine := []
  counters : SMap Nat := []
  linkUpA : Bool := true
  linkUpB : Bool := true
deriving DecidableEq, Repr

/-- One sync object (R322 to R324, R336). -/
structure SyncObj where
  val : Nat := 0
  mode : Nat := 0
  state : Nat := 0
  step : Bool := false
  part : Nat := 15
  holder : Nat := 0
  holderPart : Nat := 0
deriving DecidableEq, Repr

/-- One guard slot (R325, R336) with the bytes staged in its G lines. -/
structure Slot where
  base : Nat := 0
  part : Nat := 15
  len : Nat := 0
  valid : Bool := false
  obj : Nat := 0
  staged : SMap Nat := []
deriving DecidableEq, Repr

/-- The sync-object store. `lastEvt` holds, per event code and requester, the campus millisecond of the last record
(R332 limits one per millisecond). -/
structure SyncStore where
  objs : SMap SyncObj := []
  slots : SMap Slot := []
  counters : SMap Nat := []
  lastEvt : SMap Nat := []
deriving DecidableEq, Repr

/-- One event ring (R330, R337). The `gap` fields describe the records dropped since the last GAP record. -/
structure Ring where
  base : Nat := 0
  enable : Bool := false
  mirror : Bool := false
  size : Nat := 0
  minsev : Nat := 0
  vector : Nat := 0
  mask : Nat := 0x3FF
  prod : Nat := 0
  cons : Nat := 0
  phase : Bool := true
  mod : Nat := 0
  dropped : Nat := 0
  gapCount : Nat := 0
  gapFirst : Nat := 0
  gapLast : Nat := 0
  gapTime : Nat := 0
  fireAt : Nat := 0
  firePending : Bool := false
deriving DecidableEq, Repr

/-- One MSI-X vector of a function: the PCIe table entry and its pending bit. -/
structure Msix where
  addr : Nat := 0
  data : Nat := 0
  masked : Bool := true
  pending : Bool := false
deriving DecidableEq, Repr

/-- A record as its writer gives it (R328); `postEvent` adds the time and the sequence number. The payload lists byte
offset, byte count and value. -/
structure Event where
  cls : Nat
  sev : Nat
  code : Nat
  part : Nat
  source : Nat
  payload : List (Nat × Nat × Nat)
deriving DecidableEq, Repr

/-- The event block (R329, R337) with the boot log of R339; the `boot` counts describe the records it could not hold. -/
structure EventUnit where
  rings : SMap Ring := []
  seq : Nat := 0
  unrouted : Nat := 0
  bootLog : List (List Byte) := []
  bootLost : Nat := 0
  bootFirst : Nat := 0
  bootLast : Nat := 0
  bootTime : Nat := 0
  msix : SMap Msix := []
deriving DecidableEq, Repr

end Sys2Proof.Machine
end

