-- ==== Sys2Proof/Machine/StateLink.lean ====
section
/-! DEFINITION. State of Ciosh Link (R247 to R280). -/
namespace Sys2Proof.Machine

/-- A flit of a message in a transmitter: the byte offset of its payload in the coded stream, and how often it has been
sent again (R259, R260). -/
structure TxFlit where
  flit : Flit
  off : Nat := 0
  tries : Nat := 0
deriving DecidableEq, Repr

/-- A message that a port transmits (R269): its header and the offsets of its blocks in the coded stream. -/
structure TxMsg where
  hdr : List Byte := []
  blocks : List Nat := []
  size : Nat := 0
deriving DecidableEq, Repr

/-- A hole in a coded stream (R260, R261): lost offset and length, and where decoding resumes. -/
structure Hole where
  off : Nat
  len : Nat
  block : Nat
  at_ : Nat
deriving DecidableEq, Repr

/-- A message being received under a VC and MTAG (R269): its coded bytes so far, its holes, the header that a RESUME or
DROPPED carried, and how many resumed bytes are already held (R254). -/
structure Partial where
  bytes : List Byte := []
  holes : List Hole := []
  hdr : List Byte := []
  skip : Nat := 0
deriving DecidableEq, Repr

/-- A port (R250 to R264, R278). `good` and `bad` are the lanes found good and those given up; `x2` holds the port at two
lanes until an upgrade is tried; credits and credits owed by 2·VC + class; `replay` the sequenced flits not acknowledged,
oldest first; `tx` and `rx` messages by 1,024·VC + MTAG. -/
structure Port where
  state : Nat := 0
  lanes : Nat := 0
  peerId : Nat := 0
  peerPort : Nat := 0
  enable : Bool := true
  forceX2 : Bool := false
  upHold : Nat := 60
  laneLimit : Nat := 10000000
  passes : Nat := 0
  good : Nat := 0
  bad : Nat := 0
  x2 : Bool := false
  upgrading : Bool := false
  changedAt : Nat := 0
  credits : SMap Nat := []
  owed : SMap Nat := []
  txSeq : Nat := 0
  rxSeq : Nat := 0
  nakOpen : Bool := false
  nakAt : Nat := 0
  tags : SMap Nat := []
  waiting : SMap (List TxFlit) := []
  replay : List TxFlit := []
  tx : SMap TxMsg := []
  rx : SMap (Option Partial) := []
  counters : SMap Nat := []
deriving DecidableEq, Repr

/-- The link block (R279): device-wide registers, the directions lost and since when each has had no active port (plus
one), messages that wait for a port of their direction, complete messages that wait for their receiver with the port they
came by, and the links other devices report lost. -/
structure LinkUnit where
  ports : SMap Port := []
  wCol : Nat := 1
  wPipe : Nat := 1
  peerHold : Nat := 10
  lost : Nat := 0
  downAt : SMap Nat := []
  held : SMap (List Msg) := []
  inbox : List (Nat × Msg) := []
  remote : List (Nat × Nat) := []
  counters : SMap Nat := []
  lastEvt : SMap Nat := []
deriving DecidableEq, Repr

end Sys2Proof.Machine
end

