-- ==== Sys2Proof/Machine/StateMem.lean ====
section
/-! DEFINITION. State of the stacked memory (R205 to R227), the shared cache and the frame pool (R228 to R246). -/
namespace Sys2Proof.Machine

/-- A channel's traffic generator (R225, R226). -/
structure TrafficGen where
  busy : Bool := false
  done : Bool := false
  op : Nat := 0
  pattern : Nat := 0
  base : Nat := 0
  count : Nat := 0
  stride : Nat := 1
  seed : Nat := 1
  errs : Nat := 0
  lane0 : Nat := 0
  lane1 : Nat := 0
  first : Nat := 0xFFFFFFFF
deriving DecidableEq, Repr

/-- One memory channel: spare lanes left on its two pseudo-channels and its command lane (R221), consecutive failed
retrainings (R222), granules served in the current millisecond (R220) and how often it was the busiest of a skewed second, the ECC
corrections of second `laneSec` by lane, the lanes due for a spare (R221), and its traffic generator. A lane's number is
256·pseudo-channel + lane, with 2 for the command lanes. -/
structure MemChannel where
  spare0 : Nat := 2
  spare1 : Nat := 2
  spareCa : Nat := 1
  fails : Nat := 0
  served : Nat := 0
  busiest : Nat := 0
  laneErrs : SMap Nat := []
  laneSec : Nat := 0
  laneDue : List Nat := []
  tg : TrafficGen := {}
deriving DecidableEq, Repr

/-- One stack (R226): the fields of MEM_STATUS and its channel bit masks, and its counters by register offset. -/
structure Stack where
  temp : Nat := 0
  tstate : Nat := 0
  selfRefresh : Bool := false
  trained : Bool := false
  insvc : Nat := 0
  fenced : Nat := 0
  mapoutPend : Nat := 0
  counters : SMap Nat := []
  lastThrottleEvt : Nat := 0
deriving DecidableEq, Repr

/-- A memory range of a partition (R212). -/
structure PRange where
  base : Nat := 0
  size : Nat := 0
deriving DecidableEq, Repr

/-- The compression tag of a 512 B block (R214 T1 and T2, R216): codec, LEN and ZMAP; the default is raw. -/
structure CTag where
  codec : Nat := 0
  len : Nat := 8
  zmap : Nat := 0
deriving DecidableEq, Repr

/-- The stacked memory. `bytes` is every byte of device memory (zero after a cold start, R223); `poison` marks the
poisoned 64 B granules (R214 T0); `ewa` the side state of each ACC96 word of an exact region by word address (R214
T3-T4); `ctags` the compression tag of each 512 B block; `acts` the rolling activation counts of R218 by bank, `actWindow`
each bank's activations in its 3.9 µs window as 256·window + count, `held` the activations that R218 has held since the
last ROWHAMMER_THROTTLE by partition; `pendingWb` the granules with a write-back to come: 1, or 2 when a newer write has
arrived (R217); `scrubAt` the address that the patrol scrub reads next. -/
structure Memory where
  bytes : SMap Byte := []
  poison : SMap Bool := []
  ewa : SMap Nat := []
  ctags : SMap CTag := []
  hbm : SMap Stack := []
  chans : SMap MemChannel := []
  affine : Bool := false
  rsv : Nat := 0
  key : Nat := 0
  failed : Bool := false
  actMax : Nat := 40
  raaimt : Nat := 32
  skewLimit : Nat := 0x40
  scrubPeriod : Nat := 24
  laneLimit : Nat := 16
  pranges : SMap PRange := []
  acts : SMap Nat := []
  actWindow : SMap Nat := []
  held : SMap Nat := []
  scrubAt : Nat := 0
  pendingWb : SMap Nat := []
  skewMs : Nat := 0
  skewedMs : Nat := 0
  skewMax : Nat := 0
  lastEvt : SMap Nat := []
deriving DecidableEq, Repr

/-- A cache line's state (R229). -/
inductive LineState where
  | i | c | d | m | g
deriving DecidableEq, Repr

/-- A cached line: its state and the compression-permitted flag of its last writer. -/
structure Line where
  state : LineState := .i
  cmpr : Bool := false
deriving DecidableEq, Repr

/-- A GV4ADD that a slice has forwarded to its controller (R237). -/
structure PendingAdd where
  addr : Nat
  operand : Nat
  poison : Bool
deriving DecidableEq, Repr

/-- An exact windowed accumulation region (R234, R245). -/
structure ExactRegion where
  valid : Bool := false
  base : Nat := 0
  len : Nat := 0
  part : Nat := 0
deriving DecidableEq, Repr

/-- A frame's descriptor (R238): 0 free, 1 allocated, 2 zeroing. -/
structure Frame where
  state : Nat := 0
  owner : Nat := 0
  part : Nat := 0
deriving DecidableEq, Repr

/-- An ALLOC request pending in an allocator (R243): requester, partition, and whether it was forwarded. -/
structure AllocReq where
  id : Nat
  part : Nat
  forwarded : Bool
deriving DecidableEq, Repr

/-- An answer to an ALLOC on its way to its requester (R243): the frame, or pool empty stamped with the credit count. -/
structure AllocAnswer where
  id : Nat
  part : Nat
  frame : Option Nat
  stamp : Nat
deriving DecidableEq, Repr

/-- One hub's frame allocator (R240 to R243). Frames never granted lie at the end of the free list in rising order from
`fresh` on; `freed` holds those that have rejoined it behind them. -/
structure Allocator where
  fresh : Nat := 0
  freed : List Nat := []
  pointer : Nat := 0
  pending : List AllocReq := []
  forwardedIn : List AllocReq := []
  answers : List AllocAnswer := []
  waiting : List AllocAnswer := []
  held : SMap Nat := []
deriving DecidableEq, Repr

/-- The shared cache and the frame pool (R228 to R246). `min` and `max` are the quotas by index 0-8 (8 is 0xF). -/
structure Cache where
  gv4En : Nat := 0
  lines : SMap Line := []
  adds : List PendingAdd := []
  exact : SMap ExactRegion := []
  frames : SMap Frame := []
  allocs : SMap Allocator := []
  credit : Nat := 0
  min : SMap Nat := []
  max : SMap Nat := []
  counters : SMap Nat := []
  lastEvt : SMap Nat := []
  suppressed : SMap Nat := []
  reclaiming : SMap Nat := []
  granted : SMap (List Nat) := []
deriving DecidableEq, Repr

end Sys2Proof.Machine
end

