-- ==== Sys2Proof/Machine/StateObs.lean ====
section
/-! DEFINITION. State of the observation path (R400 to R411): selectors, snapshots, contact sheets, breakpoints, trace. -/
namespace Sys2Proof.Machine

/-- A breakpoint unit (R408, R410): OBS_BPu_CTL, COUNT and STATUS. STATE is 0 disarmed, 1 armed, 2 stopping,
3 stopped, 4 missed, 5 refused. -/
structure BpUnit where
  arm : Bool := false
  scope : Bool := false
  part : Nat := 0
  plate : Nat := 0
  cluster : Nat := 0
  pc : Nat := 0
  n : Nat := 0
  state : Nat := 0
  reason : Nat := 0
  hits : Nat := 0
deriving DecidableEq, Repr

/-- The trace unit (R409, R410): its registers, whether it captures, the next index, and the 16 B records by index. -/
structure TraceUnit where
  en : Bool := false
  wrap : Bool := false
  src : Nat := 0
  plate : Nat := 0
  cluster : Nat := 0
  port : Nat := 0
  stopEn : Bool := false
  startEn : Bool := false
  cls : Nat := 0
  code : Nat := 0
  on : Bool := false
  wp : Nat := 0
  records : SMap (List Byte) := []
deriving DecidableEq, Repr

/-- A contact-sheet trigger (R406): 0 deadline or 1 host, its scope (bit i for partition i, bit 8 device-wide), STOP,
its campus tick, and the queue and sequence number of an expired command. -/
structure SheetReq where
  trigger : Nat
  scope : Nat
  stop : Bool
  tick : Nat
  queue : Nat
  seq : Nat
deriving DecidableEq, Repr

/-- A snapshot request (R405) with the campus tick of its capture. -/
structure SnapReq where
  tick : Nat
  plates : Nat
  cells : Bool
  hub : Bool
deriving DecidableEq, Repr

/-- The observation path (R410). `sheet` is the sheet being taken, `after` the deadlines that it serves as well, `waiting` the
triggers that start the next ones; `snapBuf` holds the snapshot's entries as offset and value; `bpFrom` the campus time, plus
one, since when a breakpoint has stopped regions of each partition. -/
structure Observe where
  lastSlot : Nat := 0
  nextSlot : Nat := 0
  sheet : Option SheetReq := none
  after : List SheetReq := []
  waiting : List SheetReq := []
  snap : Option SnapReq := none
  snapTrunc : Bool := false
  snapTick : Nat := 0
  snapBuf : List (Nat × Nat) := []
  mirror : Nat := 0
  cellPlate : Nat := 0
  cellCluster : Nat := 0
  sheetSlot : Nat := 0
  sheetOff : Nat := 0
  keep : Nat := 0
  trace : TraceUnit := {}
  bps : SMap BpUnit := []
  bpFrom : SMap Nat := []
  counters : SMap Nat := []
deriving DecidableEq, Repr

end Sys2Proof.Machine
end

