-- ==== Sys2Proof/Machine/StatePlate.lean ====
section
/-! DEFINITION. State of the compute fabric: cells (R64 to R90), clusters and their stream channels (R91 to R104),
regions (R106) with their tile walker (R117 to R137), and the loaded program image (R115, R116). -/
namespace Sys2Proof.Machine

/-- A side state of R53. -/
inductive Side where
  | finite | posInf | negInf | nan
deriving DecidableEq, Repr

/-- One accumulator entry: the window value in LSBs of its exposure, and the tag of R72 (side state and poison; the
residue always agrees with the value in a fault-free cell, and R86 recomputes it). `over` is the overflow result of
R78 with the sign of the true sum. -/
structure Acc where
  val : Int := 0
  side : Side := .finite
  poison : Bool := false
  ovfl : Option Bool := none
deriving DecidableEq, Repr

/-- An open accumulation group, held under its ACC_BASE (R74 to R78): the entry that runs it, where its spill words lie,
the exposure raised so far in steps of 8, whether it began with ACC_INIT = 1, the passes done, the passes that had run
before a restart (R73), whether a spill has taken place, whether the spill words hold a chain's sums (R80), whether it runs
on to an overflow result, whether it has consumed poison (R379), and the A rows and weight tiles that it has consumed
(R386). -/
structure Group where
  entry : Nat := 0
  ls : Nat := 0
  raised : Nat := 0
  init : Bool := false
  passes : Nat := 0
  seen : Nat := 0
  spilled : Bool := false
  kept : Bool := false
  final : Bool := false
  consumed : Bool := false
  log : List Byte := []
deriving DecidableEq, Repr

/-- A running sum on its way along a chain (R80). -/
structure ChainSum where
  val : Int
  side : Side
  poison : Bool
  ovfl : Option Bool
deriving DecidableEq, Repr

/-- The issue word that a cell has latched (R93): op-table entry, first-pass mark, element-index base and row pitch,
and the bytes that the cluster's stream port delivers with it on S0 and S1, each with its poison mark. -/
structure Issue where
  entry : Nat
  first : Bool
  idx : Nat
  pitch : Nat
  a : List (Byte × Bool)
  b : List (Byte × Bool)
deriving DecidableEq, Repr

/-- A group that the bracketing LFSR has sampled (R385, R386): its op-table entry, the exposure it finished with, its
number of totals, the operand bytes it consumed, and the totals and side states as the record holds them. -/
structure Sampled where
  entry : Nat
  exposure : Int
  count : Nat
  log : List Byte
  totals : List Byte
deriving DecidableEq, Repr

/-- A spill that has been captured and whose drain into the ACC96 words runs (R76): the group's ACC_BASE, LS_SPILL,
whether it is the first spill of a group that began with ACC_INIT = 0, and the captured values. -/
structure SpillRun where
  base : Nat
  ls : Nat
  fresh : Bool
  vals : List Int
deriving DecidableEq, Repr

/-- One cell. Local store bytes, poison bits of its 32 B words, accumulator entries, open groups, auto-exposure
registers (R73), op table, vector registers (16 registers of 16 FP32 lanes, index 16·r + lane) and their poison bits,
route table and the entry in force, words arrived from the four mesh neighbours, chain sums arrived, the latched issue
word, the bracketing LFSR and the groups it sampled whose records are still to be written (R385), the groups open at the
last SAVE (R86), the spills whose drains run (R76), the bytes that each port last read from the local store (R85: 0
epilogue, 1 VLD), and the counters of R89 in the order of its table. -/
structure Cell where
  ls : SMap Byte := []
  lsPoison : SMap Bool := []
  acc : SMap Acc := []
  groups : SMap (Option Group) := []
  autoExp : SMap Nat := []
  ops : SMap Nat := []
  vreg : SMap Nat := []
  vPoison : SMap Bool := []
  routes : Nat := 0
  route : Nat := 0
  cellIdx : Nat := 0
  mesh : SMap (List (Byte × Bool)) := []
  chain : SMap (List ChainSum) := []
  issue : Option Issue := none
  lfsr : Option Nat := none
  lastRead : SMap (List (Byte × Bool)) := []
  sampled : List Sampled := []
  savedGroups : SMap (Option Group) := []
  spills : List SpillRun := []
  counters : SMap Nat := []
deriving DecidableEq, Repr

/-- A stream descriptor running or queued on a channel: the address of the stream descriptor, the tensor-base offset
formed by its STRM (R99), and the bytes of the stream moved so far, which give the place of the walk (R102, R103). -/
structure Flow where
  desc : Nat
  off : Int
  served : Nat := 0
deriving DecidableEq, Repr

/-- One stream channel (R101): its descriptor queue of at most 4, the bytes it holds with their poison marks, and for a
write channel the bytes it has credit for. -/
structure Channel where
  queue : List Flow := []
  held : List (Byte × Bool) := []
  credit : Nat := 0
  taken : Nat := 0
  queued : Nat := 0
deriving DecidableEq, Repr

/-- What differs from cluster to cluster of one region: address registers, ADDR_MODE, channels (R91), the bytes that
each cell has sent to the stream port and that wait for their place in the stream (by 8·row + column), and the counters of
R114 by register offset. -/
structure Cluster where
  areg : SMap Nat := []
  addrMode : Bool := false
  chans : SMap Channel := []
  counters : SMap Nat := []
  region : Nat := 0
  complete : Bool := false
  outs : SMap (List (Byte × Bool)) := []
deriving DecidableEq, Repr

/-- A comparator (R91): counter, relation, value. Its reset is C0 EQ 0. -/
structure Comparator where
  ctr : Nat := 0
  rel : Nat := 0
  val : Nat := 0
deriving DecidableEq, Repr

/-- STATE of PLT_CLU_CTL (R114). -/
inductive SeqState where
  | idle | running | frozen | replayWait | draining | stopped | halted | breakpoint
deriving DecidableEq, Repr

/-- The walker's PHASE (R137). -/
inductive WalkPhase where
  | none | prologue | fill | passes | tail | stopped
deriving DecidableEq, Repr

/-- The walk in progress: its cycle count by R128, the place of R137, and the macro-instruction's address. -/
structure Walk where
  phase : WalkPhase := .none
  macroAt : Nat := 0
  cycles : Nat := 0
  item : Nat := 0
  group : Nat := 0
  pass : Nat := 0
deriving DecidableEq, Repr

/-- What an overflow replay returns to (R77): the program state at the first pass of the current group. -/
structure Snap where
  entry : Nat
  pc : Nat
  ctrs : SMap Nat
  cmps : SMap Comparator
  cycle : Nat
  aregs : SMap (SMap Nat)
  chans : SMap (SMap Channel)
deriving DecidableEq, Repr

/-- One region of the loaded image (R106, R116): its table entry, and the program state that its sequencers share
(R91, R95). `waitLeft` is what remains of a WAIT or IDLEW; `window` the free-range entry of an idle window; `frozen`
the cause of a freeze (R105). -/
structure Region where
  cmd : Nat := 0
  stage : Nat := 0
  start : Nat := 0
  x0 : Nat := 0
  y0 : Nat := 0
  x1 : Nat := 0
  y1 : Nat := 0
  prog : Nat := 0
  plen : Nat := 0
  preset : Nat := 0
  cell0 : Nat := 0
  state : SeqState := .idle
  pc : Nat := 0
  ctrs : SMap Nat := []
  cmps : SMap Comparator := []
  cycle : Nat := 0
  waitLeft : Nat := 0
  window : Option Nat := none
  flatField : Bool := false
  drain : Bool := false
  frozenCause : Nat := 0
  syncWait : Option (Nat × Nat) := none
  signals : List Nat := []
  walk : Walk := {}
  snap : Option Snap := none
  done : Bool := false
deriving DecidableEq, Repr

/-- The program image loaded into a partition's plates (R115): where its container lies, the container address of each
section, and its regions by number. -/
structure Image where
  loaded : Bool := false
  base : Nat := 0
  sections : SMap Nat := []
  lengths : SMap Nat := []
  commands : Nat := 0
  stages : Nat := 0
  nregions : Nat := 0
  slots : Nat := 0
  regions : SMap Region := []
  runCmd : Option Nat := none
deriving DecidableEq, Repr

/-- A suspended RUN (R86, R314): its fused command, its regions, its clusters, and the route entry in force in each of its
cells, which the plates' context-save areas hold beside the cell records. -/
structure SavedRun where
  cmd : Nat
  regions : SMap Region
  clusters : SMap Cluster
  routes : SMap Nat
deriving DecidableEq, Repr

/-- The plates of the device: cells by 640·y + x, clusters by 80·(y div 8) + (x div 8), images and suspended
RUNs by partition, and the spare-row map of each plate (R393, R398). -/
structure Plates where
  cells : SMap Cell := []
  clusters : SMap Cluster := []
  images : SMap Image := []
  saved : SMap (Option SavedRun) := []
  rowMaps : SMap (List Nat) := []
deriving DecidableEq, Repr

end Sys2Proof.Machine
end

