-- ==== Sys2Proof/Machine/StateTime.lean ====
section
/-! DEFINITION. State of the timebase, of the power envelope controller (R179 to R204), and of the module's sensors and
supply (R412 to R436). -/
namespace Sys2Proof.Machine

/-- A plate's clock and core voltage (R203): mV, the active PLL (true for PLL_Pp_B), swallow ratio, FSTEP, and the
cycle count c of R195. -/
structure PlatePower where
  volt : Nat := 0
  pll : Bool := false
  swallow : Nat := 0
  fstep : Nat := 0
  cyc : Nat := 0
deriving DecidableEq, Repr

/-- A partition's operating-point change (R194, R196): its target, whether the change runs, whether it rises, whether
the switch has been made, the swallow ratio that starts at S, and its budget and unswallowed demand in W (R200). -/
structure PartPower where
  target : Nat := 0
  busy : Bool := false
  rising : Bool := false
  switched : Bool := false
  retry : Bool := false
  ratio : Option Nat := none
  budget : Nat := 0
  need : Nat := 0
deriving DecidableEq, Repr

/-- A curtailment sequence (R194): t0, whether swallowing has started, and whether its 1,000-tick bound was missed. -/
structure Curtail where
  t0 : Nat
  started : Bool
  missed : Bool
deriving DecidableEq, Repr

/-- A directive setting (R198, R199): its TYPE, its value (the eight weights for SET_SHARES, else one number), SEQ, and
EFFECT_T and EXPIRE_T. -/
structure Setting where
  type : Nat
  vals : List Nat
  seq : Nat
  effect : Nat
  expire : Nat
deriving DecidableEq, Repr

/-- The TIM block (R203) and what stands behind it. Lists of periods and samples are newest first; `floorNow` is the
floor as SLEW has let it move (R192); `seqs` holds the last accepted SEQ of each key plus one. -/
structure TimeUnit where
  tstate : Nat := 0
  ptpOk : Bool := false
  ctOk : Bool := false
  grid : Bool := false
  pinLevel : Nat := 0
  offset : Int := 0
  holdLimit : Nat := 30
  levels : List Nat := [2000, 2700, 3400, 4100, 4800, 5500, 6200, 6900]
  source : Nat := 0
  limit : Nat := 2000
  cap : Nat := 0
  hostCap : Nat := 0
  slew : Nat := 500
  floor : Nat := 5200
  shares : SMap Nat := []
  ppwr : SMap Nat := []
  plates : SMap PlatePower := []
  counters : SMap Nat := []
  stepped : Bool := false
  ctGood : Nat := 0
  ctBad : Nat := 0
  ctLast : Nat := 0
  holdFrom : Nat := 0
  holdWarn : Nat := 0
  gridLast : Option Nat := none
  periods : List Nat := []
  gridRun : Nat := 0
  cycleAt : Nat := 0
  samples : List (Nat × Nat) := []
  sampleAt : Nat := 0
  msMeans : List Nat := []
  cycSum : Nat := 0
  cycN : Nat := 0
  cycW : Nat := 0
  limitFell : Bool := false
  floorNow : Nat := 0
  floorClimb : Bool := false
  parts : SMap PartPower := []
  pdev : Nat := 0
  curtail : Option Curtail := none
  seqs : SMap Nat := []
  waiting : List Setting := []
  lapses : List Setting := []
  offering : Bool := false
  free : List Nat := []
  lastEvt : SMap Nat := []
deriving DecidableEq, Repr

/-- GLB_TRIP (R435): VALID, which a host may clear, CLASS, INDEX and TEMP. -/
structure Trip where
  cls : Nat
  index : Nat
  temp : Nat
  valid : Bool := true
deriving DecidableEq, Repr

/-- The module (R412 to R436): whether it is powered and out of RESET_N, the last reading of each sensor as class, index
and °C, the sensors in the warning and throttle states and their counts of trip samples (by 256·class + index), TLIMIT,
THERMTRIP_N, GLB_TRIP, and counters. Classes: 0 plate, 1 stack, 2 hub, 3 converter, 4 inlet, 5 outlet. -/
structure Module where
  up : Bool := true
  powered : Bool := true
  resetLow : Bool := false
  temps : SMap (Option Int) := []
  warm : List Nat := []
  hot : List Nat := []
  tripRuns : SMap Nat := []
  tlimit : Nat := 6900
  throttled : Bool := false
  throttleFrom : Nat := 0
  therm : Bool := false
  heldReset : Bool := false
  trip : Option Trip := none
  lowAt : Nat := 0
  highAt : Nat := 0
  tap : Nat := 0
  counters : SMap Nat := []
deriving DecidableEq, Repr

end Sys2Proof.Machine
end

