-- ==== Sys2Proof/Machine/Block.lean ====
section
/-! DEFINITION. The block: everything but campus time, the current generations and the queue of commands. -/
namespace Sys2Proof.Machine

/-- Topology (R266): this device and the coordinates of every device of the campus. -/
structure Topology where
  self : Nat := 0
  sx : Nat := 1
  sy : Nat := 1
  sz : Nat := 1
  coords : SMap Nat := []
deriving DecidableEq, Repr

/-- A complete message linked into a receive queue (R274): its frames in order, its bytes, and the bytes taken. -/
structure RxMsg where
  frames : List Nat
  len : Nat
  taken : Nat
deriving DecidableEq, Repr

/-- Receive queues by 64·partition + queue, with the next QSEQ expected of each (source device, source partition,
queue), the messages that wait ahead of it, and the numbers this device gives its own messages (R270, R274). -/
structure Messages where
  queues : SMap (List RxMsg) := []
  nextSeq : SMap Nat := []
  early : List Msg := []
  mid : Nat := 0
  sendSeq : SMap Nat := []
deriving DecidableEq, Repr

/-- Everything but campus time, the current generations and the queue. `latches` holds the upper halves captured for 64-bit
pairs, plus one, by 2^32·path + BAR0 offset (BAR0 is path 0; the observation path, path 1); `loWrites` the _LO words
written to pairs whose _HI word is still to come, plus one (R5). -/
structure Block where
  fe : FrontEnd := {}
  syn : SyncStore := {}
  evt : EventUnit := {}
  host : SMap Byte := []
  hostPoison : SMap Bool := []
  plates : Plates := {}
  mem : Memory := {}
  shc : Cache := {}
  gens : SMap GenUnit := []
  int : Integrity := {}
  topo : Topology := {}
  msgs : Messages := {}
  obs : Observe := {}
  clk : ClockUnit := {}
  tim : TimeUnit := {}
  module : Module := {}
  boot : BootUnit := {}
  link : LinkUnit := {}
  coll : CollUnit := {}
  latches : SMap Nat := []
  loWrites : SMap Nat := []
  out : List Out := []
deriving DecidableEq, Repr

end Sys2Proof.Machine
end

