-- ==== Sys2Proof/Config.lean ====
section
/-! DEFINITION. The free values: what the spec leaves open, as constants with no body. Nothing in Lean can
evaluate one of them, so a statement that mentions one holds whatever its value is. -/
namespace Sys2Proof.Config

/-- R60: the bits that vector function `f` (the op code of R67) returns for FP32 input `x`. The model clamps
them into the error bound of R60; within it the spec leaves the bits open, the same for one input always. -/
opaque vectorFunction (f x : Nat) : Nat

/-- The element bits that the writer of a non-finite block stores (R40, R41, R42): every element reads as NaN,
the spec states no bits. -/
opaque nonFiniteElement (fmt index : Nat) : Nat

/-- R103: byte `k` that an issue at stream position `pos` gives to a cell that reads the stream port and lies outside the
running descriptor's cell selection. -/
opaque unservedByte (x y pos k : Nat) : BitVec 8

/-- R385: the seed of the bracketing LFSR of the cell at a physical coordinate; the rule names the coordinate and not the
function. -/
opaque lfsrSeed (x row : Nat) : Nat

/-- R193: the module power that is typical of a partition of `plates` plates at full load and operating point `fstep`;
the rule's figures are typical, bind nothing, and cover six points at eight plates. -/
opaque fullLoadPower (fstep plates : Nat) : Nat

/-- R188: the estimate of plate `p` when every estimate is 0 and the measured input is `w` watts, so that no scale makes
their sum match. -/
opaque unscalable (p w : Nat) : Nat

/-- R225: byte `i` of granule `index` under traffic-generator pattern `pattern` and seed: PRBS31, walking one, address as
data and row hammer, whose bits the spec does not give. -/
opaque testByte (pattern seed index i : Nat) : Nat

/-- R342, R354: SHA-384, a function of another standard. -/
opaque sha384 (bytes : List (BitVec 8)) : List (BitVec 8)

/-- R342: whether an ECDSA P-384 signature of a digest is valid under a public key. -/
opaque ecdsaValid (pubkey digest sig : List (BitVec 8)) : Bool

/-- R354: the ECDSA P-384 signature of bytes under the device identity key. -/
opaque identitySign (bytes : List (BitVec 8)) : List (BitVec 8)

/-- R343: the root-key hashes of slots 0 and 1, Darwick's. -/
opaque vendorKeyHash (slot : Nat) : List (BitVec 8)

/-- R354: the measurements of the boot ROM (0), and of firmware slots A and B as shipped (1, 2). -/
opaque shippedDigest (what : Nat) : List (BitVec 8)

/-- R349, R354: the bytes of a device-area copy that holds this map-out record, these spare rows, this certificate chain and
this owner-slot record; the order of its records and its SEQ are not given. -/
opaque deviceArea (mapout : List Nat) (rows : List (Nat × List Nat)) (cert : List (BitVec 8)) (owner : Option Nat) : List (BitVec 8)

/-- R351, R354: the layout of the measurement blocks over their values, and of their signature behind them. -/
opaque measureBlocks (values : List (List (BitVec 8))) : List (BitVec 8)
opaque measureOutput (blocks signature : List (BitVec 8)) : List (BitVec 8)

/-- R353: what a signed answer to an SPDM request signs, by the request and its parts; the layout is DSP0274's. -/
opaque spdmTranscript (request : Nat) (parts : List (List (BitVec 8))) : List (BitVec 8)

/-- R348: the HASH_KEY of the safe configuration, derived from the hub's fuse-unique value. -/
opaque safeHashKey : Nat

/-- R355: fuse values: stepping, SKU and serial number. -/
opaque fuseStepping : Nat
opaque fuseSku : Nat
opaque fuseSerial : Nat

/-- R399: byte 32 of the FOG_RESIDUE record of a vector register's parity (R375), for which the rule names no value. -/
opaque vectorParityKind (reg : Nat) : Nat

/-- R407: the byte at an offset of a contact sheet's record whose contents the rule lists and whose arrangement it does not
give, as a function of the offset and of the values recorded. -/
opaque sheetByte (offset : Nat) (values : List Nat) : BitVec 8

end Sys2Proof.Config
end

