-- ==== Sys2Proof/Machine/Operands.lean ====
section
/-! DEFINITION. Number formats, rounding and conversions (R32 to R60): exact values, the roundings of R45, block
formats, the stochastic-rounding generator and FP32 arithmetic. -/
namespace Sys2Proof.Machine

/-- The formats of R32. -/
inductive Fmt where
  | fp32 | bf16 | fp16 | e4m3 | e5m2 | mx8e4m3 | mx8e5m2 | mx6e2m3 | mx6e3m2 | mx4
  | int8 | uint8 | int4 | mxint8 | acc64 | acc96 | g16 | mom8s | mom8u | lo16
deriving DecidableEq, Repr

/-- The FMT codes of R32; the others are reserved (R33). -/
def Fmt.ofCode : Nat → Option Fmt
  | 0x00 => some .fp32 | 0x01 => some .bf16 | 0x02 => some .fp16 | 0x03 => some .e4m3 | 0x04 => some .e5m2
  | 0x05 => some .mx8e4m3 | 0x06 => some .mx8e5m2 | 0x07 => some .mx6e2m3 | 0x08 => some .mx6e3m2
  | 0x09 => some .mx4 | 0x0A => some .int8 | 0x0B => some .uint8 | 0x0C => some .int4 | 0x0D => some .mxint8
  | 0x10 => some .acc64 | 0x11 => some .acc96 | 0x12 => some .g16 | 0x13 => some .mom8s | 0x14 => some .mom8u
  | 0x15 => some .lo16
  | _ => none

/-- The code of a format. -/
def Fmt.code : Fmt → Nat
  | .fp32 => 0x00 | .bf16 => 0x01 | .fp16 => 0x02 | .e4m3 => 0x03 | .e5m2 => 0x04
  | .mx8e4m3 => 0x05 | .mx8e5m2 => 0x06 | .mx6e2m3 => 0x07 | .mx6e3m2 => 0x08
  | .mx4 => 0x09 | .int8 => 0x0A | .uint8 => 0x0B | .int4 => 0x0C | .mxint8 => 0x0D
  | .acc64 => 0x10 | .acc96 => 0x11 | .g16 => 0x12 | .mom8s => 0x13 | .mom8u => 0x14 | .lo16 => 0x15

/-- Bits of one element, its block's scale apart (R32). -/
def Fmt.elemBits : Fmt → Nat
  | .fp32 => 32 | .bf16 => 16 | .fp16 => 16 | .e4m3 => 8 | .e5m2 => 8 | .mx8e4m3 => 8 | .mx8e5m2 => 8
  | .mx6e2m3 => 6 | .mx6e3m2 => 6 | .mx4 => 4 | .int8 => 8 | .uint8 => 8 | .int4 => 4 | .mxint8 => 8
  | .acc64 => 64 | .acc96 => 96 | .g16 => 16 | .mom8s => 8 | .mom8u => 8 | .lo16 => 16

/-- Elements of one block; 1 where the format has no blocks (R32). -/
def Fmt.block : Fmt → Nat
  | .mx8e4m3 | .mx8e5m2 | .mx6e2m3 | .mx6e3m2 | .mx4 | .mxint8 | .mom8s | .mom8u => 32
  | .g16 => 64
  | _ => 1

/-- Whether the format is one of the six MX formats (R37). -/
def Fmt.isMx : Fmt → Bool
  | .mx8e4m3 | .mx8e5m2 | .mx6e2m3 | .mx6e3m2 | .mx4 | .mxint8 => true
  | _ => false

/-- Bytes of one block's scale (R38). -/
def Fmt.scaleBytes : Fmt → Nat
  | .mom8s | .mom8u => 2
  | .mx8e4m3 | .mx8e5m2 | .mx6e2m3 | .mx6e3m2 | .mx4 | .mxint8 | .g16 => 1
  | _ => 0

/-- Bytes of `n` packed elements, scales apart (R36, R38). -/
def Fmt.packed (f : Fmt) (n : Nat) : Nat := ceilDiv (n * f.elemBits) 8

/-- Elements of one group of 16 blocks (R38). -/
def Fmt.groupElems (f : Fmt) : Nat := 16 * f.block

/-- Bytes of one group (R38). -/
def Fmt.groupBytes (f : Fmt) : Nat := 16 * f.scaleBytes + f.packed f.groupElems

/-- Bytes of a dimension-0 row of `n` elements (R36, R38): whole groups for block formats. -/
def Fmt.rowBytes (f : Fmt) (n : Nat) : Nat :=
  if f.block = 1 then f.packed n else ceilDiv n f.groupElems * f.groupBytes

/-- The scale the GZ1 writes where a block lies past the row's count (R38, R103). -/
def Fmt.unusedScale : Fmt → Nat
  | .mom8s | .mom8u => 0x0080
  | .g16 => 0
  | _ => 0x7F

/-! ## Exact values -/

/-- An exact value: NaN, an infinity, or a signed fraction `n / d` with `d` positive. -/
inductive Num where
  | nan
  | inf (neg : Bool)
  | fin (neg : Bool) (n d : Nat)
deriving DecidableEq, Repr

def Num.zero : Num := .fin false 0 1

/-- Whether the value is a finite zero of either sign. -/
def Num.isZero : Num → Bool
  | .fin _ n _ => n == 0
  | _ => false

/-- Whether the value is finite. -/
def Num.isFinite : Num → Bool
  | .fin _ _ _ => true
  | _ => false

/-- The value of an integer. -/
def Num.ofInt (i : Int) : Num := .fin (decide (i < 0)) i.natAbs 1

/-- `x · 2 ^ e`. -/
def Num.scale2 : Num → Int → Num
  | .fin s n d, e => if 0 ≤ e then .fin s (n * 2 ^ e.toNat) d else .fin s n (d * 2 ^ (-e).toNat)
  | x, _ => x

/-- The integer `i` times `2 ^ e`. -/
def Num.dyadic (i : Int) (e : Int) : Num := (Num.ofInt i).scale2 e

def Num.neg : Num → Num
  | .nan => .nan
  | .inf s => .inf (!s)
  | .fin s n d => .fin (!s) n d

/-- The exact product; zero times an infinity is NaN (R81). -/
def Num.mul : Num → Num → Num
  | .nan, _ => .nan
  | _, .nan => .nan
  | .inf s, .inf t => .inf (s != t)
  | .inf s, .fin t n _ => if n = 0 then .nan else .inf (s != t)
  | .fin t n _, .inf s => if n = 0 then .nan else .inf (s != t)
  | .fin s n d, .fin t m e => .fin (s != t) (n * m) (d * e)

/-- The exact sum; opposite infinities give NaN, an exact zero sum is +0 unless both are -0. -/
def Num.add : Num → Num → Num
  | .nan, _ => .nan
  | _, .nan => .nan
  | .inf s, .inf t => if s = t then .inf s else .nan
  | .inf s, .fin _ _ _ => .inf s
  | .fin _ _ _, .inf s => .inf s
  | .fin s n d, .fin t m e =>
    let a := n * e
    let b := m * d
    if s = t then .fin s (a + b) (d * e)
    else if a = b then .fin false 0 1
    else if b < a then .fin s (a - b) (d * e)
    else .fin t (b - a) (d * e)

def Num.sub (x y : Num) : Num := x.add y.neg

/-- The exact quotient by IEEE 754. -/
def Num.div : Num → Num → Num
  | .nan, _ => .nan
  | _, .nan => .nan
  | .inf _, .inf _ => .nan
  | .inf s, .fin t _ _ => .inf (s != t)
  | .fin s _ _, .inf t => .fin (s != t) 0 1
  | .fin s n d, .fin t m e =>
    if m = 0 then (if n = 0 then .nan else .inf (s != t)) else .fin (s != t) (n * e) (d * m)

/-- Whether `x < y`, both not NaN; the two zeros are equal. -/
def Num.lt : Num → Num → Bool
  | .nan, _ => false
  | _, .nan => false
  | .inf true, .inf true => false
  | .inf true, _ => true
  | _, .inf true => false
  | .inf false, _ => false
  | _, .inf false => true
  | .fin s n d, .fin t m e =>
    let a : Int := (if s then -1 else 1) * ((n * e : Nat) : Int)
    let b : Int := (if t then -1 else 1) * ((m * d : Nat) : Int)
    decide (a < b)

/-- The magnitude. -/
def Num.abs : Num → Num
  | .nan => .nan
  | .inf _ => .inf false
  | .fin _ n d => .fin false n d

/-- `floor (log2 (n / d))` for a positive fraction. -/
def floorLog2 (n d : Nat) : Int :=
  let e : Int := (Nat.log2 n : Int) - (Nat.log2 d : Int)
  let ok : Bool := if 0 ≤ e then decide (d * 2 ^ e.toNat ≤ n) else decide (d ≤ n * 2 ^ (-e).toNat)
  if ok then e else e - 1

/-! ## The roundings of R45 -/

/-- A rounding mode (R45); `sr` carries the 16 bits that R48 draws. -/
inductive Rnd where
  | rne
  | rtz
  | sr (draw : Nat)
deriving DecidableEq, Repr

/-- The magnitude `n / d` rounded to an integer; `neg` is the sign of the value, which stochastic rounding
needs because its neighbours are ordered by value (R48). -/
def roundInt (r : Rnd) (neg : Bool) (n d : Nat) : Nat :=
  let k := n / d
  let m := n % d
  if m = 0 then k
  else match r with
    | .rtz => k
    | .rne => if d < 2 * m || (2 * m = d && k % 2 = 1) then k + 1 else k
    | .sr draw =>
      if neg then
        -- lo = -(k+1), hi = -k
        if draw < (d - m) * 65536 / d then k else k + 1
      else
        if draw < m * 65536 / d then k + 1 else k

/-- `(n / d) / 2 ^ u` as a fraction. -/
def fracShift (n d : Nat) (u : Int) : Nat × Nat :=
  if 0 ≤ u then (n, d * 2 ^ u.toNat) else (n * 2 ^ (-u).toNat, d)

/-- A floating-point element layout of R34. -/
structure FloatFmt where
  ebits : Nat
  mbits : Nat
  bias : Nat
  hasInf : Bool
  maxCode : Nat
  nanCode : Nat
deriving DecidableEq, Repr

/-- The layouts of R34; `nanCode` is 0 where the format has no NaN. -/
def Fmt.float : Fmt → Option FloatFmt
  | .fp32 => some ⟨8, 23, 127, true, 0x7F7FFFFF, 0x7FC00000⟩
  | .bf16 => some ⟨8, 7, 127, true, 0x7F7F, 0x7FC0⟩
  | .fp16 => some ⟨5, 10, 15, true, 0x7BFF, 0x7E00⟩
  | .e4m3 | .mx8e4m3 => some ⟨4, 3, 7, false, 0x7E, 0x7F⟩
  | .e5m2 | .mx8e5m2 => some ⟨5, 2, 15, true, 0x7B, 0x7E⟩
  | .mx6e2m3 => some ⟨2, 3, 1, false, 0x1F, 0⟩
  | .mx6e3m2 => some ⟨3, 2, 3, false, 0x1F, 0⟩
  | .mx4 => some ⟨2, 1, 1, false, 0x7, 0⟩
  | _ => none

def fp32Fmt : FloatFmt := ⟨8, 23, 127, true, 0x7F7FFFFF, 0x7FC00000⟩
def bf16Fmt : FloatFmt := ⟨8, 7, 127, true, 0x7F7F, 0x7FC0⟩

/-- Exponent of the smallest normal. -/
def FloatFmt.emin (f : FloatFmt) : Int := 1 - (f.bias : Int)

/-- The value of a code (R34, R35: subnormals honoured). -/
def FloatFmt.decode (f : FloatFmt) (code : Nat) : Num :=
  let m := code % 2 ^ f.mbits
  let e := (code >>> f.mbits) % 2 ^ f.ebits
  let s := bit code (f.ebits + f.mbits)
  if f.hasInf && e = 2 ^ f.ebits - 1 then (if m = 0 then .inf s else .nan)
  else if f.nanCode ≠ 0 && !f.hasInf && code % 2 ^ (f.ebits + f.mbits) = f.nanCode then .nan
  else if e = 0 then (Num.fin s m 1).scale2 (f.emin - f.mbits)
  else (Num.fin s (2 ^ f.mbits + m) 1).scale2 ((e : Int) - f.bias - f.mbits)

/-- The magnitude code of a positive fraction rounded with an unbounded exponent. -/
def FloatFmt.roundMag (f : FloatFmt) (r : Rnd) (neg : Bool) (n d : Nat) : Nat :=
  if n = 0 then 0
  else
    let e := max (floorLog2 n d) f.emin
    let p := fracShift n d (e - f.mbits)
    ((e - f.emin).toNat * 2 ^ f.mbits) + roundInt r neg p.1 p.2

/-- The sign bit. -/
def FloatFmt.signBit (f : FloatFmt) (neg : Bool) : Nat := if neg then 2 ^ (f.ebits + f.mbits) else 0

/-- The infinity code, or the largest finite where the format has none (R45). -/
def FloatFmt.infCode (f : FloatFmt) : Nat := if f.hasInf then (2 ^ f.ebits - 1) * 2 ^ f.mbits else f.maxCode

/-- Conversion with one rounding (R45, R54). -/
def FloatFmt.encode (f : FloatFmt) (r : Rnd) (sat : Bool) : Num → Nat
  | .nan => f.nanCode
  | .inf s => f.signBit s + f.infCode
  | .fin s n d =>
    let c := f.roundMag r s n d
    f.signBit s + (if c ≤ f.maxCode then c else if sat then f.maxCode else f.infCode)

/-- The FP32 value of a code. -/
def fp32 (x : Nat) : Num := fp32Fmt.decode x

/-- The FP32 code of an exact value by RNE. -/
def toFp32 (x : Num) : Nat := fp32Fmt.encode .rne false x

/-! ## FP32 arithmetic, each operation correctly rounded by RNE (R60) -/

def fadd32 (x y : Nat) : Nat := toFp32 ((fp32 x).add (fp32 y))
def fsub32 (x y : Nat) : Nat := toFp32 ((fp32 x).sub (fp32 y))
def fmul32 (x y : Nat) : Nat := toFp32 ((fp32 x).mul (fp32 y))
def fdiv32 (x y : Nat) : Nat := toFp32 ((fp32 x).div (fp32 y))
def ffma32 (x y z : Nat) : Nat := toFp32 (((fp32 x).mul (fp32 y)).add (fp32 z))

/-- Integer square root by bisection on the bits from `b` down. -/
def isqrtBits (n : Nat) : Nat → Nat → Nat
  | 0, r => r
  | b + 1, r =>
    let t := r + 2 ^ b
    isqrtBits n b (if t * t ≤ n then t else r)

/-- `floor (sqrt n)`. -/
def isqrt (n : Nat) : Nat := isqrtBits n (Nat.log2 n / 2 + 1) 0

/-- The FP32 square root by RNE: the root of the fraction to 64 bits below the unit, with a sticky bit, which
no rounding boundary can fall between. -/
def fsqrt32 (x : Nat) : Nat :=
  match fp32 x with
  | .nan => 0x7FC00000
  | .inf false => 0x7F800000
  | .inf true => 0x7FC00000
  | .fin s n d =>
    if n = 0 then fp32Fmt.signBit s
    else if s then 0x7FC00000
    else
      let w := n * d * 2 ^ 512
      let q := isqrt w
      let sticky := if q * q = w then 0 else 1
      toFp32 (.fin false (2 * q + sticky) (2 * d * 2 ^ 256))

/-- The larger of two by R233 and R437: NaN is canonical, -0 lies below +0. -/
def fmaxCode (f : FloatFmt) (x y : Nat) : Nat :=
  match f.decode x, f.decode y with
  | .nan, _ => f.nanCode
  | _, .nan => f.nanCode
  | a, b =>
    if a.lt b then y else if b.lt a then x
    else if bit x (f.ebits + f.mbits) then y else x

/-- The smaller of two by R233 and R437. -/
def fminCode (f : FloatFmt) (x y : Nat) : Nat :=
  match f.decode x, f.decode y with
  | .nan, _ => f.nanCode
  | _, .nan => f.nanCode
  | a, b =>
    if a.lt b then x else if b.lt a then y
    else if bit x (f.ebits + f.mbits) then x else y

/-! ## The stochastic-rounding generator (R48) -/

/-- One of the ten rounds; the counter and key are 32-bit words. -/
def philoxRound (c : Nat × Nat × Nat × Nat) (k : Nat × Nat) : Nat × Nat × Nat × Nat :=
  let (c0, c1, c2, c3) := c
  let p0 := 0xD2511F53 * c0
  let p1 := 0xCD9E8D57 * c2
  ((p1 >>> 32) ^^^ c1 ^^^ k.1, p1 % 2 ^ 32, (p0 >>> 32) ^^^ c3 ^^^ k.2, p0 % 2 ^ 32)

/-- `n` rounds, the key advanced after each. -/
def philox : Nat → Nat × Nat × Nat × Nat → Nat × Nat → Nat × Nat × Nat × Nat
  | 0, c, _ => c
  | n + 1, c, k =>
    philox n (philoxRound c k) ((k.1 + 0x9E3779B9) % 2 ^ 32, (k.2 + 0xBB67AE85) % 2 ^ 32)

/-- The 16 bits of one rounding: seed, element index, tensor ID and generation, nothing else (R48). -/
def srBits (seed index tensor gen : Nat) : Nat :=
  (philox 10 (bits index 31 0, bits index 63 32, tensor % 2 ^ 32, gen % 2 ^ 32)
    (bits seed 31 0, bits seed 63 32)).1 >>> 16

/-- Where a rounding takes its random bits: everything R48 uses but the element index. -/
structure SrKey where
  seed : Nat
  tensor : Nat
  gen : Nat
deriving DecidableEq, Repr

/-- The rounding mode of an RND code at an element index; code 3 is reserved and refused before (R45). -/
def rndOf (code : Nat) (k : SrKey) (index : Nat) : Rnd :=
  if code = 0 then .rne else if code = 1 then .rtz else .sr (srBits k.seed index k.tensor k.gen)

/-! ## Elements and blocks -/

/-- Integer conversion (R45, R46): the saturated value, and whether a NaN was converted. -/
def toIntRange (r : Rnd) (lo hi : Int) : Num → Int × Bool
  | .nan => (0, true)
  | .inf s => (if s then lo else hi, false)
  | .fin s n d =>
    let k : Int := (roundInt r s n d : Nat)
    let v := if s then -k else k
    (max lo (min hi v), false)

/-- The value of one element under its block's scale, and whether the read counts a format error (R37, R41, R42).
LO16 reads as its 16 bits; ACC64 and ACC96 are read by `accValue`. -/
def elemValue (f : Fmt) (scale raw : Nat) : Num × Bool :=
  match f with
  | .int8 => (.ofInt (sext 8 raw), false)
  | .uint8 => (.ofInt ((raw % 256 : Nat) : Int), false)
  | .int4 => (.ofInt (sext 4 raw), false)
  | .lo16 => (.ofInt ((raw % 65536 : Nat) : Int), false)
  | .mxint8 => if scale = 0xFF then (.nan, false) else (.dyadic (sext 8 raw) ((scale : Int) - 127 - 6), false)
  | .g16 =>
    let q := sext 16 raw
    let bad := decide (q = -32768)
    if scale = 0xFF then (.nan, false)
    else (.dyadic (if bad then -32767 else q) ((scale : Int) - 142), bad)
  | .mom8s =>
    let q := sext 8 raw
    let bad := decide (q = -128)
    let s := bf16Fmt.decode scale
    if s.isZero || !s.isFinite || bit scale 15 then (.nan, false)
    else ((Num.ofInt (if bad then -127 else q)).mul (s.div (.ofInt 127)), bad)
  | .mom8u =>
    let s := bf16Fmt.decode scale
    let u : Num := .ofInt ((raw % 256 : Nat) : Int)
    if s.isZero || !s.isFinite || bit scale 15 then (.nan, false)
    else ((u.mul u).mul (s.div (.ofInt 65025)), false)
  | .mx8e4m3 | .mx8e5m2 | .mx6e2m3 | .mx6e3m2 | .mx4 =>
    match f.float with
    | some ff => if scale = 0xFF then (.nan, false) else ((ff.decode raw).scale2 ((scale : Int) - 127), false)
    | none => (.nan, false)
  | .acc64 | .acc96 => (.nan, false)
  | _ =>
    match f.float with
    | some ff => (ff.decode raw, false)
    | none => (.nan, false)

/-- The non-finite pattern of an accumulator word of `w` bits (R44). -/
def accPattern (w : Nat) : Nat := 2 ^ (w - 1)

/-- The value of a stored ACC64 or ACC96 word at exposure `e` (R44). -/
def accValue (w : Nat) (e : Int) (raw : Nat) : Num :=
  if raw % 2 ^ w = accPattern w then .nan else .dyadic (sext w raw) (e - 62)

/-- The raw bits of element `i` of a packed element area (R36). -/
def elemRaw (f : Fmt) (bs : List Byte) (i : Nat) : Nat :=
  let w := f.elemBits
  if w % 8 = 0 then leAt bs (i * (w / 8)) (w / 8)
  else if w = 4 then bits (leAt bs (i / 2) 1) (4 * (i % 2) + 3) (4 * (i % 2))
  else bits (leAt bs (3 * (i / 4)) 3) (6 * (i % 4) + 5) (6 * (i % 4))

/-- Packs raw elements (R36), the last byte zero-filled. -/
def packRaw (f : Fmt) (xs : List Nat) : List Byte :=
  let w := f.elemBits
  let v := (xs.foldr (fun x acc => (x % 2 ^ w) + 2 ^ w * acc) 0)
  leBytes (f.packed xs.length) v

/-- What a conversion takes: an exact value, or the overflow result of R78 with its sign. -/
inductive Src where
  | num (v : Num)
  | ovf (neg : Bool)
deriving DecidableEq, Repr

def Src.isOvf : Src → Bool
  | .ovf _ => true
  | .num _ => false

/-- The magnitude a source gives its block's scale; an overflow result takes part through the fixed scale instead. -/
def Src.mag : Src → Num
  | .num v => v.abs
  | .ovf _ => .zero

/-- The largest finite magnitude of a list of magnitudes. -/
def amax (xs : List Num) : Num := xs.foldl (fun a x => if a.lt x then x else a) .zero

/-- The largest finite element of an MX format (MAXE of R40) and its exponent EMAX. -/
def maxe (f : Fmt) : Num × Int :=
  match f with
  | .mxint8 => (.dyadic 127 (-6), 0)
  | .mx8e4m3 => (.ofInt 448, 8)
  | .mx8e5m2 => (.ofInt 57344, 15)
  | .mx6e2m3 => (.dyadic 15 (-1), 2)
  | .mx6e3m2 => (.ofInt 28, 4)
  | _ => (.ofInt 6, 2)

/-- The scale of an MX block by R40, for a finite block whose largest magnitude is `a`. -/
def mxScale (f : Fmt) (rule1 : Bool) (a : Num) : Nat :=
  match a with
  | .fin _ n d =>
    if n = 0 then 0
    else
      let (m, em) := maxe f
      let e := floorLog2 n d - em
      let e := if rule1 then e else if (m.scale2 e).lt a then e + 1 else e
      (max 0 (min 0xFE (e + 127))).toNat
  | _ => 0xFF

/-- The scale of a G16 block by R41: the smallest that holds `a`, 0xFF where none does. -/
def g16Scale (a : Num) : Nat :=
  match a with
  | .fin _ n d =>
    if n = 0 then 0
    else
      let e := floorLog2 n d - 14
      let e := if (Num.dyadic 32767 e).lt a then e + 1 else e
      let x := max 0 (e + 142)
      if 0xFE < x then 0xFF else x.toNat
  | _ => 0xFF

/-- The BF16 scale of a moment block by R42. -/
def momScale (a : Num) : Nat :=
  match a with
  | .fin _ n d =>
    if n = 0 then 0x0080
    else
      let c := bf16Fmt.roundMag .rtz false n d
      let c := if (bf16Fmt.decode c).lt a then c + 1 else c
      if 0x7F7F < c then 0x7F7F else c
  | _ => 0x7FC0

/-- The result of writing one block: its scale, its raw elements, and the two counts of R89. -/
structure EncBlock where
  scale : Nat
  elems : List Nat
  formatErrors : Nat
  nanConversions : Nat
deriving DecidableEq, Repr

/-- One MX element at scale `x`, rounded once; under rule 1 a magnitude above MAXE saturates to it (R40), under rule 0 one that
the largest scale still leaves too large overflows by R45. An overflow result is ±MAXE (R78). -/
def mxElem (f : Fmt) (rule1 sat : Bool) (x : Nat) (r : Rnd) : Src → Nat
  | .ovf s =>
    match f.float with
    | some ff => ff.signBit s + ff.maxCode
    | none => twos 8 (if s then -127 else 127)
  | .num v =>
    let w := v.scale2 (127 - (x : Int))
    match f.float with
    | some ff => ff.encode r (rule1 || sat) w
    | none => twos 8 (toIntRange r (if rule1 then -127 else -128) 127 (w.scale2 6)).1

/-- Re-quantisation of one moment by the fixed FP32 sequence of R58, rounded by SR; the second result says
whether the element saturated or was negative in MOM8U (R42). -/
def momElem (f : Fmt) (s : Nat) (draw : Nat) : Src → Nat × Bool
  | .ovf neg => if f = .mom8u then (if neg then (0, true) else (255, false)) else (twos 8 (if neg then -127 else 127), false)
  | .num v =>
    let x := toFp32 v
    let sc := s * 65536
    let above := (bf16Fmt.decode s).lt (fp32 x).abs
    let r := fdiv32 x sc
    if f = .mom8s then
      if above then (twos 8 (if bit x 31 then -127 else 127), true)
      else
        let t := fmul32 0x42FE0000 r
        (twos 8 (toIntRange (.sr draw) (-127) 127 (fp32 t)).1, false)
    else if bit x 31 then (0, !(fp32 x).isZero)
    else if above then (255, true)
    else
      let t := fmul32 0x437F0000 (fsqrt32 r)
      ((toIntRange (.sr draw) 0 255 (fp32 t)).1.toNat, false)

/-- Writes one block (R38, R40, R41, R42, R78). `draw i` is the rounding mode of element `i`; moments always
use SR, so their caller passes SR modes. -/
def encodeBlock (f : Fmt) (rule1 sat : Bool) (mode : Nat → Rnd) (xs : List Src) : EncBlock :=
  let bad := xs.any (fun x => match x with | .num .nan => true | .num (.inf _) => true | _ => false)
  let ovf := xs.any Src.isOvf
  let a := amax (xs.map (fun x => match x with
    | .num v => if f = .mom8s || f = .mom8u then (fp32 (toFp32 v)).abs else v.abs
    | .ovf _ => Num.zero))
  let idx := List.range xs.length
  if bad || (f = .g16 && !ovf && g16Scale a = 0xFF) || (!a.isFinite) then
    { scale := if f = .mom8s || f = .mom8u then 0x7FC0 else 0xFF
      elems := idx.map (fun i => Config.nonFiniteElement f.code i % 2 ^ f.elemBits)
      formatErrors := 0, nanConversions := 0 }
  else if f = .mom8s || f = .mom8u then
    let s := if ovf then 0x7F7F else momScale a
    let rs := (idx.zip xs).map (fun p => momElem f s (match mode p.1 with | .sr d => d | _ => 0) p.2)
    { scale := s, elems := rs.map Prod.fst
      formatErrors := (rs.filter (fun p => p.2)).length, nanConversions := 0 }
  else if f = .g16 then
    let s := if ovf then 0xFE else g16Scale a
    { scale := s
      elems := (idx.zip xs).map (fun p => match p.2 with
        | .ovf neg => twos 16 (if neg then -32767 else 32767)
        | .num v => twos 16 (toIntRange (mode p.1) (-32767) 32767 (v.scale2 (142 - (s : Int)))).1)
      formatErrors := 0, nanConversions := 0 }
  else
    let s := if ovf then 0xFE else mxScale f rule1 a
    { scale := s, elems := (idx.zip xs).map (fun p => mxElem f rule1 sat s (mode p.1) p.2)
      formatErrors := 0, nanConversions := 0 }

/-- Writes one element of a format without blocks (R45, R46, R78): raw bits and whether a NaN was converted.
ACC64 and ACC96 are written by `accEncode`. -/
def encodeElem (f : Fmt) (r : Rnd) (sat : Bool) : Src → Nat × Bool
  | .ovf s =>
    match f with
    | .int8 => (twos 8 (if s then -128 else 127), false)
    | .uint8 => (if s then 0 else 255, false)
    | .int4 => (twos 4 (if s then -8 else 7), false)
    | _ => match f.float with
      | some ff => (ff.signBit s + ff.infCode, false)
      | none => (0, false)
  | .num v =>
    match f with
    | .int8 => let p := toIntRange r (-128) 127 v; (twos 8 p.1, p.2)
    | .uint8 => let p := toIntRange r 0 255 v; (p.1.toNat, p.2)
    | .int4 => let p := toIntRange r (-8) 7 v; (twos 4 p.1, p.2)
    | .lo16 => (toFp32 v % 65536, false)
    | _ => match f.float with
      | some ff => (ff.encode r sat v, false)
      | none => (0, false)

/-! ## The accumulator window (R52) -/

/-- A finite value as a multiple of `2 ^ (e - 62)`: exact, or rounded once by RNE (R52). -/
def toWindow (e : Int) : Num → Int
  | .fin s n d =>
    let p := fracShift n d (e - 62)
    let k : Int := (roundInt .rne s p.1 p.2 : Nat)
    if s then -k else k
  | _ => 0

/-- The value of a window sum. -/
def ofWindow (e : Int) (i : Int) : Num := .dyadic i (e - 62)

end Sys2Proof.Machine
end

