-- ==== Sys2Proof/Machine/Flags.lean ====
section
/-! DEFINITION. Side states and tags of accumulator entries (R53, R72), and how values merge into them. -/
namespace Sys2Proof.Machine

/-- R53: NaN absorbs, opposite infinities give NaN. -/
def Side.merge : Side → Side → Side
  | .finite, y => y
  | x, .finite => x
  | .posInf, .posInf => .posInf
  | .negInf, .negInf => .negInf
  | _, _ => .nan

/-- The side state that a product or operand contributes. -/
def Side.ofNum : Num → Side
  | .nan => .nan
  | .inf false => .posInf
  | .inf true => .negInf
  | .fin _ _ _ => .finite

/-- The 2-bit code of a side state (R86, R214). -/
def Side.code : Side → Nat
  | .finite => 0 | .posInf => 1 | .negInf => 2 | .nan => 3

def Side.ofCode : Nat → Side
  | 1 => .posInf | 2 => .negInf | 3 => .nan | _ => .finite

/-- The value a non-finite side state puts in place of the window value (R53). -/
def Side.onto (s : Side) (v : Num) : Num :=
  match s with
  | .finite => v
  | .posInf => .inf false
  | .negInf => .inf true
  | .nan => .nan

/-- Whether an ACC64 window sum overflows: its magnitude reaches 2^63 LSBs (R52, R77). -/
def overflow64 (v : Int) : Bool := decide (2 ^ 63 ≤ v.natAbs)

/-- Whether an ACC96 sum overflows (R52, R77). -/
def overflow96 (v : Int) : Bool := decide (2 ^ 95 ≤ v.natAbs)

/-- A raw ACC96 word: its value, or NaN for the non-finite pattern (R44). -/
def acc96Of (raw : Nat) : Int × Side :=
  if raw % 2 ^ 96 = accPattern 96 then (0, .nan) else (sext 96 raw, .finite)

/-- The raw word of `w` bits for a value and its side state (R44). -/
def accRaw (w : Nat) (v : Int) (s : Side) : Nat := if s = .finite then twos w v else accPattern w

end Sys2Proof.Machine
end

