-- ==== Sys2Proof/Machine/SMap.lean ====
section
/-! DEFINITION. The operations of the sparse map that every indexed piece of state uses. -/
namespace Sys2Proof.Machine

/-- The value at index `k`; `d` where nothing is listed. -/
def mget {α : Type} (d : α) : SMap α → Nat → α
  | [], _ => d
  | (j, v) :: m, k => if j = k then v else mget d m k

/-- Removes index `k`. -/
def mdel {α : Type} : SMap α → Nat → SMap α
  | [], _ => []
  | (j, v) :: m, k => if j = k then mdel m k else (j, v) :: mdel m k

/-- Inserts or replaces the value at index `k`, keeping the indices rising. -/
def mput {α : Type} : SMap α → Nat → α → SMap α
  | [], k, x => [(k, x)]
  | (j, v) :: m, k, x =>
    if j = k then (k, x) :: m
    else if k < j then (k, x) :: (j, v) :: m
    else (j, v) :: mput m k x

/-- Writes index `k`: the default is stored as no entry. -/
def mset {α : Type} [DecidableEq α] (d : α) (m : SMap α) (k : Nat) (x : α) : SMap α :=
  if x = d then mdel m k else mput m k x

/-- Changes the value at index `k` by `f`. -/
def mmod {α : Type} [DecidableEq α] (d : α) (m : SMap α) (k : Nat) (f : α → α) : SMap α :=
  mset d m k (f (mget d m k))

/-- The canonical form: every index of `m` is above `lo` (when given), indices rise, no value is the default. -/
def mwfFrom {α : Type} [DecidableEq α] (d : α) : Option Nat → SMap α → Bool
  | _, [] => true
  | lo, (k, v) :: m =>
    (match lo with | none => true | some j => decide (j < k)) && decide (v ≠ d) && mwfFrom d (some k) m

/-- The canonical form of a map. -/
def mwf {α : Type} [DecidableEq α] (d : α) (m : SMap α) : Bool := mwfFrom d none m

end Sys2Proof.Machine
end

