-- ==== Sys2Proof/Machine/Ops.lean ====
section
/-! DEFINITION. The operations that every unit shares: counters, host memory, MSI-X, event records and rings. -/
namespace Sys2Proof.Machine

/-- What a command's effect may read beside the block: the time, TSTATE, and CUR_GEN of each partition. -/
structure Env where
  clk : Clock
  tstate : Nat
  cur : SMap Nat
deriving DecidableEq, Repr

/-- The campus millisecond that rate limits count in. -/
def Env.ms (e : Env) : Nat := e.clk.now / 1000

/-- The TIME of a record (R328): campus time; in TSTATE 0 and 1 the local count, which is the same count (R184). -/
def Env.stamp (e : Env) : Nat := e.clk.now

/-- CUR_GEN of a partition. -/
def Env.curGen (e : Env) (p : Nat) : Nat := mget 0 e.cur p

/-- The canonical form of device memory, and of host memory: addresses strictly rising, no entry 0, which is what an unlisted
address reads. -/
def Memory.wf (m : Memory) : Bool := mwf 0 m.bytes
def Block.hostWf (b : Block) : Bool := mwf 0 b.host

/-- Adds `n` to counter `k` of a map of 48-bit saturating counters. -/
def bump (m : SMap Nat) (k n : Nat) : SMap Nat := mmod 0 m k (fun v => sat48 v n)

def Block.emit (b : Block) (o : Out) : Block := { b with out := b.out ++ [o] }

/-! ## Host memory (R302: addresses untranslated) -/

/-- Reads `n` bytes of host memory. -/
def hostRead (m : SMap Byte) : Nat → Nat → List Byte
  | _, 0 => []
  | a, n + 1 => mget 0 m a :: hostRead m (a + 1) n

/-- Writes bytes to host memory. -/
def hostWrite (m : SMap Byte) : Nat → List Byte → SMap Byte
  | _, [] => m
  | a, x :: xs => hostWrite (mset 0 m a x) (a + 1) xs

def Block.writeHost (b : Block) (a : Nat) (bs : List Byte) : Block := { b with host := hostWrite b.host a bs }

/-- A request to the host through port A, or through port B with `portB`: counted in FE_PORT_FAILOVER when that link is down
and the other one is up (R299). -/
def Block.viaPort (b : Block) (portB : Bool) : Block :=
  let own := if portB then b.fe.linkUpB else b.fe.linkUpA
  let other := if portB then b.fe.linkUpA else b.fe.linkUpB
  if !own && other then { b with fe := { b.fe with counters := bump b.fe.counters 0x838 1 } } else b

/-! ## MSI-X -/

/-- The index of a function's vector. -/
def msixKey (func vec : Nat) : Nat := func * 128 + vec

/-- A function fires a vector: a masked vector stays pending in the PBA. -/
def Block.fireMsix (b : Block) (func vec : Nat) : Block :=
  let v := mget {} b.evt.msix (msixKey func vec)
  if v.masked then
    { b with evt := { b.evt with msix := mset {} b.evt.msix (msixKey func vec) { v with pending := true } } }
  else (b.viaPort false).emit (.msix func vec v.addr v.data)

/-- The function a partition's records and interrupts belong to (R300, R329). -/
def funcOf (part : Nat) : Nat := if part = 15 then 0 else part + 1

/-! ## Event rings (R328 to R330) -/

/-- Records of a ring. -/
def Ring.cap (r : Ring) : Nat := 64 * 2 ^ r.size

/-- The 64 bytes of a record, PHASE apart. -/
def Event.bytes (ev : Event) (time seq : Nat) : List Byte :=
  let head := leBytes 1 1 ++ leBytes 1 0 ++ leBytes 1 ev.cls ++ leBytes 1 ev.sev ++ leBytes 2 ev.code
    ++ leBytes 1 ev.part ++ leBytes 1 ev.source ++ leBytes 8 time ++ leBytes 8 seq ++ zeros 40
  ev.payload.foldl (fun bs p => overlay bs p.1 (leBytes p.2.1 p.2.2)) head

/-- Writes one record into a ring that has space (R330): one 64 B write, PROD counted, PHASE inverted on the wrap. -/
def Block.putRecord (b : Block) (k : Nat) (bs : List Byte) : Block :=
  let r := mget {} b.evt.rings k
  let bytes := overlay bs 0 (leBytes 1 (1 + (if r.phase then 0x80 else 0)))
  let last := r.prod % r.cap + 1 = r.cap
  let r' := { r with prod := (r.prod + 1) % 2 ^ 32, phase := if last then !r.phase else r.phase }
  let b : Block := { b with evt := { b.evt with rings := mset {} b.evt.rings k r' } }
  (b.viaPort false).writeHost (r.base + 64 * (r.prod % r.cap)) bytes

/-- The ring's interrupt (R330): at once for severity 2 and 3, otherwise at most once per MOD µs. -/
def Block.ringIrq (b : Block) (e : Env) (k sev : Nat) : Block :=
  let r := mget {} b.evt.rings k
  if 2 ≤ sev || r.fireAt ≤ e.clk.now then
    ({ b with evt := { b.evt with
      rings := mset {} b.evt.rings k { r with fireAt := e.clk.now + r.mod, firePending := false } } }).fireMsix (k / 4) r.vector
  else { b with evt := { b.evt with rings := mset {} b.evt.rings k { r with firePending := true } } }

/-- Offers a record to a ring (R330): dropped and counted when the ring is full. -/
def Block.toRing (b : Block) (e : Env) (bs : List Byte) (sev seq k : Nat) : Block :=
  let r := mget {} b.evt.rings k
  if (r.prod + 2 ^ 32 - r.cons) % 2 ^ 32 = r.cap then
    let r' := { r with
      dropped := sat48 r.dropped 1, gapCount := r.gapCount + 1
      gapFirst := if r.gapCount = 0 then seq else r.gapFirst, gapLast := seq
      gapTime := if r.gapCount = 0 then e.clk.now else r.gapTime }
    { b with evt := { b.evt with rings := mset {} b.evt.rings k r' } }
  else (b.putRecord k bs).ringIrq e k sev

/-- Whether a ring takes a record (R329). -/
def Ring.takes (r : Ring) (own : Bool) (cls sev : Nat) (pf0 : Bool) : Bool :=
  r.enable && bit r.mask cls && decide (r.minsev ≤ sev) && (own || (pf0 && r.mirror))

/-- Whether some PF0 ring is enabled. -/
def EventUnit.pf0Enabled (u : EventUnit) : Bool :=
  (List.range 4).any (fun k => (mget {} u.rings k).enable)

/-- Writes an event record (R328, R329): stamped, numbered, into every ring that takes it, and into the boot log
while no PF0 ring is enabled (R339). -/
def Block.postRaw (b : Block) (e : Env) (ev : Event) : Block :=
  let seq := b.evt.seq
  let bs := ev.bytes e.stamp seq
  let own := funcOf ev.part
  let takers := (List.range 36).filter (fun k =>
    (mget {} b.evt.rings k).takes (k / 4 = own) ev.cls ev.sev (decide (k < 4)))
  let log := !b.evt.pf0Enabled
  let heldNow := log && decide (b.evt.bootLog.length < 64)
  let evt' := { b.evt with
    seq := (seq + 1) % 2 ^ 64
    bootLog := if heldNow then b.evt.bootLog ++ [bs] else b.evt.bootLog
    bootLost := if log && !heldNow then b.evt.bootLost + 1 else b.evt.bootLost
    bootFirst := if log && !heldNow && b.evt.bootLost = 0 then seq else b.evt.bootFirst
    bootLast := if log && !heldNow then seq else b.evt.bootLast
    bootTime := if log && !heldNow && b.evt.bootLost = 0 then e.clk.now else b.evt.bootTime
    unrouted := if takers.isEmpty && !heldNow then sat48 b.evt.unrouted 1 else b.evt.unrouted }
  takers.foldl (fun b k => b.toRing e bs ev.sev seq k) { b with evt := evt' }

/-! ## Trace (R409) -/

def Block.setTrace (b : Block) (t : TraceUnit) : Block := { b with obs := { b.obs with trace := t } }

/-- Ends a capture: TRACE_STOPPED with its cause, 0 full or 1 stop trigger (R411). -/
def Block.traceStop (b : Block) (e : Env) (why : Nat) : Block :=
  (b.setTrace { b.obs.trace with on := false }).postRaw e
    { cls := 0, sev := 0, code := 0x105, part := 15, source := 0x1F, payload := [(25, 1, why)] }

/-- Captures one record of an enabled source; a full buffer without WRAP stops the trace. -/
def Block.traceRec (b : Block) (e : Env) (src idx payload : Nat) : Block :=
  let t := b.obs.trace
  if !(t.en && t.on && bit t.src src) then b
  else
    let bs := leBytes 8 ((e.clk.now % 2 ^ 48) * 65536 + e.clk.frac % 65536) ++ leBytes 1 src ++ leBytes 1 idx ++ leBytes 6 payload
    let b := b.setTrace { t with records := mset [] t.records t.wp bs, wp := (t.wp + 1) % 65536 }
    if !t.wrap && t.wp = 65535 then b.traceStop e 0 else b

/-- The start and stop triggers that an event of class `cls` and code `code` pulls, and its own record (source 5). -/
def Block.traceEvent (b : Block) (e : Env) (ev : Event) : Block :=
  let t := b.obs.trace
  let hit := decide (t.cls = ev.cls) && decide (t.code = ev.code)
  let b := if t.en && t.startEn && !t.on && hit then b.setTrace { t with on := true } else b
  let b := b.traceRec e 5 ev.cls (ev.code + 2 ^ 16 * ev.sev + 2 ^ 24 * ev.source)
  if b.obs.trace.on && t.stopEn && hit then b.traceStop e 1 else b

/-- Writes an event record and lets the trace see it. -/
def Block.post (b : Block) (e : Env) (ev : Event) : Block := (b.postRaw e ev).traceEvent e ev

/-- Writes a GAP record into a ring that dropped records and has space again (R330, R333). -/
def Block.gapRecord (b : Block) (e : Env) (k : Nat) : Block :=
  let r := mget {} b.evt.rings k
  if r.gapCount = 0 || (r.prod + 2 ^ 32 - r.cons) % 2 ^ 32 = r.cap then b
  else
    let part := if k < 4 then 15 else k / 4 - 1
    let seq := b.evt.seq
    let ev : Event := { cls := 9, sev := 1, code := 1, part := part, source := 0x18
                        payload := [(24, 8, r.gapCount), (32, 8, r.gapFirst), (40, 8, r.gapLast), (48, 8, r.gapTime)] }
    let b := { b with evt := { b.evt with
      seq := (seq + 1) % 2 ^ 64, rings := mset {} b.evt.rings k { r with gapCount := 0 } } }
    (b.putRecord k (ev.bytes e.stamp seq)).ringIrq e k 1

/-- A record limited to one per campus millisecond per key; `lim` counts the suppressed ones. -/
def limited (last : SMap Nat) (e : Env) (key : Nat) : Bool := mget 0 last key = e.ms + 1

end Sys2Proof.Machine
end

