-- ==== Sys2Proof/Machine/Mem.lean ====
section
/-! DEFINITION. One coherent memory: address decode (R206 to R210), generational redirection (R158), guard windows
(R325), poison (R215, R377, R380), exact regions (R234 to R236) and the reductions of R233. -/
namespace Sys2Proof.Machine

/-- Who makes an access: requester ID (R239), the partition it acts for, whether it is one of the device's own engines
working in the reserved windows (R208), whether it acts for the job of its partition and with which GCLASS (R158), and
the generation it is bound to (R30). -/
structure Req where
  id : Nat
  part : Nat
  own : Bool := false
  job : Bool := false
  gclass : Nat := 0
  bound : Option Nat := none
deriving DecidableEq, Repr

/-! ## Partitions (R303) -/

/-- Whether partition `i` holds plate `p`. -/
def Block.holdsPlate (b : Block) (i p : Nat) : Bool :=
  let r := mget {} b.fe.parts i
  r.valid && decide (r.first ≤ p) && decide (p < r.first + 2 ^ r.size)

/-- The partition that holds plate `p`; 0xF where none does. -/
def Block.partOfPlate (b : Block) (p : Nat) : Nat :=
  ((List.range 8).find? (fun i => b.holdsPlate i p)).getD 15

/-- The generation unit of a partition. -/
def Block.gen (b : Block) (p : Nat) : GenUnit := mget {} b.gens p

def Block.setGen (b : Block) (p : Nat) (g : GenUnit) : Block := { b with gens := mset {} b.gens p g }

/-- Whether a partition holds a job (GEN_STATUS STATE 1-5). -/
def Block.holdsJob (b : Block) (p : Nat) : Bool :=
  let s := (b.gen p).regs.state
  decide (1 ≤ s) && decide (s ≤ 5)

/-! ## Address decode -/

/-- `mix` of R209, modulo 2^64. -/
def mix (key x y : Nat) : Nat :=
  let z := key ^^^ (((x % 2 ^ 32) <<< 32) ||| (y % 2 ^ 32))
  let z := ((z ^^^ (z >>> 31)) * 0xBF58476D1CE4E5B9) % 2 ^ 64
  let z := ((z ^^^ (z >>> 27)) * 0x94D049BB133111EB) % 2 ^ 64
  (z ^^^ (z >>> 31)) % 2 ^ 32

def Block.stack (b : Block) (s : Nat) : Stack := mget {} b.mem.hbm s

def Block.setStack (b : Block) (s : Nat) (x : Stack) : Block :=
  { b with mem := { b.mem with hbm := mset {} b.mem.hbm s x } }

/-- The in-service channels of a list of stacks, in ascending stack and channel order (SLOT of R209). -/
def Block.slots (b : Block) (ss : List Nat) : List Nat :=
  ss.flatMap (fun s => ((List.range 32).filter (fun c => bit (b.stack s).insvc c)).map (fun c => 32 * s + c))

def allStacks : List Nat := List.range 16
def plateStacks (p : Nat) : List Nat := [2 * p, 2 * p + 1]

/-- Usable chunks of a channel (R206). -/
def Block.usable (b : Block) : Nat := 786432 - b.mem.rsv

/-- A range of R207 or a window of R208: its number, base, channels, ROWBASE and length in bytes. -/
structure Range where
  id : Nat
  base : Nat
  slots : List Nat
  rowBase : Nat
  len : Nat
deriving DecidableEq, Repr

/-- The base of the reserved windows. -/
def windowBase : Nat := 0xC000000000

/-- The range or window that holds address `a`; none in a hole or above the windows. -/
def Block.rangeOf (b : Block) (a : Nat) : Option Range :=
  if windowBase ≤ a then
    let p := (a - windowBase) / 0x40000000
    let ss := b.slots (plateStacks p)
    if p < 8 && (a - windowBase) % 0x40000000 < 0x3E000000 && !ss.isEmpty then
      some ⟨9 + p, windowBase + p * 0x40000000, ss, b.usable, 0x3E000000⟩
    else none
  else if b.mem.affine then
    let p := a / 0x1800000000
    let ss := b.slots (plateStacks p)
    let len := ss.length * b.usable * 2048
    if p < 8 && a % 0x1800000000 < len then some ⟨1 + p, p * 0x1800000000, ss, 0, len⟩ else none
  else
    let ss := b.slots allStacks
    let len := ss.length * b.usable * 2048
    if a < len then some ⟨0, 0, ss, 0, len⟩ else none

/-- Where an address lies: device channel, pseudo-channel, bank, row. -/
structure Place where
  ch : Nat
  pc : Nat
  bank : Nat
  row : Nat
deriving DecidableEq, Repr

/-- The decode of R209. -/
def Block.placeIn (b : Block) (r : Range) (a : Nat) : Place :=
  let n := r.slots.length
  let c := (a - r.base) / 2048
  let g := c / n
  let ch := r.slots.getD ((c % n + mix b.mem.key r.id g) % n) 0
  let row := r.rowBase + g
  ⟨ch, bits a 10 10, (row % 48 + mix b.mem.key (1024 + ch) (row / 48)) % 48, row / 48⟩

/-- The place of an address, where it has one. -/
def Block.place (b : Block) (a : Nat) : Option Place :=
  (b.rangeOf a).map (fun r => b.placeIn r a)

/-- Whether address `a` belongs to the memory of partition `p` (R207, R212). -/
def Block.inPart (b : Block) (p a : Nat) : Bool :=
  if p = 15 then decide ((b.rangeOf a).isSome)
  else if windowBase ≤ a then false
  else if b.mem.affine then b.holdsPlate p (a / 0x1800000000) && (b.rangeOf a).isSome
  else (List.range 4).any (fun k =>
    let r := mget {} b.mem.pranges (4 * p + k)
    decide (r.base * 2 ^ 30 ≤ a) && decide (a < (r.base + r.size) * 2 ^ 30))

/-- Whether every byte of `[a, a + n)` belongs to the partition: its ends do, and a range has no hole inside. -/
def Block.spanInPart (b : Block) (p a n : Nat) : Bool :=
  n == 0 || (b.inPart p a && b.inPart p (a + n - 1))

/-- The partition that owns an address for a record (R227). -/
def Block.ownerOf (b : Block) (a : Nat) : Nat :=
  if windowBase ≤ a then 15 else ((List.range 8).find? (fun p => b.inPart p a)).getD 15

/-! ## Refusals (R210) -/

def Block.bumpStack (b : Block) (s off n : Nat) : Block :=
  let x := b.stack s
  b.setStack s { x with counters := bump x.counters off n }

/-- Counts a refused access and writes UNMAPPED_ACCESS, at most once per campus millisecond per requester. -/
def Block.refuseAccess (b : Block) (e : Env) (q : Req) (a reason : Nat) : Block :=
  let pl := b.place a
  let s := (pl.map (fun p => p.ch / 32)).getD 0
  let b := b.bumpStack s 0x120 1
  if limited b.mem.lastEvt e q.id then b
  else
    let b := { b with mem := { b.mem with lastEvt := mset 0 b.mem.lastEvt q.id (e.ms + 1) } }
    let at_ : Nat × Nat × Nat × Nat :=
      match pl with
      | some p => (p.ch / 32, p.ch % 32, p.pc, p.bank)
      | none => (0xFF, 0xFF, 0xFF, 0xFF)
    b.post e { cls := 7, sev := 1, code := 3, part := q.part, source := 8 + s
               payload := [(24, 1, at_.1), (25, 1, at_.2.1), (26, 1, at_.2.2.1), (27, 1, at_.2.2.2),
                           (32, 8, a), (40, 2, q.id), (42, 1, reason)] }

/-- The reason why an access reaches no stack, if any (R210, R222, R225). -/
def Block.accessFault (b : Block) (q : Req) (write : Bool) (a : Nat) : Option Nat :=
  match b.rangeOf a with
  | none => some 0
  | some r =>
    let pl := b.placeIn r a
    if windowBase ≤ a then
      if write && !q.own then some 3
      else if !q.own && q.part ≠ 15 then some 1
      else if bit (b.stack (pl.ch / 32)).fenced (pl.ch % 32) then some 2
      else if (mget ({} : MemChannel) b.mem.chans pl.ch).tg.busy then some 1
      else none
    else if !b.inPart q.part a then some 1
    else if bit (b.stack (pl.ch / 32)).fenced (pl.ch % 32) then some 2
    else if (mget ({} : MemChannel) b.mem.chans pl.ch).tg.busy then some 1
    else none

/-! ## Generational redirection (R158) -/

/-- The generational region that holds an address: partition, region number, offset within the bank, bank. -/
def Block.genFind (b : Block) (a : Nat) : Option (Nat × Nat × Nat × Nat) :=
  (List.range 8).findSome? (fun p =>
    let g := (b.gen p).regs
    if g.state = 0 then none
    else (List.range 16).findSome? (fun n =>
      let r := mget {} g.regions n
      if r.len = 0 then none
      else if r.baseA ≤ a && a < r.baseA + r.len then some (p, n, a - r.baseA, 0)
      else if r.baseB ≤ a && a < r.baseB + r.len then some (p, n, a - r.baseB, 1)
      else none))

/-- The address of an offset in a bank (R157). -/
def GenReg.at (r : GenReg) (bank off : Nat) : Nat := (if bank = 0 then r.baseA else r.baseB) + off

/-- Whether a bank may be written by the optimiser phase: its older generation confirmed over, and no print pins it
(R166, R176). -/
def GenUnit.bankOpen (g : GenUnit) (bank : Nat) : Bool :=
  g.aux.confirmed && mget 0 g.aux.pins bank == 0

/-- What redirection answers. -/
inductive Redirect where
  | go (a : Nat)
  | currentRefused
  | outsideRefused (part : Nat)
  | wait (part : Nat)
deriving DecidableEq, Repr

/-- R158: the bank each agent uses, and the refusals of R18 and R157. -/
def Block.redirect (b : Block) (e : Env) (q : Req) (write : Bool) (a : Nat) : Redirect :=
  match b.genFind a with
  | none => .go a
  | some (p, n, off, _) =>
    let g := b.gen p
    let r := mget {} g.regs.regions n
    if q.job && q.part = p then
      if q.gclass = 2 then
        let bank := (e.curGen p + 1) % 2
        if write && !g.bankOpen bank then .wait p else .go (r.at bank off)
      else if write then .currentRefused
      else .go (r.at (e.curGen p % 2) off)
    else if write then
      if g.aux.gateFired then .outsideRefused p else .go (r.at (g.regs.visible % 2) off)
    else .go (r.at ((q.bound.getD g.regs.visible) % 2) off)

/-- Whether a write has to wait for CONFIRM or for a print's pin (R166, R176). -/
def Block.writeWaits (b : Block) (e : Env) (q : Req) (a : Nat) : Bool :=
  match b.redirect e q true a with
  | .wait _ => true
  | _ => false

/-- A write that has to wait: the wait counts from now on, for CONFIRM as GEN_LATENT_WAIT (R166), for a print's pin as
GEN_PRINT_STALL, whose first wait in a step writes PRINT_STALL (R176). -/
def Block.noteWait (b : Block) (e : Env) (q : Req) (a : Nat) : Block :=
  match b.redirect e q true a with
  | .wait p =>
    let g := b.gen p
    if !g.aux.confirmed then
      if g.aux.waitFrom.isSome then b else b.setGen p { g with aux := { g.aux with waitFrom := some e.clk.now } }
    else if g.aux.stallFrom.isSome then b
    else
      let b := b.setGen p { g with aux := { g.aux with stallFrom := some e.clk.now, stallSeen := true } }
      if g.aux.stallSeen then b
      else b.post e { cls := 2, sev := 1, code := 9, part := p, source := 0x1A
                      payload := [(24, 6, e.curGen p), (30, 2, g.regs.epoch), (32, 8, 0)] }
  | _ => b

/-- A write into the latent bank of the writer's job: the previous generation is no longer intact (R169). -/
def Block.latentTouched (b : Block) (q : Req) (a : Nat) : Block :=
  if q.job && q.gclass = 2 then
    match b.genFind a with
    | some (p, _) =>
      if p = q.part then let g := b.gen p; b.setGen p { g with regs := { g.regs with prevIntact := false } } else b
    | none => b
  else b

/-- CURRENT_BANK_WRITE (R18, R332), limited by code and requester. -/
def Block.currentBankWrite (b : Block) (e : Env) (q : Req) (a : Nat) : Block :=
  let g := b.gen q.part
  let b := b.setGen q.part { g with aux := { g.aux with lostWrites := sat48 g.aux.lostWrites 1 } }
  let key := 1 * 65536 + q.id
  if limited b.syn.lastEvt e key then { b with syn := { b.syn with counters := bump b.syn.counters 0x20 1 } }
  else
    ({ b with syn := { b.syn with lastEvt := mset 0 b.syn.lastEvt key (e.ms + 1) } }).post e
      { cls := 5, sev := 1, code := 1, part := if q.id / 8192 = 5 then 15 else q.part, source := 0x18
        payload := [(24, 2, 0xFFFF), (26, 2, q.id), (32, 8, a)] }

/-- WRITE_REFUSED (R157, R178). -/
def Block.outsideWrite (b : Block) (e : Env) (q : Req) (p a : Nat) : Block :=
  let g := b.gen p
  let b := b.setGen p { g with aux := { g.aux with lostWrites := sat48 g.aux.lostWrites 1 } }
  b.post e { cls := 2, sev := 1, code := 10, part := p, source := 0x1A
             payload := [(24, 6, e.curGen p), (30, 2, g.regs.epoch), (32, 8, a), (40, 2, q.id)] }

/-! ## Guard windows (R325) -/

/-- The slot whose window holds an address while its sequence lock is held. -/
def Block.guardOf (b : Block) (a : Nat) : Option Nat :=
  (List.range 64).find? (fun k =>
    let s := mget {} b.syn.slots k
    let o := mget {} b.syn.objs s.obj
    s.valid && decide (s.base ≤ a) && decide (a < s.base + 64 * s.len) && decide (o.mode = 2) && decide (o.state = 1))

/-- Whether a requester holds the lock of a slot. -/
def Block.guardHolder (b : Block) (k : Nat) (q : Req) : Bool :=
  let o := mget {} b.syn.objs (mget ({} : Slot) b.syn.slots k).obj
  decide (o.holder = q.id) && decide (o.holderPart = q.part)

/-- GUARD_WRITE_REFUSED (R325, R332). -/
def Block.guardRefused (b : Block) (e : Env) (q : Req) (k a : Nat) : Block :=
  let b := { b with syn := { b.syn with counters := bump b.syn.counters 0x18 1 } }
  let key := 5 * 65536 + q.id
  if limited b.syn.lastEvt e key then { b with syn := { b.syn with counters := bump b.syn.counters 0x20 1 } }
  else
    ({ b with syn := { b.syn with lastEvt := mset 0 b.syn.lastEvt key (e.ms + 1) } }).post e
      { cls := 5, sev := 1, code := 5, part := if q.id / 8192 = 5 then 15 else q.part, source := 0x18
        payload := [(24, 2, (mget ({} : Slot) b.syn.slots k).obj), (26, 2, q.id), (32, 8, a)] }

/-! ## Poison reports (R380) -/

/-- POISON_LATENT and POISON_CURRENT for a granule that a home slice has stored as poisoned. -/
def Block.reportPoison (b : Block) (e : Env) (a : Nat) : Block :=
  match b.genFind a with
  | none => b
  | some (p, _, _, bank) =>
    let g := b.gen p
    let ev (code sev flag : Nat) : Event :=
      { cls := 4, sev := sev, code := code, part := p, source := 0x1C
        payload := [(24, 1, 0xFF), (26, 2, 0xFFFF), (28, 2, 0xFFFF), (32, 8, a), (40, 1, flag)] }
    if bank = e.curGen p % 2 then
      ({ b with int := { b.int with currentPoison := mset false b.int.currentPoison p true } }).post e (ev 8 1 0)
    else if g.regs.prevIntact && !g.aux.confirmed then
      (b.setGen p { g with regs := { g.regs with prevIntact := false } }).post e (ev 8 1 1)
    else
      let b := b.setGen p { g with regs := { g.regs with prevIntact := false } }
      ({ b with int := { b.int with
          latentPoison := mset false b.int.latentPoison p true
          counters := bump b.int.counters 0x170 1 } }).post e (ev 7 2 0)

/-! ## Granules (R215, R231, R377) -/

/-- Counts a line's hit or miss and moves its state (R229). The choice of victim affects only timing. -/
def Block.touch (b : Block) (a : Nat) (write whole cmpr : Bool) : Block :=
  let s := ((b.place a).map (fun p => p.ch / 32)).getD 0
  let k := a / 128
  let l := mget {} b.shc.lines k
  let miss := decide (l.state = .i)
  let st := if write then .d else if miss then .c else l.state
  let cnt := if miss then (if write && whole then b.shc.counters else bump b.shc.counters (0x1008 + 0x40 * s) 1)
    else bump b.shc.counters (0x1000 + 0x40 * s) 1
  let l' : Line := { state := if l.state = .m || l.state = .g then l.state else st, cmpr := if write then cmpr else l.cmpr }
  { b with shc := { b.shc with lines := mset {} b.shc.lines k l', counters := cnt } }

/-- The bytes of `[a, a + n)` as the stack and the slice hold them. -/
def memBytes (m : SMap Byte) : Nat → Nat → List Byte
  | _, 0 => []
  | a, n + 1 => mget 0 m a :: memBytes m (a + 1) n

/-- Stores bytes from `a` on. -/
def putBytes (m : SMap Byte) : Nat → List Byte → SMap Byte
  | _, [] => m
  | a, x :: xs => putBytes (mset 0 m a x) (a + 1) xs

/-- Stores a poisoned granule: zero data and the mark (R377). -/
def Block.poisonGranule (b : Block) (e : Env) (a : Nat) : Block :=
  let g := a / 64 * 64
  ({ b with mem := { b.mem with
      bytes := putBytes b.mem.bytes g (zeros 64)
      poison := mset false b.mem.poison (g / 64) true } }).reportPoison e g

/-- The side states of an exact region that a plain store over `[a, a + n)` returns to finite. -/
def clearSides (m : SMap Nat) (a n : Nat) : SMap Nat :=
  m.filter (fun p => !(decide (p.1 < a + n) && decide (a < p.1 + 12)))

/-- Writes bytes inside one granule, with the poison rules of R215. The address is a place in memory. -/
def Block.writeGranule (b : Block) (e : Env) (a : Nat) (bs : List Byte) (poison cmpr : Bool) : Block :=
  let whole := decide (bs.length = 64)
  let b := b.touch a true whole cmpr
  let b := { b with mem := { b.mem with
      ewa := clearSides b.mem.ewa a bs.length
      ctags := mset {} b.mem.ctags (a / 512) {}
      pendingWb := if mget 0 b.mem.pendingWb (a / 64) = 0 then b.mem.pendingWb else mset 0 b.mem.pendingWb (a / 64) 2 } }
  if poison then b.poisonGranule e a
  else if mget false b.mem.poison (a / 64) && !whole then b
  else { b with mem := { b.mem with
      bytes := putBytes b.mem.bytes a bs, poison := mset false b.mem.poison (a / 64) false } }

/-- The byte a reader of an exact region sees: the non-finite pattern where the word's side state is not finite (R234). -/
def exactByte (ewa : SMap Nat) (a : Nat) (x : Byte) : Byte :=
  match ewa.find? (fun p => decide (p.1 ≤ a) && decide (a < p.1 + 12)) with
  | some p => if a = p.1 + 11 then 0x80 else 0
  | none => x

/-- Reads bytes inside one granule: zeros marked poisoned where it is poisoned. -/
def Block.readGranule (b : Block) (a n : Nat) : List (Byte × Bool) :=
  if mget false b.mem.poison (a / 64) then (zeros n).map (fun x => (x, true))
  else
    let bs := memBytes b.mem.bytes a n
    (bs.zip (List.range n)).map (fun p => (exactByte b.mem.ewa (a + p.2) p.1, false))

/-- Puts a line into a state (R229). -/
def Block.setLine (b : Block) (k : Nat) (st : LineState) : Block :=
  { b with shc := { b.shc with lines := mset {} b.shc.lines k { mget ({} : Line) b.shc.lines k with state := st } } }

/-- Stages bytes in the G lines of a guard window (R325). -/
def Block.stage (b : Block) (k a : Nat) (bs : List Byte) : Block :=
  let s := mget ({} : Slot) b.syn.slots k
  let st := ((bs.zip (List.range bs.length)).foldl (fun m p => mset 0 m (a + p.2) (p.1.toNat + 1)) s.staged)
  ({ b with syn := { b.syn with slots := mset {} b.syn.slots k { s with staged := st } } } : Block).setLine (a / 128) .g

/-! ## GV4ADD at the controller (R237) -/

/-- The controller writes the sum of a forwarded GV4ADD; the line is invalid once none of its granules waits for one. -/
def Block.addDone (b : Block) (e : Env) (x : PendingAdd) : Block :=
  let rest := b.shc.adds.erase x
  let b : Block := { b with shc := { b.shc with adds := rest } }
  let b := if rest.any (fun y => decide (y.addr / 128 = x.addr / 128)) then b else b.setLine (x.addr / 128) .i
  if x.poison then b.poisonGranule e x.addr
  else if mget false b.mem.poison (x.addr / 64) then b
  else
    let sum := fadd32 (leNat (memBytes b.mem.bytes x.addr 4)) x.operand
    { b with mem := { b.mem with
        bytes := putBytes b.mem.bytes x.addr (leBytes 4 sum), ewa := clearSides b.mem.ewa x.addr 4
        ctags := mset {} b.mem.ctags (x.addr / 512) {} } }

/-- An access to a line in state M waits for the sums pending on it: they are written first. -/
def Block.settleLine (b : Block) (e : Env) (a : Nat) : Block :=
  (b.shc.adds.filter (fun x => decide (x.addr / 128 = a / 128))).foldl (fun b x => b.addDone e x) b

/-- The slice writes back the line, places it in M and forwards the element. -/
def Block.placeAdd (b : Block) (a operand : Nat) (poison : Bool) : Block :=
  let dirty := decide ((mget ({} : Line) b.shc.lines (a / 128)).state = .d)
  let s := ((b.place a).map (fun p => p.ch / 32)).getD 0
  let shc := if dirty then { b.shc with counters := bump b.shc.counters (0x1010 + 0x40 * s) 1 } else b.shc
  ({ b with shc := { shc with adds := shc.adds ++ [{ addr := a, operand := operand, poison := poison }] } } : Block).setLine (a / 128) .m

/-- Bytes of `[a, a + n)` that lie in the granule of `a`. -/
def inGranule (a n : Nat) : Nat := min n (64 - a % 64)

/-- The controller or PHY domain of an address's stack that does not run: its guard answers in its place (R365). -/
def Block.deadSlice (b : Block) (a : Nat) : Option Nat :=
  (b.place a).bind (fun p =>
    [48 + p.ch / 32, 64 + p.ch / 32].find? (fun d => decide ((mget ({} : Dom) b.clk.doms d).state ≠ 0)))

/-- A response that a crossing guard synthesises for domain `d` (R365). -/
def Block.guardSynth (b : Block) (d : Nat) : Block :=
  let x := mget {} b.clk.doms d
  { b with clk := { b.clk with
      doms := mset {} b.clk.doms d { x with synth := sat48 x.synth 1, synthNew := sat48 x.synthNew 1 } } }

/-- Bytes inside one granule as a requester sees them: the holder of a guard window sees the staged ones (R325). -/
def Block.seenBy (b : Block) (q : Req) (a n : Nat) : List (Byte × Bool) :=
  let bs := b.readGranule a n
  match b.guardOf a with
  | some k =>
    if b.guardHolder k q then
      let st := (mget ({} : Slot) b.syn.slots k).staged
      (bs.zip (List.range n)).map (fun p =>
        let v := mget 0 st (a + p.2)
        if v = 0 then p.1 else (BitVec.ofNat 8 (v - 1), false))
    else bs
  | none => bs

/-- Reads inside one granule on behalf of a requester: redirection, refusals, guard window, data. -/
def Block.readPiece (b : Block) (e : Env) (q : Req) (a n : Nat) : Block × List (Byte × Bool) :=
  let pa := match b.redirect e q false a with
    | .go x => x
    | _ => a
  match b.accessFault q false pa, b.deadSlice pa with
  | some reason, _ => (b.refuseAccess e q pa reason, (zeros n).map (fun x => (x, true)))
  | none, some d => (b.guardSynth d, (zeros n).map (fun x => (x, true)))
  | none, none =>
    let b := b.settleLine e pa
    (b.touch pa false false false, b.seenBy q pa n)

/-- Reads `n` bytes granule by granule (R231); `fuel` is at least the number of granules. -/
def Block.readFuel (e : Env) (q : Req) : Nat → Block → Nat → Nat → Block × List (Byte × Bool)
  | 0, b, _, _ => (b, [])
  | f + 1, b, a, n =>
    if n = 0 then (b, [])
    else
      let k := inGranule a n
      let (b, x) := b.readPiece e q a k
      let (b, y) := Block.readFuel e q f b (a + k) (n - k)
      (b, x ++ y)

/-- Reads device memory. -/
def Block.readMem (b : Block) (e : Env) (q : Req) (a n : Nat) : Block × List (Byte × Bool) :=
  Block.readFuel e q (n / 64 + 2) b a n

/-- Writes inside one granule on behalf of a requester. -/
def Block.writePiece (b : Block) (e : Env) (q : Req) (cmpr : Bool) (a : Nat) (bs : List (Byte × Bool)) : Block :=
  let poison := bs.any Prod.snd
  let go (pa : Nat) : Block :=
    match b.accessFault q true pa, b.deadSlice pa with
    | some reason, _ => b.refuseAccess e q pa reason
    | none, some d => b.guardSynth d
    | none, none =>
      match b.guardOf pa with
      | some k =>
        if b.guardHolder k q then b.stage k pa (bs.map Prod.fst) else b.guardRefused e q k pa
      | none => (b.settleLine e pa).writeGranule e pa (bs.map Prod.fst) poison cmpr
  match b.redirect e q true a with
  | .go pa => (go pa).latentTouched q a
  | .currentRefused => b.currentBankWrite e q a
  | .outsideRefused p => b.outsideWrite e q p a
  | .wait _ => b.noteWait e q a

def Block.writeFuel (e : Env) (q : Req) (cmpr : Bool) : Nat → Block → Nat → List (Byte × Bool) → Block
  | 0, b, _, _ => b
  | f + 1, b, a, bs =>
    if bs.isEmpty then b
    else
      let k := inGranule a bs.length
      Block.writeFuel e q cmpr f (b.writePiece e q cmpr a (bs.take k)) (a + k) (bs.drop k)

/-- Writes device memory, granule by granule; each piece carries the poison mark of its bytes. -/
def Block.writeMem (b : Block) (e : Env) (q : Req) (cmpr : Bool) (a : Nat) (bs : List (Byte × Bool)) : Block :=
  Block.writeFuel e q cmpr (bs.length / 64 + 2) b a bs

/-- Clean bytes. -/
def clean (bs : List Byte) : List (Byte × Bool) := bs.map (fun x => (x, false))

/-- Reads that a unit of the device makes on the device's behalf, poison marks dropped. -/
def Block.peek (b : Block) (a n : Nat) : List Byte := memBytes b.mem.bytes a n

/-- Whether any granule of `[a, a + n)` is poisoned. -/
def Block.anyPoison (b : Block) (a n : Nat) : Bool :=
  b.mem.poison.any (fun p => p.2 && decide (p.1 * 64 < a + n) && decide (a < p.1 * 64 + 64))

/-! ## Reductions (R233) -/

/-- The exact region that holds a word and that a requester may reach (R236). -/
def Block.exactOf (b : Block) (part a : Nat) : Option Nat :=
  (List.range 64).find? (fun n =>
    let r := mget {} b.shc.exact n
    r.valid && decide (r.base ≤ a) && decide (a + 12 ≤ r.base + r.len) && decide ((a - r.base) % 12 = 0)
      && (decide (part = 15) || decide (part = r.part)))

def Block.bumpShc (b : Block) (off n : Nat) : Block := { b with shc := { b.shc with counters := bump b.shc.counters off n } }

/-- The slice of an address. -/
def Block.sliceOf (b : Block) (a : Nat) : Nat := ((b.place a).map (fun p => p.ch / 32)).getD 0

/-- A dropped reduction element (R236): EWA_REFUSED, its record limited per requester. -/
def Block.ewaRefused (b : Block) (e : Env) (q : Req) (rop why a : Nat) : Block :=
  let b := b.bumpShc 0x638 1
  let key := 0x105 * 65536 + q.id
  if limited b.shc.lastEvt e key then
    { (b.bumpShc 0x630 1) with shc := { (b.bumpShc 0x630 1).shc with suppressed := bump b.shc.suppressed key 1 } }
  else
    let sup := mget 0 b.shc.suppressed key
    ({ b with shc := { b.shc with lastEvt := mset 0 b.shc.lastEvt key (e.ms + 1), suppressed := mset 0 b.shc.suppressed key 0 } }).post e
      { cls := 5, sev := 1, code := 0x105, part := q.part, source := 8 + b.sliceOf a
        payload := [(26, 2, q.id), (28, 1, rop), (29, 1, why), (32, 8, a), (56, 8, sup)] }

/-- Marks the latent generation order-dependent (R27); in a job marked deterministic the first in each generation
also writes ORDER_DEPENDENT. -/
def Block.orderDependent (b : Block) (e : Env) (part op a : Nat) : Block :=
  if part < 8 && b.holdsJob part then
    let g := b.gen part
    let warn := g.job.deterministic && !g.proto.ordWarned
    let b := b.setGen part { g with proto := { g.proto with latentOrd := true, ordWarned := g.proto.ordWarned || g.job.deterministic } }
    if warn then
      b.post e { cls := 4, sev := 1, code := 12, part := part, source := 0x1C
                 payload := [(24, 1, 0xFF), (26, 2, 0xFFFF), (28, 2, 0xFFFF), (32, 1, op), (40, 8, a)] }
    else b
  else b

/-- Operand bytes of one element of a reduction (R233). -/
def ropBytes (rop : Nat) (fmt : Fmt) : Nat :=
  if rop = 3 then 4 else if 4 ≤ rop && rop ≤ 8 then 8 else if rop = 12 then 4 else fmt.elemBits / 8

/-- Bytes of the target word (R233). -/
def ropTarget (rop : Nat) (fmt : Fmt) : Nat := if rop = 1 || rop = 2 then 12 else ropBytes rop fmt

/-- Whether a reduction takes the format (R233, R236). -/
def ropTakes (rop : Nat) (fmt : Fmt) : Bool :=
  if rop = 1 || rop = 2 then fmt = .acc96 || fmt = .acc64 || fmt = .g16 || fmt = .fp32 || fmt = .bf16
  else if rop = 9 || rop = 10 || rop = 11 then fmt = .fp32 || fmt = .bf16
  else if rop = 12 then fmt = .fp32
  else true

/-- The integer and floating-point reductions on one word: old word, operand, new word (R233). -/
def ropWord (rop : Nat) (fmt : Fmt) (old x : Nat) : Nat :=
  let ff := if fmt = .bf16 then bf16Fmt else fp32Fmt
  match rop with
  | 3 => (old + x) % 2 ^ 32
  | 4 => (old + x) % 2 ^ 64
  | 5 => if sext 64 old < sext 64 x then x else old
  | 6 => if sext 64 x < sext 64 old then x else old
  | 7 => max old x
  | 8 => min old x
  | 9 => fmaxCode ff old x
  | 10 => fminCode ff old x
  | 11 => ff.encode .rne false ((ff.decode old).add (ff.decode x))
  | 12 => fadd32 old x
  | _ => x

/-- One element into an exact region (R234, R235): value, side state, and whether the sum wrapped. -/
def exactAdd (set : Bool) (old : Int × Side) (x : Num) (e : Int) (raw96 : Option Nat) : Int × Side × Bool :=
  let (v, s) : Int × Side := match raw96 with
    | some r => acc96Of r
    | none => (if x.isFinite then toWindow e x else 0, Side.ofNum x)
  if set then (if s = .finite then v else 0, s, false)
  else if s = .finite then
    let t := old.1 + v
    (sext 96 (twos 96 t), old.2, overflow96 t)
  else (old.1, old.2.merge s, false)

/-- WINDOW_WRAP, limited per plate (R235, R399). -/
def Block.windowWrap (b : Block) (e : Env) (part a who : Nat) : Block :=
  let key := 11 * 256 + b.sliceOf a / 2
  if limited b.int.lastEvt e key then { b with int := { b.int with counters := bump b.int.counters 0x198 1 } }
  else
    ({ b with int := { b.int with lastEvt := mset 0 b.int.lastEvt key (e.ms + 1) } }).post e
      { cls := 4, sev := 1, code := 11, part := part, source := 0x1C
        payload := [(24, 1, b.sliceOf a / 2), (26, 2, 0xFFFF), (28, 2, 0xFFFF), (32, 8, a), (40, 1, who)] }

/-- Stores bytes that lie in at most two granules, each piece by the rules of R215. -/
def Block.writeSpan (b : Block) (e : Env) (a : Nat) (bs : List Byte) (poison : Bool) : Block :=
  let k := inGranule a bs.length
  let b := b.writeGranule e a (bs.take k) poison false
  if k < bs.length then b.writeGranule e (a + k) (bs.drop k) poison false else b

/-- WSET or WADD on the word at `pa` of an exact region (R234, R235). A poisoned operand, or a poisoned addend in memory,
poisons the word's granules. -/
def Block.reduceExact (b : Block) (e : Env) (q : Req) (set : Bool) (fmt : Fmt) (ex : Int) (pa raw scale : Nat) (poison : Bool) :
    Block :=
  let b := b.settleLine e pa
  let seen := b.seenBy q pa 12
  let bad := poison || (!set && (mget false b.mem.poison (pa / 64) || mget false b.mem.poison ((pa + 11) / 64)))
  let old : Int × Side := (sext 96 (leNat (memBytes b.mem.bytes pa 12)), Side.ofCode (mget 0 b.mem.ewa pa))
  let old : Int × Side := if (b.guardOf pa).isSome then (sext 96 (leNat (seen.map Prod.fst)), old.2) else old
  let x : Num := if fmt = .acc64 then accValue 64 ex raw else (elemValue fmt scale raw).1
  let r := exactAdd set old x ex (if fmt = .acc96 then some raw else none)
  let bs := leBytes 12 (twos 96 r.1)
  match b.guardOf pa with
  | some k => if b.guardHolder k q then b.stage k pa bs else b.guardRefused e q k pa
  | none =>
    let b := b.writeSpan e pa bs bad
    if bad || mget false b.mem.poison (pa / 64) then b
    else
      let b : Block := { b with mem := { b.mem with ewa := mset 0 b.mem.ewa pa r.2.1.code } }
      if r.2.2 then (b.bumpShc 0x640 1).windowWrap e q.part pa 0 else b

/-- A reduction of ROP 3 to 12 on the word at `pa` (R233, R237). -/
def Block.reduceWord (b : Block) (e : Env) (q : Req) (rop : Nat) (fmt : Fmt) (pa raw : Nat) (poison : Bool) : Block :=
  let w := ropTarget rop fmt
  let b := if rop = 11 then (b.bumpShc 0x648 1).orderDependent e q.part 0 pa
    else if rop = 12 then (b.bumpShc 0x650 1).orderDependent e q.part 1 pa else b
  let b := if rop = 12 then b else b.settleLine e pa
  let new := ropWord rop fmt (leNat ((b.seenBy q pa w).map Prod.fst)) raw
  match b.guardOf pa with
  | some k => if b.guardHolder k q then b.stage k pa (leBytes w new) else b.guardRefused e q k pa
  | none => if rop = 12 then b.placeAdd pa raw poison else b.writeSpan e pa (leBytes w new) poison

/-- One reduction element at the home slice (R233 to R237). `raw` is the operand's bits, `scale` its G16 scale,
`ex` the exposure of WSET and WADD. -/
def Block.reduceElem (b : Block) (e : Env) (q : Req) (rop : Nat) (fmt : Fmt) (ex : Int) (a raw scale : Nat)
    (poison : Bool) : Block :=
  if !ropTakes rop fmt then b.ewaRefused e q rop 1 a
  else if rop = 12 && !bit b.shc.gv4En (min q.part 8) then b
  else
    match b.redirect e q true a with
    | .currentRefused => b.currentBankWrite e q a
    | .outsideRefused p => b.outsideWrite e q p a
    | .wait _ => b.noteWait e q a
    | .go pa =>
      match b.accessFault q true pa, b.deadSlice pa with
      | some reason, _ => b.refuseAccess e q pa reason
      | none, some d => b.guardSynth d
      | none, none =>
        if (rop = 1 || rop = 2) && (b.exactOf q.part pa).isNone then b.ewaRefused e q rop 0 a
        else
          let b := b.bumpShc (0x1018 + 0x40 * b.sliceOf pa) 1
          let b := if rop = 1 || rop = 2 then b.reduceExact e q (decide (rop = 1)) fmt ex pa raw scale poison
            else b.reduceWord e q rop fmt pa raw poison
          b.latentTouched q a

/-- Splits operand bytes into elements: raw bits, scale and poison. A G16 block is 64 elements under one scale, in
the group form of R38. -/
def ropElems (rop : Nat) (fmt : Fmt) (bs : List (Byte × Bool)) : List (Nat × Nat × Bool) :=
  let raw := bs.map Prod.fst
  let pz (i n : Nat) : Bool := ((bs.drop i).take n).any Prod.snd
  if (rop = 1 || rop = 2) && fmt = .g16 then
    (List.range (bs.length / 2064)).flatMap (fun g =>
      (List.range 1024).map (fun i =>
        let at_ := 2064 * g + 16 + 2 * i
        (leAt raw at_ 2, leAt raw (2064 * g + i / 64) 1, pz at_ 2 || pz (2064 * g + i / 64) 1)))
  else
    let w := ropBytes rop fmt
    (List.range (bs.length / (max w 1))).map (fun i => (leAt raw (w * i) w, 0, pz (w * i) w))

/-- A write or reduction of operand bytes at an address (R233): ROP 0 stores, the others go element by element. -/
def Block.reduceMem (b : Block) (e : Env) (q : Req) (rop : Nat) (fmt : Fmt) (ex : Int) (cmpr : Bool) (a : Nat)
    (bs : List (Byte × Bool)) : Block :=
  if rop = 0 then b.writeMem e q cmpr a bs
  else
    let w := ropTarget rop fmt
    let xs := ropElems rop fmt bs
    (xs.zip (List.range xs.length)).foldl
      (fun b p => b.reduceElem e q rop fmt ex (a + w * p.2) p.1.1 p.1.2.1 p.1.2.2) b

end Sys2Proof.Machine
end

