-- ==== Sys2Proof/Machine/Frames.lean ====
section
/-! DEFINITION. The frame pool (R238 to R244): allocators, quotas, rotation, zeroing, reclaim. -/
namespace Sys2Proof.Machine

/-- The address of frame `f` (R238). -/
def frameAddr (f : Nat) : Nat := windowBase + (f / 8192) * 0x40000000 + 0x34000000 + (f % 8192) * 0x4000

/-- The hub of a frame's descriptor (R238). -/
def frameHub (f : Nat) : Nat := f / 32768

/-- The home allocator of a requester (R239). -/
def homeHub (id : Nat) : Nat :=
  let k := id / 8192
  let n := id % 8192
  if k = 0 then (if n / 640 < 4 then 0 else 1)
  else if k = 1 then (if n < 16 then 0 else 1)
  else if k = 3 then (if n < 18 then 0 else 1)
  else 0

/-- The quota index of a partition (R242). -/
def quotaIdx (part : Nat) : Nat := if part = 15 then 8 else part

/-- The halves of a quota (R242). -/
def half (h n : Nat) : Nat := if h = 0 then (n + 1) / 2 else n / 2

def Block.setShc (b : Block) (x : Cache) : Block := { b with shc := x }
def Block.alloc (b : Block) (h : Nat) : Allocator := mget {} b.shc.allocs h
def Block.setAlloc (b : Block) (h : Nat) (x : Allocator) : Block := { b with shc := { b.shc with allocs := mset {} b.shc.allocs h x } }
def Block.frame (b : Block) (f : Nat) : Frame := mget {} b.shc.frames f
def Block.setFrame (b : Block) (f : Nat) (x : Frame) : Block := { b with shc := { b.shc with frames := mset {} b.shc.frames f x } }

/-- Free frames of a hub. -/
def Allocator.free (x : Allocator) : Nat := (32768 - x.fresh) + x.freed.length

def Block.minOf (b : Block) (h i : Nat) : Nat := half h (mget 0 b.shc.min i)
def Block.maxOf (b : Block) (h i : Nat) : Nat := half h (mget 65536 b.shc.max i)

/-- What is still owed to the other partitions' guaranteed shares (R242). -/
def Block.owed (b : Block) (h i : Nat) : Nat :=
  ((List.range 9).filter (fun j => j ≠ i)).foldl (fun n j => n + (b.minOf h j - mget 0 (b.alloc h).held j)) 0

/-- Whether an allocator may grant a frame to a partition (R242). -/
def Block.mayGrant (b : Block) (h i : Nat) : Bool :=
  let x := b.alloc h
  decide (0 < x.free) && decide (mget 0 x.held i < b.maxOf h i) && decide (b.owed h i ≤ x.free - 1)

/-- The condition a MIN write must keep (R242). -/
def Block.quotaFits (b : Block) : Bool :=
  [0, 1].all (fun h =>
    decide (((List.range 9).foldl (fun n j => n + max (mget 0 (b.alloc h).held j) (b.minOf h j)) 0) ≤ 32768))

/-- The head of an allocator's free list, and the allocator without it. -/
def Block.nextFrame (b : Block) (h : Nat) : Nat × Allocator :=
  let x := b.alloc h
  if x.fresh < 32768 then (32768 * h + x.fresh, { x with fresh := x.fresh + 1 })
  else match x.freed with
    | f :: fs => (f, { x with freed := fs })
    | [] => (0, x)

/-- Grants the head of the free list (R240). -/
def Block.grant (b : Block) (h id part : Nat) : Block × Nat :=
  let r := b.nextFrame h
  let x := { r.2 with held := mmod 0 r.2.held (quotaIdx part) (· + 1) }
  let b := (b.setAlloc h x).setFrame r.1 { state := 1, owner := id, part := part }
  (b.setShc { b.shc with granted := mmod [] b.shc.granted id (· ++ [r.1]) }, r.1)

/-- The request an allocator chooses (R243): first at or after the rotating pointer, wrapping at 0xFFFF; requests of a
partition being reclaimed wait (R244). -/
def Block.chosen (b : Block) (x : Allocator) : Option AllocReq :=
  let ready := x.pending.filter (fun r => mget 0 b.shc.reclaiming r.part = 0)
  ready.foldl (fun best r =>
    match best with
    | none => some r
    | some s => if (r.id + 65536 - x.pointer) % 65536 < (s.id + 65536 - x.pointer) % 65536 then some r else some s) none

/-- Removes the first request equal to `r`. -/
def dropReq (r : AllocReq) : List AllocReq → List AllocReq
  | [] => []
  | x :: xs => if x = r then xs else x :: dropReq r xs

/-- One hub cycle of an allocator (R243): one chosen request is granted, forwarded, or answered pool empty. -/
def Block.allocCycle (b : Block) (h : Nat) : Block :=
  let x := b.alloc h
  match b.chosen x with
  | none => b
  | some r =>
    let i := quotaIdx r.part
    let b := b.setAlloc h { x with pending := dropReq r x.pending, pointer := (r.id + 1) % 65536 }
    if b.mayGrant h i then (b.grant h r.id r.part).1
    else
      let b := if 0 < x.free then b.bumpShc 0x618 1 else b
      if !r.forwarded then
        let y := b.alloc (1 - h)
        b.setAlloc (1 - h) { y with forwardedIn := y.forwardedIn ++ [{ r with forwarded := true }] }
      else
        let y := b.alloc h
        (b.bumpShc 0x610 1).setAlloc h
          { y with answers := y.answers ++ [{ id := r.id, part := r.part, frame := none, stamp := b.shc.credit }] }

/-- A frame for a unit of the device at once: its home allocator, then the other hub. -/
def Block.allocNow (b : Block) (id part : Nat) : Block × Option Nat :=
  let h := homeHub id
  let i := quotaIdx part
  let held (b : Block) (h : Nat) : Block := if 0 < (b.alloc h).free then b.bumpShc 0x618 1 else b
  if mget 0 b.shc.reclaiming part ≠ 0 then (b, none)
  else if b.mayGrant h i then let r := b.grant h id part; (r.1, some r.2)
  else
    let b := held b h
    if b.mayGrant (1 - h) i then let r := b.grant (1 - h) id part; (r.1, some r.2)
    else ((held b (1 - h)).bumpShc 0x610 1, none)

/-- A class-5 frame record, limited per code and requester, with the count of those suppressed (R241, R246). -/
def Block.frameEvent (b : Block) (e : Env) (code id part src : Nat) (more : List (Nat × Nat × Nat)) : Block :=
  let key := code * 65536 + id
  if limited b.shc.lastEvt e key then
    let b := b.bumpShc 0x630 1
    { b with shc := { b.shc with suppressed := bump b.shc.suppressed key 1 } }
  else
    let sup := mget 0 b.shc.suppressed key
    ({ b with shc := { b.shc with
        lastEvt := mset 0 b.shc.lastEvt key (e.ms + 1), suppressed := mset 0 b.shc.suppressed key 0 } }).post e
      { cls := 5, sev := 1, code := code, part := part, source := src
        payload := [(26, 2, id)] ++ more ++ [(56, 8, sup)] }

/-- Sends a frame to zeroing (R240): the owner's held count falls. -/
def Block.toZeroing (b : Block) (f : Nat) : Block :=
  let x := b.frame f
  let h := frameHub f
  let a := b.alloc h
  let b := b.setAlloc h { a with held := mmod 0 a.held (quotaIdx x.part) (· - 1) }
  let b := b.setFrame f { state := 2, owner := 0, part := 0 }
  b.setShc { b.shc with granted := mmod [] b.shc.granted x.owner (fun l => l.filter (· ≠ f)) }

/-- FREE of R241. -/
def Block.freeFrame (b : Block) (e : Env) (id part f : Nat) : Block :=
  let x := b.frame f
  let src := 0x18 + frameHub f
  if x.state ≠ 1 then
    (b.bumpShc 0x608 1).frameEvent e 0x102 id part src [(24, 2, f), (30, 1, if x.state = 2 then 1 else 0), (31, 1, 0)]
  else if x.owner ≠ id || x.part ≠ part then
    (b.bumpShc 0x600 1).frameEvent e 0x101 id part src [(24, 2, f), (28, 2, x.owner), (30, 1, x.part), (31, 1, 0)]
  else b.toZeroing f

/-- GIVE of R240, R241. -/
def Block.giveFrame (b : Block) (e : Env) (id part f newId newPart : Nat) : Block :=
  let x := b.frame f
  let src := 0x18 + frameHub f
  if x.state ≠ 1 then
    (b.bumpShc 0x608 1).frameEvent e 0x102 id part src [(24, 2, f), (30, 1, if x.state = 2 then 1 else 0), (31, 1, 1)]
  else if x.owner ≠ id || x.part ≠ part then
    (b.bumpShc 0x600 1).frameEvent e 0x101 id part src [(24, 2, f), (28, 2, x.owner), (30, 1, x.part), (31, 1, 1)]
  else if newPart ≠ x.part && newPart ≠ 15 then
    (b.bumpShc 0x600 1).frameEvent e 0x101 id part src [(24, 2, f), (28, 2, x.owner), (30, 1, x.part), (31, 1, 2)]
  else
    let h := frameHub f
    let a := b.alloc h
    let b := if newPart = x.part then b else
      b.setAlloc h { a with held := mmod 0 (mmod 0 a.held (quotaIdx x.part) (· - 1)) (quotaIdx newPart) (· + 1) }
    let b := b.setFrame f { state := 1, owner := newId, part := newPart }
    b.setShc { b.shc with granted := mmod [] (mmod [] b.shc.granted id (fun l => l.filter (· ≠ f))) newId (· ++ [f]) }

/-- The end of a frame's zeroing (R240): zero, clean, at the tail of its hub's list; the credit rises. -/
def Block.zeroDone (b : Block) (f : Nat) : Block :=
  if (b.frame f).state ≠ 2 then b
  else
    let a := frameAddr f
    let h := frameHub f
    let b := { b with mem := { b.mem with
      bytes := b.mem.bytes.filter (fun p => !(decide (a ≤ p.1) && decide (p.1 < a + 0x4000)))
      poison := b.mem.poison.filter (fun p => !(decide (a ≤ 64 * p.1) && decide (64 * p.1 < a + 0x4000))) } }
    let b := b.setFrame f {}
    let x := b.alloc h
    let b := b.setAlloc h { x with freed := x.freed ++ [f] }
    b.setShc { b.shc with credit := b.shc.credit + 1 }

/-- The allocated frames of a partition. -/
def Block.framesOf (b : Block) (part : Nat) : List Nat :=
  (b.shc.frames.filter (fun p => decide (p.2.state = 1) && decide (p.2.part = part))).map Prod.fst

/-- Both sweeps of R244: every frame of the partition becomes zeroing, the reclaim is counted and reported.
`why` is 0 for a partition reset and 1 for a job unload. -/
def Block.reclaim (b : Block) (e : Env) (part why : Nat) : Block :=
  let fs := b.framesOf part
  let b := fs.foldl (fun b f => b.toZeroing f) b
  let b := { b with shc := { b.shc with reclaiming := mset 0 b.shc.reclaiming part 0 } }
  (b.bumpShc 0x628 fs.length).post e
    { cls := 5, sev := 0, code := 0x103, part := part, source := 0x18
      payload := [(32, 4, fs.length), (36, 1, why)] }

end Sys2Proof.Machine
end

