-- ==== Sys2Proof/Machine/Codec.lean ====
section
/-! DEFINITION. The three block codecs (R62, R277). -/
namespace Sys2Proof.Machine

/-- Values of `w` bits, the first in the lowest bits, padded to a whole byte (R277). -/
def packLsb (w : Nat) (xs : List Nat) : List Byte :=
  leBytes ((xs.length * w + 7) / 8) (xs.foldr (fun x n => n * 2 ^ w + x % 2 ^ w) 0)

/-- `n` values of `w` bits. -/
def unpackLsb (w n : Nat) (bs : List Byte) : List Nat :=
  let v := leNat bs
  (List.range n).map (fun i => v / 2 ^ (w * i) % 2 ^ w)

/-! ## ZERO -/

def granule (bs : List Byte) (k : Nat) : List Byte := (bs.drop (64 * k)).take 64

def zeroMap (bs : List Byte) : Nat :=
  (List.range 8).foldl (fun m k => if (granule bs k).all (fun x => x = 0) then m + 2 ^ k else m) 0

def encodeZero (bs : List Byte) : List Byte :=
  let m := zeroMap bs
  BitVec.ofNat 8 m :: (List.range 8).flatMap (fun k => if bit m k then [] else granule bs k)

/-- The granules of a ZERO form after its map. -/
def zeroGranules (m : Nat) : List Nat → List Byte → List Byte
  | [], bs => bs
  | k :: ks, bs => if bit m k then zeros 64 ++ zeroGranules m ks bs else bs.take 64 ++ zeroGranules m ks (bs.drop 64)

def decodeZero : List Byte → List Byte
  | [] => []
  | m :: bs => zeroGranules m.toNat (List.range 8) bs

/-! ## EXPRUN -/

/-- Element bytes, mantissa bits and exponent bits of a kind. -/
def runKind : Nat → Option (Nat × Nat × Nat)
  | 0 => some (4, 23, 8)
  | 1 => some (2, 7, 8)
  | 2 => some (2, 10, 5)
  | _ => none

/-- Runs of equal exponents, at most 256 long: exponent and residues. -/
def runsOf : List (Nat × Nat) → List (Nat × List Nat)
  | [] => []
  | x :: xs =>
    match runsOf xs with
    | (e, rs) :: rest => if e = x.1 && rs.length < 256 then (e, x.2 :: rs) :: rest else (x.1, [x.2]) :: (e, rs) :: rest
    | [] => [(x.1, [x.2])]

/-- Exponent and residue of an element: the residue is the sign above the mantissa. -/
def splitElem (k : Nat × Nat × Nat) (v : Nat) : Nat × Nat :=
  (v / 2 ^ k.2.1 % 2 ^ k.2.2, v / 2 ^ (k.2.1 + k.2.2) % 2 * 2 ^ k.2.1 + v % 2 ^ k.2.1)

def joinElem (k : Nat × Nat × Nat) (e r : Nat) : Nat :=
  r / 2 ^ k.2.1 % 2 * 2 ^ (k.2.1 + k.2.2) + e % 2 ^ k.2.2 * 2 ^ k.2.1 + r % 2 ^ k.2.1

def encodeRuns (kind : Nat) (bs : List Byte) : List Byte :=
  match runKind kind with
  | none => []
  | some k =>
    let xs := (List.range (512 / k.1)).map (fun i => splitElem k (leAt bs (k.1 * i) k.1))
    BitVec.ofNat 8 kind :: (runsOf xs).flatMap (fun r =>
      BitVec.ofNat 8 (r.2.length - 1) :: BitVec.ofNat 8 r.1 :: packLsb (k.2.1 + 1) r.2)

def decodeRunsFuel (k : Nat × Nat × Nat) : Nat → List Byte → List Byte
  | 0, _ => []
  | n + 1, c :: e :: bs =>
    let m := c.toNat + 1
    let w := k.2.1 + 1
    let len := (m * w + 7) / 8
    (unpackLsb w m (bs.take len)).flatMap (fun r => leBytes k.1 (joinElem k e.toNat r)) ++ decodeRunsFuel k n (bs.drop len)
  | _, _ => []

def decodeRuns : List Byte → List Byte
  | [] => []
  | x :: bs =>
    match runKind x.toNat with
    | none => []
    | some k => decodeRunsFuel k 512 bs

/-! ## BPLANE -/

/-- Zigzag of a 32-bit difference. -/
def zigzag (d : Nat) : Nat := (2 * d % 2 ^ 32) ^^^ (if bit d 31 then 2 ^ 32 - 1 else 0)
def unzigzag (z : Nat) : Nat := (z / 2) ^^^ (if z % 2 = 1 then 2 ^ 32 - 1 else 0)

def planeDiffs (bs : List Byte) : List Nat :=
  let base := leAt bs 0 4
  (List.range 127).map (fun i => zigzag ((leAt bs (4 * (i + 1)) 4 + 2 ^ 32 - base) % 2 ^ 32))

def widthOf (m : Nat) : Nat := if m = 0 then 0 else Nat.log2 m + 1

def encodePlanes (bs : List Byte) : List Byte :=
  let ds := planeDiffs bs
  let w := widthOf (ds.foldl max 0)
  BitVec.ofNat 8 w :: bs.take 4 ++ packLsb w ds

def decodePlanes : List Byte → List Byte
  | [] => []
  | x :: bs =>
    if 32 < x.toNat then []
    else
      let base := leNat (bs.take 4)
      leBytes 4 base ++ (unpackLsb x.toNat 127 (bs.drop 4)).flatMap (fun z => leBytes 4 ((base + unzigzag z) % 2 ^ 32))

/-! ## A block -/

/-- Keeps the candidate unless the new one is shorter. -/
def shorter (best new : Nat × List Byte) : Nat × List Byte := if new.2.length < best.2.length then new else best

/-- The form in which a 512 B block is stored (R62): codec and bytes; ties go to ZERO, then EXPRUN, then BPLANE. -/
def encodeBlock512 (bs : List Byte) : Nat × List Byte :=
  let runs := shorter (shorter (2, encodeRuns 0 bs) (2, encodeRuns 1 bs)) (2, encodeRuns 2 bs)
  let best := shorter (shorter (1, encodeZero bs) runs) (3, encodePlanes bs)
  if best.2.length < 512 then best else (0, bs)

/-- The block that a coded form stands for; none where it does not decode to 512 B (R277). -/
def decodeBlock512 (codec : Nat) (bs : List Byte) : Option (List Byte) :=
  let out := match codec with
    | 0 => bs
    | 1 => decodeZero bs
    | 2 => decodeRuns bs
    | _ => decodePlanes bs
  if out.length = 512 then some out else none

end Sys2Proof.Machine
end

