-- ==== Sys2Proof/Machine/Topology.lean ====
section
/-! DEFINITION. The torus (R266, R267): coordinates, routes, the tree of a job. -/
namespace Sys2Proof.Machine

/-- A coordinate as the table holds it; 0 is an ID that is not present. -/
def coordCode (x y z : Nat) : Nat := 1 + x + 16 * y + 128 * z

/-- The coordinate of a device ID. -/
def Topology.coord (t : Topology) (id : Nat) : Option (Nat × Nat × Nat) :=
  let c := mget 0 t.coords id
  if c = 0 then none else some ((c - 1) % 16, (c - 1) / 16 % 8, (c - 1) / 128)

/-- The device at a coordinate. -/
def Topology.idAt (t : Topology) (x y z : Nat) : Option Nat :=
  (t.coords.find? (fun p => decide (p.2 = coordCode x y z))).map Prod.fst

/-- One hop in a dimension of size `s` (R267): the new coordinate and whether it goes in the + direction. -/
def hop1 (s a d : Nat) : Option (Nat × Bool) :=
  let k := (d + s - a) % s
  if k = 0 then none
  else if k ≤ s - k then some ((a + 1) % s, true) else some ((a + s - 1) % s, false)

/-- The next device on the route from `a` to `d`, and the torus direction taken: 0 X+, 1 X−, 2 Y+, 3 Y−, 4 Z+, 5 Z−. -/
def Topology.nextHop (t : Topology) (a d : Nat) : Option (Nat × Nat) :=
  match t.coord a, t.coord d with
  | some (x, y, z), some (u, v, w) =>
    match hop1 (max 1 t.sx) x u, hop1 (max 1 t.sy) y v, hop1 (max 1 t.sz) z w with
    | some (n, up), _, _ => (t.idAt n y z).map (fun i => (i, if up then 0 else 1))
    | none, some (n, up), _ => (t.idAt x n z).map (fun i => (i, if up then 2 else 3))
    | none, none, some (n, up) => (t.idAt x y n).map (fun i => (i, if up then 4 else 5))
    | none, none, none => none
  | _, _ => none

/-- The devices of the route from `a` to `d`, `a` first. -/
def Topology.route (t : Topology) : Nat → Nat → Nat → List Nat
  | 0, a, _ => [a]
  | n + 1, a, d =>
    match t.nextHop a d with
    | some (i, _) => a :: Topology.route t n i d
    | none => [a]

/-- The root of a job: the lowest device ID (R159). -/
def rootOf : List Nat → Nat
  | [] => 0
  | x :: xs => xs.foldl min x

/-- The parent of a device in the job's tree, which runs out from the root along X, then Y, then Z: the nearest device
of the job before it on the route from the root. -/
def Topology.parent (t : Topology) (ds : List Nat) (d : Nat) : Option Nat :=
  ((t.route 32 (rootOf ds) d).filter (fun i => ds.contains i && decide (i ≠ d))).getLast?

def Topology.children (t : Topology) (ds : List Nat) (d : Nat) : List Nat :=
  ds.filter (fun i => decide (i ≠ d) && decide (t.parent ds i = some d))

/-- The torus neighbours of a device that belong to the job (R159: ABORT is flooded). -/
def Topology.jobNeighbours (t : Topology) (ds : List Nat) (d : Nat) : List Nat :=
  match t.coord d with
  | none => []
  | some (x, y, z) =>
    let sx := max 1 t.sx
    let sy := max 1 t.sy
    let sz := max 1 t.sz
    let near := [t.idAt ((x + 1) % sx) y z, t.idAt ((x + sx - 1) % sx) y z, t.idAt x ((y + 1) % sy) z,
                 t.idAt x ((y + sy - 1) % sy) z, t.idAt x y ((z + 1) % sz), t.idAt x y ((z + sz - 1) % sz)]
    (near.filterMap id).eraseDups.filter (fun i => decide (i ≠ d) && ds.contains i)

end Sys2Proof.Machine
end

