-- ==== Sys2Proof/Machine/LinkTx.lean ====
section
/-! DEFINITION. The sending side of Ciosh Link (R256 to R270, R276): flits, coded messages, ports, credits. -/
namespace Sys2Proof.Machine

/-! ## Flits (R256 to R258) -/

def Flit.header (f : Flit) : Nat :=
  field f.ftype 4 60 + field f.vc 2 58 + field f.cls 1 57 + field f.seq 12 45 + field f.ack 12 33 + field f.crVc 2 31
    + field f.crCls 1 30 + field f.crCount 6 24 + field f.mtag 10 14 + field (b2n f.som) 1 13 + field (b2n f.eom) 1 12
    + field (b2n f.cmp) 1 11 + field f.len 8 3

/-- The bytes that the check covers. -/
def Flit.body (f : Flit) : List Byte := leBytes 8 f.header ++ padTo 240 f.payload

/-- Whether a flit passes its check (R258): its CRC-64, and an FTYPE that is not reserved. -/
def Flit.ok (f : Flit) : Bool := decide (f.ftype ≤ 6) && decide (f.check = crc64 f.body)

/-- The flit with its check. -/
def Flit.sealed (f : Flit) : Flit := { f with check := crc64 f.body }

/-- An IDLE flit with every field zero. -/
def Flit.idle : Flit :=
  { ftype := 0, vc := 0, cls := 0, seq := 0, ack := 0, crVc := 0, crCls := 0, crCount := 0, mtag := 0, som := false
    eom := false, cmp := false, len := 0, payload := [], check := 0 }

/-! ## Messages (R269, R270, R276) -/

/-- The 32 B header of a message. -/
def Msg.header (m : Msg) : List Byte :=
  leBytes 1 m.mtype ++ leBytes 1 m.flags ++ leBytes 2 m.src ++ leBytes 2 m.dst ++ leBytes 1 m.parts ++ leBytes 1 m.rop
    ++ leBytes 2 m.job ++ leBytes 2 m.epoch ++ leBytes 4 m.mid ++ leBytes 4 m.length ++ leBytes 6 m.addr ++ leBytes 2 m.signal
    ++ leBytes 2 m.expfmt ++ leBytes 2 m.qseq

/-- The virtual channel of a message type (R271). -/
def vcOf (mtype : Nat) : Nat :=
  match mtype with
  | 0 | 1 => 2
  | 2 | 3 => 1
  | 4 => 0
  | _ => 3

/-- One coded block of a message: its 4 B header, then its coded form (R269). A poisoned granule travels as zeros. -/
def codeBlock (cmp : Bool) (bs : List (Byte × Bool)) : List Byte :=
  let n := (bs.length + 63) / 64
  let bad (k : Nat) : Bool := ((bs.drop (64 * k)).take 64).any Prod.snd
  let mask := (List.range n).foldl (fun m k => if bad k then m + 2 ^ k else m) 0
  let data := (bs.zip (List.range bs.length)).map (fun x => if bad (x.2 / 64) then 0 else x.1.1)
  let c := if cmp && data.length = 512 then encodeBlock512 data else (0, data)
  leBytes 4 (field c.1 2 30 + field c.2.length 10 20 + field mask 8 12) ++ c.2

/-- Cuts a list into pieces of `n`. -/
def chunks {α : Type} (n : Nat) : Nat → List α → List (List α)
  | 0, _ => []
  | k + 1, l => if l.isEmpty then [] else l.take n :: chunks n k (l.drop n)

def chunksOf {α : Type} (n : Nat) (l : List α) : List (List α) := chunks n (l.length / n + 1) l

/-- The data a receiver gets: poisoned granules read zero. -/
def Msg.plain (m : Msg) : List Byte :=
  let d := chunksOf 64 m.data
  d.flatMap (fun g => if g.any Prod.snd then zeros g.length else g.map Prod.fst)

/-- The coded stream of a message and the offsets of its blocks, the trailer's last (R269). -/
def Msg.coded (m : Msg) : List Byte × List Nat :=
  let blocks := (chunksOf 512 m.data).map (codeBlock (bit m.flags 0))
  let ends := blocks.foldl (fun (acc : List Nat × Nat) b => (acc.1 ++ [acc.2], acc.2 + b.length)) ([], 32)
  (m.header ++ blocks.flatten ++ leBytes 4 (crc32c (m.header ++ m.plain)) ++ zeros 4, ends.1 ++ [ends.2])

/-! ## Ports -/

def Block.port (b : Block) (n : Nat) : Port := mget {} b.link.ports n
def Block.setPort (b : Block) (n : Nat) (x : Port) : Block := { b with link := { b.link with ports := mset {} b.link.ports n x } }
def Block.modPort (b : Block) (n : Nat) (f : Port → Port) : Block := b.setPort n (f (b.port n))
def Block.bumpPort (b : Block) (n off k : Nat) : Block := b.modPort n (fun p => { p with counters := bump p.counters off k })
def Block.bumpLink (b : Block) (off n : Nat) : Block := { b with link := { b.link with counters := bump b.link.counters off n } }

def Port.active (p : Port) : Bool := decide (p.state = 5) || decide (p.state = 6)

/-- The six ports of a direction (R14). -/
def dirPorts (d : Nat) : List Nat := (List.range 6).map (fun k => 6 * d + k)

/-- A class-6 record (R280). -/
def Block.linkEvent (b : Block) (e : Env) (code sev part port dir peer : Nat) (more : List (Nat × Nat × Nat)) : Block :=
  b.post e { cls := 6, sev := sev, code := code, part := part, source := if port < 36 then 0x20 + port else 0x20
             payload := [(24, 1, port), (25, 1, dir), (26, 2, peer)] ++ more }

/-- The key of a message on a link: VC and MTAG. -/
def tagKey (vc mtag : Nat) : Nat := 1024 * vc + mtag

/-- Buffer of a VC per class, in flits (R262). -/
def vcBuffer (vc : Nat) : Nat := if vc = 0 then 32 else if vc = 3 then 16 else 512

/-- Whether a flit is sequenced (R257). -/
def sequenced (ftype : Nat) : Bool := ftype = 1 || ftype = 2 || ftype = 5

/-- Fills in what every flit carries: ACK and one credit return (R256). The return is no longer owed. -/
def Port.stamp (p : Port) (f : Flit) : Port × Flit :=
  let cr := p.owed.head?
  let k := (cr.map Prod.fst).getD 0
  let n := min 63 ((cr.map Prod.snd).getD 0)
  ({ p with owed := mmod 0 p.owed k (· - n) },
   ({ f with ack := (p.rxSeq + 4095) % 4096, crVc := k / 2, crCls := k % 2, crCount := n }).sealed)

/-- Sends one flit that is not sequenced. -/
def Block.sendPlain (b : Block) (n : Nat) (f : Flit) : Block :=
  let r := (b.port n).stamp f
  (b.setPort n r.1).emit (.flit n r.2)

/-- Sends a NAK that names the SEQ a port expects (R259). -/
def Block.sendNak (b : Block) (e : Env) (n : Nat) : Block :=
  let p := b.port n
  (b.setPort n { p with nakOpen := true, nakAt := e.clk.now }).sendPlain n
    { Flit.idle with ftype := 3, payload := leBytes 2 p.rxSeq }

/-- The next flit that may go (R265): VC0, VC3, then VC1 and VC2, with a credit. -/
def Port.choose (p : Port) : Option (Nat × TxFlit) :=
  [0, 3, 1, 2].findSome? (fun v =>
    match mget [] p.waiting v with
    | f :: _ => if 0 < mget 0 p.credits (2 * v + f.flit.cls) then some (v, f) else none
    | [] => none)

/-- Fills flit slots while a flit, a credit and a place in the replay buffer are there (R259, R262, R265). -/
def Block.pumpFuel (n : Nat) : Nat → Block → Block
  | 0, b => b
  | k + 1, b =>
    let p := b.port n
    if !p.active then b
    else if 512 ≤ p.replay.length then
      if p.waiting.isEmpty then b else b.bumpPort n 0x1A0 1
    else
      match p.choose with
      | some (v, f) =>
        let r := p.stamp { f.flit with seq := p.txSeq }
        let q := r.1
        let b := b.setPort n { q with
          txSeq := (q.txSeq + 1) % 4096
          credits := mmod 0 q.credits (2 * v + f.flit.cls) (· - 1)
          waiting := mset [] q.waiting v ((mget [] q.waiting v).drop 1)
          replay := q.replay ++ [{ f with flit := r.2 }] }
        Block.pumpFuel n k ((b.bumpPort n 0x100 1).emit (.flit n r.2))
      | none =>
        ((p.waiting.map Prod.fst).foldl (fun b v => b.bumpPort n (0x180 + 8 * v) 1) b)

def Block.pump (b : Block) (n : Nat) : Block :=
  Block.pumpFuel n (((b.port n).waiting.map (fun w => w.2.length)).sum + 1) b

/-! ## Routing (R264, R267, R268) -/

/-- The port that carries a message within a direction (R268). -/
def portHash (src mid : Nat) : Nat := (((src <<< 32) ||| mid) * 0x9E3779B97F4A7C15) % 2 ^ 64 / 2 ^ 32

def pick (src mid : Nat) (active : List Nat) : Option Nat := active[portHash src mid * active.length / 2 ^ 32]?

/-- The class of a hop (R264): 1 once the message has crossed the wrap link of the dimension it travels in. -/
def Topology.classOf (t : Topology) (src next dir : Nat) : Nat :=
  match t.coord src, t.coord next with
  | some (xs, ys, zs), some (x, y, z) =>
    let s := if dir < 2 then xs else if dir < 4 then ys else zs
    let n := if dir < 2 then x else if dir < 4 then y else z
    b2n (if dir % 2 = 0 then n < s else s < n)
  | _, _ => 0

/-- The flits of a coded stream from an offset on, under a VC, class and MTAG; holes become DROPPED flits (R260). -/
def dataFlits (vc cls mtag : Nat) (cmp : Bool) (size from_ : Nat) (bs : List Byte) : List TxFlit :=
  (chunksOf 240 bs).zip (List.range (bs.length / 240 + 1)) |>.map (fun x =>
    let off := from_ + 240 * x.2
    { flit := { Flit.idle with ftype := 1, vc := vc, cls := cls, mtag := mtag, som := decide (off = 0)
                               eom := decide (off + x.1.length = size), cmp := cmp, len := x.1.length, payload := x.1 }
      off := off })

/-- A DROPPED payload (R261). -/
def droppedBytes (mtag src mid : Nat) (h : Hole) (hdr : Option (List Byte)) : List Byte :=
  leBytes 2 mtag ++ leBytes 2 src ++ leBytes 4 mid ++ leBytes 4 h.off ++ leBytes 4 h.len ++ leBytes 4 h.block
    ++ leBytes 4 h.at_ ++ leBytes 1 (b2n hdr.isSome) ++ zeros 7 ++ (hdr.getD [])

/-- The flits of a stream with holes: the bytes of a hole are not sent, a DROPPED flit stands in their place. -/
def holeFlits (vc cls mtag : Nat) (cmp : Bool) (hdr bs : List Byte) : List Hole → Nat → List TxFlit
  | [], at_ => dataFlits vc cls mtag cmp bs.length at_ (bs.drop at_)
  | h :: hs, at_ =>
    dataFlits vc cls mtag cmp bs.length at_ ((bs.drop at_).take (h.off - at_))
      ++ [{ flit := { Flit.idle with ftype := 2, vc := vc, cls := cls, mtag := mtag
                                     som := decide (h.off = 0), eom := decide (h.off + h.len = bs.length)
                                     payload := droppedBytes mtag (leAt hdr 2 2) (leAt hdr 12 4) h
                                       (if h.off < 32 then some hdr else none) }
            off := h.off }]
      ++ holeFlits vc cls mtag cmp hdr bs hs (h.off + h.len)

/-- Queues a coded stream on a port under a new MTAG. -/
def Block.queueStream (b : Block) (n cls : Nat) (hdr bs : List Byte) (blocks : List Nat) (holes : List Hole) (cmp : Bool) :
    Block :=
  let vc := vcOf (leAt hdr 0 1)
  let p := b.port n
  let tag := mget 0 p.tags vc
  let fs := holeFlits vc cls tag cmp hdr bs holes 0
  (b.setPort n { p with
    tags := mset 0 p.tags vc ((tag + 1) % 1024)
    waiting := mset [] p.waiting vc (mget [] p.waiting vc ++ fs)
    tx := mset {} p.tx (tagKey vc tag) { hdr := hdr, blocks := blocks, size := bs.length } }).pump n

/-- UNREACHABLE (R255): counted, its record once per campus millisecond per destination. -/
def Block.unreachable (b : Block) (e : Env) (dst dir : Nat) : Block :=
  let b := b.bumpLink 0x2108 1
  if limited b.link.lastEvt e (0xD0000 + dst) then b
  else
    ({ b with link := { b.link with lastEvt := mset 0 b.link.lastEvt (0xD0000 + dst) (e.ms + 1) } }).linkEvent
      e 0xD 1 15 0xFF dir 0xFFFF [(28, 2, dst)]

/-- Sends a message on its next hop (R255, R267, R268): to the inbox when this device is its destination, dropped when the
direction is lost or the table has no route, held while the direction has no active port. -/
def Block.launch (b : Block) (e : Env) (m : Msg) : Block :=
  if m.dst = b.topo.self then { b with link := { b.link with inbox := b.link.inbox ++ [(0xFF, m)] } }
  else
    match b.topo.nextHop b.topo.self m.dst with
    | none => b.unreachable e m.dst 0xFF
    | some (next, dir) =>
      if bit b.link.lost dir then b.unreachable e m.dst dir
      else
        match pick m.src m.mid ((dirPorts dir).filter (fun n => (b.port n).active)) with
        | none => { b with link := { b.link with held := mset [] b.link.held dir (mget [] b.link.held dir ++ [m]) } }
        | some n =>
          let c := m.coded
          let b := if bit m.flags 0 then (b.bumpPort n 0x120 m.data.length).bumpPort n 0x128 (c.1.length - 40) else b
          (b.bumpPort n 0x110 m.data.length).queueStream n (b.topo.classOf m.src next dir) m.header c.1 c.2 [] (bit m.flags 0)

/-- Sends a message of this device under its next message ID (R270). -/
def Block.sendMsg (b : Block) (e : Env) (m : Msg) : Block :=
  let mid := b.msgs.mid
  ({ b with msgs := { b.msgs with mid := (mid + 1) % 2 ^ 32 } }).launch e { m with mid := mid, src := b.topo.self }

end Sys2Proof.Machine
end

