-- ==== Sys2Proof/Machine/Sync.lean ====
section
/-! DEFINITION. Sync objects (R322 to R327): counters, locks, sequence locks, guard slots. -/
namespace Sys2Proof.Machine

def Block.obj (b : Block) (n : Nat) : SyncObj := mget {} b.syn.objs n
def Block.setObj (b : Block) (n : Nat) (o : SyncObj) : Block := { b with syn := { b.syn with objs := mset {} b.syn.objs n o } }
def Block.slot (b : Block) (k : Nat) : Slot := mget {} b.syn.slots k
def Block.setSlot (b : Block) (k : Nat) (s : Slot) : Block := { b with syn := { b.syn with slots := mset {} b.syn.slots k s } }
def Block.bumpSyn (b : Block) (off n : Nat) : Block := { b with syn := { b.syn with counters := bump b.syn.counters off n } }

/-- A class-5 record of R332, limited to one per campus millisecond per code and requester; that of a hub unit names the
device. -/
def Block.syncEvent (b : Block) (e : Env) (code id part obj : Nat) (more : List (Nat × Nat × Nat)) : Block :=
  let key := code * 65536 + id
  if limited b.syn.lastEvt e key then b.bumpSyn 0x20 1
  else
    ({ b with syn := { b.syn with lastEvt := mset 0 b.syn.lastEvt key (e.ms + 1) } }).post e
      { cls := 5, sev := 1, code := code, part := if id / 8192 = 5 then 15 else part, source := 0x18
        payload := [(24, 2, obj), (26, 2, id)] ++ more }

/-- A refused sync operation (R322): counted, SYNC_ACCESS_REFUSED with its reason. -/
def Block.syncRefuse (b : Block) (e : Env) (id part obj reason : Nat) : Block :=
  (b.bumpSyn 0 1).syncEvent e 6 id part obj [(28, 1, reason)]

/-- Whether a requester's partition may operate on an object (R322). -/
def SyncObj.reach (o : SyncObj) (part : Nat) : Bool := part = 15 || o.part = part

/-- ADD of R323 by any agent; refused with the reasons of R322. -/
def Block.syncAdd (b : Block) (e : Env) (id part n amount : Nat) : Block :=
  let o := b.obj n
  if !o.reach part then b.syncRefuse e id part n 0
  else if o.mode ≠ 0 then b.syncRefuse e id part n 1
  else b.setObj n { o with val := (o.val + amount) % 2 ^ 64 }

/-- SET of R323. -/
def Block.syncSet (b : Block) (e : Env) (id part n v : Nat) : Block :=
  let o := b.obj n
  if !o.reach part then b.syncRefuse e id part n 0
  else if o.mode ≠ 0 then b.syncRefuse e id part n 1
  else b.setObj n { o with val := v % 2 ^ 64 }

/-- The result of an acquire (R324). -/
inductive Acquired where
  | granted | orphan | busy | refused
deriving DecidableEq, Repr

/-- Acquires a lock for a requester (R324). -/
def Block.syncAcquire (b : Block) (e : Env) (id part n : Nat) : Block × Acquired :=
  let o := b.obj n
  if !o.reach part then (b.syncRefuse e id part n 0, .refused)
  else if o.mode = 0 then (b.syncRefuse e id part n 1, .refused)
  else if o.state = 1 then (b, .busy)
  else
    let b' := b.setObj n { o with state := 1, holder := id, holderPart := part }
    if o.state = 2 then (b'.syncEvent e 3 id part n [], .orphan) else (b', .granted)

/-- The guard slot that names an object. -/
def Block.slotOf (b : Block) (n : Nat) : Option Nat :=
  (List.range 64).find? (fun k => (b.slot k).valid && decide ((b.slot k).obj = n))

/-- Publishes the staged bytes of a slot: every one becomes part of its line at once (R325). -/
def Block.publish (b : Block) (e : Env) (k : Nat) : Block :=
  let s := b.slot k
  let b := b.setSlot k { s with staged := [] }
  let b := ((s.staged.map (fun p => p.1 / 128)).eraseDups).foldl (fun b l => b.setLine l .d) b
  s.staged.foldl (fun b p => b.writeGranule e p.1 [BitVec.ofNat 8 (p.2 - 1)] false false) b

/-- Releases a lock (R324, R325): only its holder may; a sequence lock publishes its staged lines. -/
def Block.syncRelease (b : Block) (e : Env) (id part n : Nat) : Block :=
  let o := b.obj n
  if !o.reach part then b.syncRefuse e id part n 0
  else if o.mode = 0 then b.syncRefuse e id part n 1
  else if !(decide (o.state = 1) && decide (o.holder = id) && decide (o.holderPart = part)) then b.syncRefuse e id part n 3
  else
    let b := b.setObj n { o with state := 0, holder := 0, holderPart := 0 }
    if o.mode = 2 then
      match b.slotOf n with
      | some k => b.publish e k
      | none => b
    else b

/-- What the holder's reset or its abandoned command does to a held lock (R324, R325, R327): a lock becomes orphaned,
a sequence lock discards its staged lines and returns to free. -/
def Block.orphanLock (b : Block) (e : Env) (n : Nat) : Block :=
  let o := b.obj n
  if o.state ≠ 1 then b
  else if o.mode = 2 then
    let k := b.slotOf n
    let staged := (k.map (fun k => (b.slot k).staged)).getD []
    let lines := ((staged.map (fun p => p.1 / 128)).eraseDups).length
    let b := match k with
      | some k => b.setSlot k { b.slot k with staged := [] }
      | none => b
    let b := ((staged.map (fun p => p.1 / 128)).eraseDups).foldl (fun b l => b.setLine l .i) b
    let b := b.setObj n { o with state := 0, holder := 0, holderPart := 0 }
    (b.bumpSyn 0x10 1).syncEvent e 4 o.holder o.holderPart n [(28, 2, o.holder), (32, 2, lines)]
  else
    let b := b.setObj n { o with state := 2 }
    (b.bumpSyn 0x08 1).syncEvent e 2 o.holder o.holderPart n [(28, 2, o.holder)]

/-- Orphans every lock whose holder satisfies `p` (R327). -/
def Block.orphanWhere (b : Block) (e : Env) (p : SyncObj → Bool) : Block :=
  (b.syn.objs.filter (fun q => decide (q.2.state = 1) && p q.2)).foldl (fun b q => b.orphanLock e q.1) b

/-- A write of MODE (R322). -/
def Block.syncMode (b : Block) (e : Env) (id part n mode : Nat) : Block :=
  let o := b.obj n
  if !o.reach part then b.syncRefuse e id part n 0
  else if mode = 3 then b.syncRefuse e id part n 4
  else if mode = o.mode then b
  else if o.mode ≠ 0 && o.state ≠ 0 then b.syncRefuse e id part n 4
  else if mode = 2 && (b.slotOf n).isNone then b.syncRefuse e id part n 2
  else b.setObj n { o with mode := mode, val := 0, state := 0, holder := 0, holderPart := 0 }

/-- The step-gate reset of a step-scoped counter (R149, R323). -/
def Block.syncGateReset (b : Block) (n : Nat) : Block := b.setObj n { b.obj n with val := 0 }

/-- Whether a slot's new contents keep the rules of R325. -/
def Block.slotOk (b : Block) (part k : Nat) (s : Slot) : Bool :=
  let old := b.slot k
  let oldObj := b.obj old.obj
  let newObj := b.obj s.obj
  let lo := s.base
  let hi := s.base + 64 * s.len
  let guarded := old.valid && decide (oldObj.mode = 2)
  (decide (part = 15) || decide (old.part = part)) &&
  (decide (part = 15) || decide (s.part = old.part)) &&
  (!old.valid || decide (oldObj.state = 0)) &&
  (!s.valid || decide (newObj.state = 0)) &&
  (!guarded || (s.valid && decide (s.obj = old.obj))) &&
  (!s.valid || (decide (s.base % 64 = 0) && decide (1 ≤ s.len) && decide (s.len ≤ 64)
    && decide (lo / 4096 = (hi - 1) / 4096) && (decide (part = 15) || decide (newObj.part = part)))) &&
  (!s.valid || (List.range 64).all (fun j =>
    let t := b.slot j
    decide (j = k) || !t.valid ||
      ((decide (hi ≤ t.base) || decide (t.base + 64 * t.len ≤ lo)) && decide (t.obj ≠ s.obj))))

/-- A write of a guard slot (R325): applied whole, or refused with reason 5. -/
def Block.slotWrite (b : Block) (e : Env) (id part k : Nat) (s : Slot) : Block :=
  if b.slotOk part k s then b.setSlot k { s with staged := (b.slot k).staged }
  else (b.bumpSyn 0 1).syncEvent e 6 id part s.obj [(28, 1, 5)]

end Sys2Proof.Machine
end

