-- ==== Sys2Proof/Machine/Cell.lean ====
section
/-! DEFINITION. One cell: op table (R66, R67), local store (R377), matrix passes (R70 to R74), spills (R76), overflow
(R77, R78), chains (R80), drains (R81, R82), and the save record (R86). -/
namespace Sys2Proof.Machine

/-- An op-table entry, by the layout of R66. -/
structure OpEntry where
  valid : Bool
  opc : Nat
  fmtA : Nat
  fmtB : Nat
  fmtOut : Nat
  fmtEpi : Nat
  rnd : Nat
  sat : Bool
  rule1 : Bool
  transB : Bool
  tensor : Nat
  scale : Nat
  exp : Int
  autoExp : Bool
  accInit : Bool
  spillEvery : Nat
  chainIn : Nat
  chainOut : Nat
  epiOp : Nat
  accBase : Nat
  mc : Nat
  lsA : Nat
  lsB : Nat
  lsOut : Nat
  lsEpi : Nat
  lsSpill : Nat
  expSlot : Nat
  vd : Nat
  va : Nat
  vb : Nat
  vc : Nat
  aSrc : Nat
  bSrc : Nat
  outDst : Nat
deriving DecidableEq, Repr

/-- The fields of R66; local-store addresses in bytes. -/
def OpEntry.ofBits (v : Nat) : OpEntry where
  valid := bit v 255
  opc := bits v 254 249
  fmtA := bits v 248 244
  fmtB := bits v 243 239
  fmtOut := bits v 238 234
  fmtEpi := bits v 233 229
  rnd := bits v 228 227
  sat := bit v 226
  rule1 := bit v 225
  transB := bit v 224
  tensor := bits v 223 192
  scale := bits v 191 160
  exp := sext 10 (bits v 159 150)
  autoExp := bit v 149
  accInit := bit v 148
  spillEvery := bits v 147 136 + 1
  chainIn := bits v 135 133
  chainOut := bits v 132 130
  epiOp := bits v 129 128
  accBase := bits v 127 119
  mc := bits v 118 113 + 1
  lsA := 16 * bits v 112 103
  lsB := 16 * bits v 102 93
  lsOut := 16 * bits v 92 83
  lsEpi := 16 * bits v 82 73
  lsSpill := 16 * bits v 72 63
  expSlot := bits v 62 52
  vd := bits v 51 48
  va := bits v 47 44
  vb := bits v 43 40
  vc := bits v 39 36
  aSrc := bits v 35 33
  bSrc := bits v 32 30
  outDst := bits v 29 27

def fmtOf (code : Nat) : Fmt := (Fmt.ofCode code).getD .fp32

/-- What a cell operation reads from its job: the exposure its entry names (R72), before any replay, and the key of
its stochastic rounding (R48, R49); and the seed of its bracketing LFSR (R385). -/
structure CellCtx where
  exposure : Int
  key : SrKey
  seed : Nat
deriving DecidableEq, Repr

/-- Adds to a counter of R89, by its place in the table. -/
def Cell.count (c : Cell) (k n : Nat) : Cell := { c with counters := bump c.counters k n }

/-! ## Local store (R377): 32 B words, addresses modulo 16 KiB -/

/-- Reads local-store bytes with their words' poison marks. -/
def Cell.lsRead (c : Cell) (a : Nat) : Nat → List (Byte × Bool)
  | 0 => []
  | n + 1 =>
    let k := a % 16384
    let p := mget false c.lsPoison (k / 32)
    (if p then 0 else mget 0 c.ls k, p) :: Cell.lsRead c (a + 1) n

/-- Writes the bytes of one 32 B word, by the rules of R377. -/
def Cell.lsWord (c : Cell) (a : Nat) (bs : List (Byte × Bool)) : Cell :=
  let k := a % 16384
  let w := k / 32
  if bs.any Prod.snd then
    { c with ls := putBytes c.ls (32 * w) (zeros 32), lsPoison := mset false c.lsPoison w true }
  else if mget false c.lsPoison w && bs.length < 32 then c
  else { c with ls := putBytes c.ls k (bs.map Prod.fst), lsPoison := mset false c.lsPoison w false }

def Cell.lsFuel : Nat → Cell → Nat → List (Byte × Bool) → Cell
  | 0, c, _, _ => c
  | f + 1, c, a, bs =>
    if bs.isEmpty then c
    else
      let k := min bs.length (32 - a % 32)
      Cell.lsFuel f (c.lsWord a (bs.take k)) (a + k) (bs.drop k)

/-- Writes local-store bytes word by word. -/
def Cell.lsWrite (c : Cell) (a : Nat) (bs : List (Byte × Bool)) : Cell :=
  Cell.lsFuel (bs.length / 32 + 2) c a bs

/-! ## Accumulator entries -/

def Cell.accAt (c : Cell) (i : Nat) : Acc := mget {} c.acc i
def Cell.setAcc (c : Cell) (i : Nat) (a : Acc) : Cell := { c with acc := mset {} c.acc i a }
def Cell.group (c : Cell) (base : Nat) : Option Group := mget none c.groups base
def Cell.setGroup (c : Cell) (base : Nat) (g : Option Group) : Cell := { c with groups := mset none c.groups base g }

/-- The ACC96 spill word `m` at a local-store address: value, side state (the non-finite pattern counts as NaN,
R76) and poison. -/
def Cell.spillWord (c : Cell) (ls m : Nat) : Int × Side × Bool :=
  let bs := c.lsRead (ls + 12 * m) 12
  let p := acc96Of (leNat (bs.map Prod.fst))
  (p.1, p.2, bs.any Prod.snd)

def Cell.setSpill (c : Cell) (ls m : Nat) (v : Int) : Cell :=
  c.lsWrite (ls + 12 * m) (clean (leBytes 12 (twos 96 v)))

/-- Whether an add into the window or into a spill word starts a replay (R77) or gives an overflow result (R78):
the group began with ACC_INIT = 0, no overflow result is in force, and the raised exposure stays at or below 511. -/
def Group.mayReplay (g : Group) (e : Int) : Bool :=
  !g.init && !g.final && decide (g.raised < 3) && decide (e + 8 * (g.raised + 1) ≤ 511)

/-- What a run of adds in a cell answers: the cell, whether a replay starts, how many entries took an overflow
result, and whether a poisoned value was taken in. -/
structure CellRun where
  cell : Cell
  replay : Bool := false
  overs : Nat := 0
  poisoned : Bool := false
deriving DecidableEq, Repr

/-- Marks entry `i` as overflowed with the sign of `v`, once (R78). -/
def CellRun.overflow (r : CellRun) (g : Group) (e : Int) (i : Nat) (v : Int) : CellRun :=
  if g.mayReplay e then { r with replay := true }
  else
    let a := r.cell.accAt i
    match a.ovfl with
    | some _ => r
    | none => { r with cell := (r.cell.setAcc i { a with ovfl := some (decide (v < 0)) }).count 4 1, overs := r.overs + 1 }

/-- Adds `v` LSBs and a side state into entry `i` with the check of R77. -/
def CellRun.add (r : CellRun) (g : Group) (e : Int) (i : Nat) (v : Int) (s : Side) (poison : Bool) : CellRun :=
  let a := r.cell.accAt i
  let t := a.val + v
  let r := { r with
    cell := r.cell.setAcc i { a with val := sext 64 (twos 64 t), side := a.side.merge s, poison := a.poison || poison }
    poisoned := r.poisoned || poison }
  if overflow64 t then r.overflow g e i t else r

/-- The rows of the slower class: 0 the 4-bit class, 1 the 8-bit, 2 the 16-bit, 3 FP32 (R70). -/
def Fmt.cls : Fmt → Nat
  | .mx4 | .int4 => 0
  | .fp32 => 3
  | .bf16 | .fp16 => 2
  | _ => 1

/-- The K tile of a pass (R70): 16 when both operands are of the 4-bit class, otherwise 8. -/
def kTile (fa fb : Fmt) : Nat := if fa.cls = 0 && fb.cls = 0 then 16 else 8

/-- Bytes of one row of an A tile: its block's scale, then its elements. -/
def rowBytesA (fa : Fmt) (kt : Nat) : Nat := fa.scaleBytes + fa.packed kt

/-- Bytes of a weight tile: its elements, then one scale for each of its 8 columns. -/
def tileBytesB (fb : Fmt) (kt : Nat) : Nat := fb.packed (8 * kt) + 8 * fb.scaleBytes

/-- One element of an operand: its value, its poison, and whether it counts a format error. -/
structure Elem where
  val : Num
  poison : Bool
  err : Bool
deriving DecidableEq, Repr

/-- Row `i` of an A tile. -/
def aRow (fa : Fmt) (kt : Nat) (bs : List (Byte × Bool)) (i : Nat) : List Elem :=
  let w := rowBytesA fa kt
  let row := padTo w ((bs.map Prod.fst).drop (w * i))
  let pz := ((bs.drop (w * i)).take w).any Prod.snd
  let sc := leAt row 0 fa.scaleBytes
  (List.range kt).map (fun k =>
    let v := elemValue fa sc (elemRaw fa (row.drop fa.scaleBytes) k)
    ⟨v.1, pz, v.2⟩)

/-- Column `j` of a weight tile, k ascending; TRANS_B exchanges the indices (R71). -/
def bCol (fb : Fmt) (kt : Nat) (trans : Bool) (bs : List (Byte × Bool)) (j : Nat) : List Elem :=
  let raw := bs.map Prod.fst
  let sc := leAt raw (fb.packed (8 * kt) + j * fb.scaleBytes) fb.scaleBytes
  let scp := ((bs.drop (fb.packed (8 * kt) + j * fb.scaleBytes)).take fb.scaleBytes).any Prod.snd
  (List.range kt).map (fun k =>
    let n := if trans then j * kt + k else 8 * k + j
    let v := elemValue fb sc (elemRaw fb raw n)
    ⟨v.1, scp || ((bs.drop (n * fb.elemBits / 8)).take (ceilDiv fb.elemBits 8)).any Prod.snd, v.2⟩)

/-- One sum of a pass: Σ A[i][k]·B[k][j] in the window at exposure `e` (R52), its side state and poison. -/
def dot (e : Int) (xs ys : List Elem) : Int × Side × Bool :=
  (xs.zip ys).foldl (fun acc p =>
    let q := p.1.val.mul p.2.val
    (acc.1 + (if q.isFinite then toWindow e q else 0), acc.2.1.merge (Side.ofNum q),
      acc.2.2 || p.1.poison || p.2.poison)) (0, .finite, false)

/-- The largest product exponent of a sum plus 32,768; 0 where no finite non-zero product was seen (R73). -/
def dotExponent (xs ys : List Elem) : Nat :=
  (xs.zip ys).foldl (fun m p =>
    match p.1.val.mul p.2.val with
    | .fin _ n d => if n = 0 then m else max m (floorLog2 n d + 32768).toNat
    | _ => m) 0

/-- The indices of the entries of a pass: row, column. -/
def tilePairs (mc : Nat) : List (Nat × Nat) :=
  (List.range mc).flatMap (fun i => (List.range 8).map (fun j => (i, j)))

/-- The capture of a spill (R76): every entry's value leaves the entry, whose tag stays. -/
def CellRun.capture (r : CellRun) (o : OpEntry) (g : Group) : CellRun :=
  let is := List.range (8 * o.mc)
  let vals := is.map (fun m => (r.cell.accAt (o.accBase + m)).val)
  let c := is.foldl (fun c m => c.setAcc (o.accBase + m) { c.accAt (o.accBase + m) with val := 0 }) r.cell
  { r with cell := { c with spills := c.spills ++ [{ base := o.accBase, ls := g.ls, fresh := !g.spilled && !g.init, vals := vals }] } }

/-- The end of a spill drain (R76): the captured values are added to the ACC96 words; the first spill of a group that
began with ACC_INIT = 0 writes them. A word that holds the non-finite pattern merges NaN, a poisoned one its poison. -/
def CellRun.commit (r : CellRun) (e : Int) (s : SpillRun) : CellRun :=
  let g := (r.cell.group s.base).getD { init := true }
  (s.vals.zip (List.range s.vals.length)).foldl (fun r p =>
    let i := s.base + p.2
    let a := r.cell.accAt i
    let (w, sd, pz) := r.cell.spillWord s.ls p.2
    let t := if s.fresh then p.1 else w + p.1
    let a' := if s.fresh then a else { a with side := a.side.merge sd, poison := a.poison || pz }
    let r := { r with cell := (r.cell.setSpill s.ls p.2 t).setAcc i a' }
    if overflow96 t then r.overflow g e i t else r) r

/-- Ends every spill drain of a cell, oldest first. -/
def CellRun.commitAll (r : CellRun) (e : Int) : CellRun :=
  r.cell.spills.foldl (fun r s => r.commit e s) { r with cell := { r.cell with spills := [] } }

/-- The group that a pass of entry `at_` belongs to (R74, R77): a first pass opens it, keeping what a restart raised; any other
pass goes on with it. -/
def Cell.openGroup (c : Cell) (o : OpEntry) (at_ : Nat) (first : Bool) : Group :=
  let fresh : Group := { entry := at_, ls := o.lsSpill, init := o.accInit }
  match c.group o.accBase with
  | some g =>
    if !first then g
    else if g.passes = 0 then { g with entry := at_, ls := o.lsSpill, init := o.accInit }
    else fresh
  | none => if first then fresh else { fresh with init := true }

/-- One matrix pass (R70, R74, R76): opens the group on its first pass, spills when the interval has come, and adds the
products of the rows of A and the columns of the weight tile. `at_` is the op-table entry's number; `taken` are the bytes that
the pass consumed. -/
def Cell.mmaElems (c : Cell) (x : CellCtx) (o : OpEntry) (at_ : Nat) (first : Bool) (rows cols : List (List Elem))
    (taken : List Byte) : CellRun :=
  let g := c.openGroup o at_ first
  let e := x.exposure + 8 * g.raised
  let c := if first && !o.accInit then
      (List.range (8 * o.mc)).foldl (fun c m => c.setAcc (o.accBase + m) {}) c
    else c
  let spillNow := g.passes ≠ 0 && g.passes % o.spillEvery = 0
  let r : CellRun := { cell := c }
  let r := if spillNow then (r.commitAll x.exposure).capture o g else r
  let g := if spillNow then { g with spilled := true } else g
  let r := (tilePairs o.mc).foldl (fun r p =>
    let d := dot e (rows.getD p.1 []) (cols.getD p.2 [])
    r.add g x.exposure (o.accBase + 8 * p.1 + p.2) d.1 d.2.1 d.2.2) r
  let errs := (rows.flatMap id ++ cols.flatMap id).filter (fun z => z.err)
  let c := (r.cell.count 0 (8 * kTile (fmtOf o.fmtA) (fmtOf o.fmtB) * o.mc)).count 6 errs.length
  let top := if o.autoExp && decide (g.seen ≤ g.passes) then
      rows.foldl (fun m xs => cols.foldl (fun m ys => max m (dotExponent xs ys)) m) 0 else 0
  let c := { c with autoExp := mset 0 c.autoExp at_ (max (mget 0 c.autoExp at_) top) }
  let log := (if g.passes = 0 then [] else g.log) ++ taken
  let g' := { g with
    passes := g.passes + 1
    final := g.final || r.overs ≠ 0
    consumed := g.consumed || r.poisoned
    log := log }
  { r with
    cell := c.setGroup o.accBase (some g')
    poisoned := r.poisoned && !g.consumed }

/-- One matrix pass from the bytes of its A rows and weight tile. -/
def Cell.mmaPass (c : Cell) (x : CellCtx) (o : OpEntry) (at_ : Nat) (first : Bool) (ta tb : List (Byte × Bool)) : CellRun :=
  let fa := fmtOf o.fmtA
  let fb := fmtOf o.fmtB
  let kt := kTile fa fb
  c.mmaElems x o at_ first ((List.range o.mc).map (aRow fa kt ta)) ((List.range 8).map (bCol fb kt o.transB tb))
    (ta.map Prod.fst ++ tb.map Prod.fst)

/-- A group at its restart (R77): exposure 8 higher, nothing done, and a record of the passes that had run (R73). -/
def Group.restart (g : Group) : Group :=
  { g with raised := min 3 (g.raised + 1), passes := 0, seen := max g.seen g.passes, spilled := false }

/-- The entry as it serves the `t`-th tile of 8 columns that a DRAIN spans (R82): entries and spill words of its own. -/
def OpEntry.tile (o : OpEntry) (t : Nat) : OpEntry :=
  { o with accBase := o.accBase + 8 * o.mc * t, lsSpill := o.lsSpill + 96 * o.mc * t }

/-- Clears a group for its restart at the next exposure and counts the replay (R77). -/
def Cell.replayGroup (c : Cell) (o : OpEntry) : Cell :=
  match c.group o.accBase with
  | none => c
  | some g =>
    if g.init then c
    else
      let c := (List.range (8 * o.mc)).foldl
        (fun c m => (c.setAcc (o.accBase + m) {}).setSpill g.ls m 0)
        { c with spills := c.spills.filter (fun s => s.base ≠ o.accBase) }
      ((c.setGroup o.accBase (some (g.restart))).count 2 1).count 3 (8 * (8 * o.mc))

/-- The total of entry `m` of a group (R76, R80, R81): the entry and, where the group has spilled, holds a chain's sums or
began by adding, its spill word. -/
def Cell.total (c : Cell) (o : OpEntry) (base m : Nat) : ChainSum :=
  let a := c.accAt (base + m)
  let g := (c.group base).getD { ls := o.lsSpill, init := o.accInit }
  if g.spilled || g.kept || g.init then
    let (w, s, p) := c.spillWord g.ls m
    { val := w + a.val, side := a.side.merge s, poison := a.poison || p, ovfl := a.ovfl }
  else { val := a.val, side := a.side, poison := a.poison, ovfl := a.ovfl }

/-- The LFSR of R385: x^32 + x^22 + x^2 + x + 1. -/
def lfsrStep (s : Nat) : Nat :=
  let n := (if bit s 31 then 1 else 0) ^^^ (if bit s 21 then 1 else 0) ^^^ (if bit s 1 then 1 else 0) ^^^ (if bit s 0 then 1 else 0)
  (s * 2 + n) % 2 ^ 32

/-- The end of the accumulation group at `base` in a DRAIN or CHAIN, with its totals: the LFSR advances and may sample it
(R385). A chain's sums that a tail kept are no group: theirs ended at the CHAIN. -/
def Cell.endGroup (c : Cell) (x : CellCtx) (base : Nat) (brkN : Option Nat) (sums : List ChainSum) : Cell :=
  match c.group base with
  | none => c
  | some g =>
    if g.kept then c
    else
      let s := lfsrStep (c.lfsr.getD x.seed)
      let c : Cell := { c with lfsr := some s }
      match brkN with
      | some n =>
        if s % 2 ^ n = 0 then
          let taken : Sampled :=
            { entry := g.entry, exposure := x.exposure + 8 * g.raised, count := sums.length, log := g.log
              totals := sums.flatMap (fun t => leBytes 12 (twos 96 t.val)) ++ sums.flatMap (fun t => leBytes 1 t.side.code) }
          { c with sampled := c.sampled ++ [taken] }
        else c
      | none => c

/-- CHAIN (R80): the cell's totals plus the sums arriving; the sums that leave, and the cell, which keeps them in its
spill words when it ends the chain. An ACC96 overflow on the way gives an overflow result (R78). -/
def Cell.chainOp (c : Cell) (x : CellCtx) (o : OpEntry) (brkN : Option Nat) : CellRun × List ChainSum :=
  let incoming := if o.chainIn = 0 then [] else mget [] c.chain o.chainIn
  let sums := (List.range (8 * o.mc)).map (fun m =>
    let t := c.total o o.accBase m
    match incoming[m]? with
    | some s =>
      let v := t.val + s.val
      let ovfl := match t.ovfl, s.ovfl with
        | some k, _ => some k
        | none, some k => some k
        | none, none => if overflow96 v then some (decide (v < 0)) else none
      ({ val := v, side := t.side.merge s.side, poison := t.poison || s.poison, ovfl := ovfl } : ChainSum)
    | none => t)
  let overs := (sums.zip (List.range sums.length)).filter
    (fun p => p.1.ovfl.isSome && (c.accAt (o.accBase + p.2)).ovfl.isNone)
  let g := (c.group o.accBase).getD {}
  let c := (c.endGroup x o.accBase brkN sums).count 4 overs.length
  let c := if o.chainIn = 0 then c else { c with chain := mset [] c.chain o.chainIn (incoming.drop (8 * o.mc)) }
  let pz := incoming.any (fun s => s.poison) || sums.any (fun s => s.poison) && !g.consumed
  if o.chainOut = 0 then
    let c := (sums.zip (List.range sums.length)).foldl (fun c p =>
      (c.setSpill o.lsSpill p.2 p.1.val).setAcc (o.accBase + p.2)
        { val := 0, side := p.1.side, poison := p.1.poison, ovfl := p.1.ovfl }) c
    let c := c.setGroup o.accBase (some { g with ls := o.lsSpill, kept := true, passes := max 1 g.passes, consumed := g.consumed || pz })
    ({ cell := c, overs := overs.length, poisoned := pz }, [])
  else ({ cell := c.setGroup o.accBase none, overs := overs.length, poisoned := pz }, sums)

/-- Steps 2 and 3 of R81: epilogue in the window, then SCALE, both exact but for R55's rounding. -/
def epilogue (o : OpEntry) (e : Int) (v epi : Num) : Num :=
  let v := if o.epiOp = 1 then
      (match v, epi with
       | .fin _ _ _, .fin _ _ _ => ofWindow e (toWindow e v + toWindow e epi)
       | _, _ => v.add epi)
    else if o.epiOp = 2 then v.mul epi else v
  let v := if o.scale = 0x3F800000 then v else v.mul (fp32 o.scale)
  if v.isZero then .zero else v

/-- One drained value before its conversion. -/
def drainSrc (o : OpEntry) (e : Int) (t : ChainSum) (epi : Num) : Src :=
  if t.side = .finite then
    match t.ovfl with
    | some neg => .ovf neg
    | none => .num (epilogue o e (ofWindow e t.val) epi)
  else .num (epilogue o e (t.side.onto .zero) epi)

/-- A raw ACC64 or ACC96 output at the nominal exposure (R78, R82): shifted back by the raised exposure when it fits. -/
def drainRaw (w : Nat) (raised : Nat) (t : ChainSum) : Nat × Bool :=
  if t.side ≠ .finite then (accPattern w, false)
  else
    let v := t.val * 2 ^ (8 * raised)
    match t.ovfl with
    | some neg => (twos w (if neg then -(2 ^ (w - 1) - 1) else 2 ^ (w - 1) - 1), false)
    | none =>
      if 2 ^ (w - 1) ≤ v.natAbs then (twos w (if v < 0 then -(2 ^ (w - 1) - 1) else 2 ^ (w - 1) - 1), true)
      else (twos w v, false)

/-- Tiles of 8 columns that a DRAIN spans (R82). -/
def drainTiles (f : Fmt) : Nat := if f.block = 1 then 1 else f.block / 8

/-- Bytes of `n` elements of a row as the cell stores them: each block's scale before its elements. -/
def storedBytes (f : Fmt) (n : Nat) : Nat := ceilDiv n f.block * f.scaleBytes + f.packed n

/-- Reads row `i` of an epilogue tensor of `n` elements from its bytes. -/
def epiRow (f : Fmt) (n : Nat) (bs : List (Byte × Bool)) (i : Nat) : List Elem :=
  let w := storedBytes f n
  let row := (bs.drop (w * i)).take w
  let raw := padTo w (row.map Prod.fst)
  let bw := f.scaleBytes + f.packed f.block
  (List.range n).map (fun k =>
    let at_ := if f.block = 1 then 0 else k / f.block * bw
    let v := elemValue f (leAt raw at_ f.scaleBytes) (elemRaw f (raw.drop (at_ + f.scaleBytes)) (if f.block = 1 then k else k % f.block))
    ⟨v.1, row.any Prod.snd, v.2⟩)

/-- One row of DRAIN output: bytes with the poison of the values, and the counts of conversion. `raised` gives the exposure
raised so far of the group of each tile of 8 columns. -/
def drainRow (o : OpEntry) (x : CellCtx) (f : Fmt) (raised : Nat → Nat) (idx pitch i : Nat)
    (sums : List ChainSum) (epi : List Elem) : List (Byte × Bool) × Nat × Nat × Nat :=
  let pz := sums.map (fun s => s.poison)
  let at_ (j : Nat) : Nat := (idx + i * pitch + j) % 2 ^ 40
  if f = .acc64 || f = .acc96 then
    let w := f.elemBits
    let rs := (sums.zip (List.range sums.length)).map (fun p => drainRaw w (raised (p.2 / 8)) p.1)
    ((rs.zip pz).flatMap (fun p => (leBytes (w / 8) p.1.1).map (fun b => (b, p.2))), 0, 0, (rs.filter Prod.snd).length)
  else
    let srcs := (sums.zip (List.range sums.length)).map
      (fun p => drainSrc o (x.exposure + 8 * raised (p.2 / 8)) p.1 ((epi.getD p.2 ⟨.zero, false, false⟩).val))
    let any := pz.any id || epi.any (fun z => z.poison)
    if f.block = 1 then
      let rs := (srcs.zip (List.range srcs.length)).map
        (fun p => encodeElem f (rndOf o.rnd x.key (at_ p.2)) o.sat p.1)
      let marks := if f.elemBits < 8 then pz.map (fun _ => any) else
        (pz.zip (List.range pz.length)).map (fun p => p.1 || (epi.getD p.2 ⟨.zero, false, false⟩).poison)
      let bytes := packRaw f (rs.map Prod.fst)
      let n := f.elemBits / 8
      ((bytes.zip (List.range bytes.length)).map (fun p => (p.1, marks.getD (p.2 / (max n 1)) any)), 0,
        (rs.filter Prod.snd).length, 0)
    else
      let mode (j : Nat) : Rnd := if f = .mom8s || f = .mom8u then rndOf 2 x.key (at_ j) else rndOf o.rnd x.key (at_ j)
      let r := encodeBlock f o.rule1 o.sat mode srcs
      ((leBytes f.scaleBytes r.scale ++ packRaw f r.elems).map (fun b => (b, any)), r.formatErrors, r.nanConversions, 0)

/-- DRAIN (R81, R82): the output rows, in order, and the cell with its groups closed. `epiBytes` is the epilogue
tensor as read. -/
def Cell.drainOp (c : Cell) (x : CellCtx) (o : OpEntry) (brkN : Option Nat) (idx pitch : Nat)
    (epiBytes : List (Byte × Bool)) : CellRun × List (Byte × Bool) :=
  let f := fmtOf o.fmtOut
  let b := drainTiles f
  let tile (t : Nat) : Group := (c.group (o.accBase + 8 * o.mc * t)).getD {}
  let n := 8 * b
  let raw := decide (f = .acc64) || decide (f = .acc96)
  let sum (i k : Nat) : ChainSum := c.total o (o.accBase + 8 * o.mc * (k / 8)) (8 * i + k % 8)
  let epi (i : Nat) : List Elem := if raw || o.epiOp = 0 then [] else epiRow (fmtOf o.fmtEpi) n epiBytes i
  let rows := (List.range o.mc).map (fun i =>
    drainRow o x f (fun t => (tile t).raised) (idx + c.cellIdx) pitch i ((List.range n).map (sum i)) (epi i))
  let out := rows.flatMap (fun r => r.1)
  let fe := rows.foldl (fun n r => n + r.2.1) 0
  let nc := rows.foldl (fun n r => n + r.2.2.1) 0
  let ov := rows.foldl (fun n r => n + r.2.2.2) 0
  let c' := (List.range b).foldl (fun c' t =>
    let base := o.accBase + 8 * o.mc * t
    (c'.endGroup x base brkN ((List.range (8 * o.mc)).map (c.total o base))).setGroup base none) c
  let taken := (List.range o.mc).any (fun i =>
    (epi i).any (fun z => z.poison) && !(tile 0).consumed
      || (List.range n).any (fun k => (sum i k).poison && !(tile (k / 8)).consumed))
  ({ cell := ((c'.count 6 fe).count 7 nc).count 4 ov, overs := ov, poisoned := taken }, out)

/-- ACLR (R67, R75). -/
def Cell.aclr (c : Cell) (o : OpEntry) : Cell :=
  (List.range (8 * o.mc)).foldl (fun c m => c.setAcc (o.accBase + m) {}) c

/-! ## The save record (R86) -/

/-- The 21,120 B record of a cell. -/
def Cell.saveBytes (c : Cell) : List (Byte × Bool) :=
  c.lsRead 0 16384
    ++ clean ((List.range 512).flatMap (fun i => leBytes 8 (twos 64 (c.accAt i).val)))
    ++ clean ((List.range 512).flatMap (fun i => leBytes 1 ((c.accAt i).side.code + (if (c.accAt i).poison then 4 else 0))))
    ++ clean ((List.range 64).flatMap (fun i => leBytes 2 ((mget 0 c.autoExp i + 32768) % 65536)))

/-- The cell that a record restores: vector registers +0, op table and routes as they stand, groups those of the last
SAVE (R84, R86). -/
def Cell.restoreBytes (c : Cell) (bs : List (Byte × Bool)) : Cell :=
  let raw := bs.map Prod.fst
  let c := { c with ls := [], lsPoison := [], acc := [], autoExp := [], vreg := [], vPoison := [], groups := c.savedGroups }
  let c := c.lsWrite 0 (bs.take 16384)
  let c := (List.range 512).foldl (fun c i =>
    let tag := leAt raw (20480 + i) 1
    let ovfl := (c.accAt i).ovfl
    c.setAcc i { val := sext 64 (leAt raw (16384 + 8 * i) 8), side := Side.ofCode (tag % 4), poison := bit tag 2, ovfl := ovfl }) c
  (List.range 64).foldl (fun c i =>
    { c with autoExp := mset 0 c.autoExp i ((leAt raw (20992 + 2 * i) 2 + 32768) % 65536) }) c

end Sys2Proof.Machine
end

