-- ==== Sys2Proof/Machine/Vector.lean ====
section
/-! DEFINITION. The vector unit (R60, R83, R84, R437): lanewise arithmetic, the functions within their error bounds,
loads, stores and conversions. -/
namespace Sys2Proof.Machine

/-! ## The functions of R60

The true value is bracketed in fixed point with 320 fraction bits; the bits the unit returns are a free value, clamped
to the FP32 codes that the bound of R60 admits around the bracket. -/

def fixBits : Nat := 320
def fixOne : Nat := 2 ^ fixBits

/-- ln 2 in fixed point: 2 Σ 3^-(2k+1) / (2k+1). -/
def ln2Fix : Nat :=
  ((List.range 110).foldl (fun (acc : Nat × Nat) k => (acc.1 + 2 * (acc.2 / (2 * k + 1)), acc.2 / 9)) (0, fixOne / 3)).1

/-- e^z for a fixed-point z below 1. -/
def expFix (z : Nat) : Nat :=
  ((List.range 70).foldl (fun (acc : Nat × Nat) k => (acc.1 + acc.2, acc.2 * z / fixOne / (k + 1))) (0, fixOne)).1

/-- 2^(t / 2^fixBits) as a fixed-point mantissa in [1, 2) and an exponent. -/
def exp2Fix (t : Int) : Nat × Int :=
  let i := t / (fixOne : Int)
  let f := (t % (fixOne : Int)).toNat
  (expFix (f * ln2Fix / fixOne), i)

/-- ln (n / d) for a fraction in [1, 2): 2 atanh ((n - d) / (n + d)). -/
def lnFix (n d : Nat) : Nat :=
  let t := (n - d) * fixOne / (n + d)
  let q := t * t / fixOne
  ((List.range 110).foldl (fun (acc : Nat × Nat) k => (acc.1 + 2 * (acc.2 / (2 * k + 1)), acc.2 * q / fixOne)) (0, t)).1

/-- A value as a fixed-point integer. -/
def Num.toFix : Num → Int
  | .fin s n d => (if s then -1 else 1) * ((n * fixOne / d : Nat) : Int)
  | _ => 0

/-- The FP32 magnitude codes within `ulps` of the fraction `n / d`, known to one part in 2^100. -/
def codeRange (ulps n d : Nat) : Nat × Nat :=
  let big := 2 ^ 100
  let lo := fp32Fmt.roundMag .rtz false (n * (big - 1)) (d * big)
  let hi := fp32Fmt.roundMag .rtz false (n * (big + 1)) (d * big) + 1
  (min 0x7F800000 (lo - (ulps - 1)), min 0x7F800000 (hi + (ulps - 1)))

/-- The unit's bits for function `f` of `x`: sign `neg`, magnitude free within the bound around `n / d`. -/
def chosen (f x ulps : Nat) (neg : Bool) (n d : Nat) : Nat :=
  let r := codeRange ulps n d
  fp32Fmt.signBit neg + max r.1 (min r.2 (Config.vectorFunction f x % 2 ^ 31))

def nan32 : Nat := 0x7FC00000
def inf32 : Nat := 0x7F800000
def one32 : Nat := 0x3F800000

/-- exp2 (R60). -/
def vexp2 (x : Nat) : Nat :=
  match fp32 x with
  | .nan => nan32
  | .inf s => if s then 0 else inf32
  | .fin s n d =>
    if !s && 128 * d ≤ n then inf32
    else if s && 150 * d < n then 0
    else
      let (m, e) := exp2Fix ((Num.fin s n d).toFix)
      match (Num.fin false m fixOne).scale2 e with
      | .fin _ a b => chosen 0x1A x 1 false a b
      | _ => 0

/-- log2 (R60). -/
def vlog2 (x : Nat) : Nat :=
  match fp32 x with
  | .nan => nan32
  | .inf s => if s then nan32 else inf32
  | .fin s n d =>
    if n = 0 then 0xFF800000
    else if s then nan32
    else
      let e := floorLog2 n d
      let p := fracShift n d e
      let l : Int := e * (fixOne : Int) + ((lnFix p.1 p.2 * fixOne / ln2Fix : Nat) : Int)
      chosen 0x1B x 1 (decide (l < 0)) l.natAbs fixOne

/-- reciprocal (R60). -/
def vrcp (x : Nat) : Nat :=
  match fp32 x with
  | .nan => nan32
  | .inf s => fp32Fmt.signBit s
  | .fin s n d => if n = 0 then fp32Fmt.signBit s + inf32 else chosen 0x1C x 1 s d n

/-- rsqrt (R60). -/
def vrsqrt (x : Nat) : Nat :=
  match fp32 x with
  | .nan => nan32
  | .inf s => if s then nan32 else 0
  | .fin s n d =>
    if n = 0 then fp32Fmt.signBit s + inf32
    else if s then nan32
    else chosen 0x1D x 1 false (isqrt (d * fixOne * fixOne / n)) fixOne

/-- tanh (R60): ±1 from 9.1 on; a series below 2^-8, the exponential form above. -/
def vtanh (x : Nat) : Nat :=
  match fp32 x with
  | .nan => nan32
  | .inf s => fp32Fmt.signBit s + one32
  | .fin s n d =>
    if 91 * d ≤ 10 * n then fp32Fmt.signBit s + one32
    else if n * 256 < d then
      -- x (1 - x²/3 + 2x⁴/15 - 17x⁶/315 + 62x⁸/2835), the next term below 2^-80
      let q := n * n * fixOne / (d * d)
      let q2 := q * q / fixOne
      let sr := fixOne + 2 * q2 / 15 + 62 * (q2 * q2 / fixOne) / 2835 - q / 3 - 17 * (q2 * q / fixOne) / 315
      chosen 0x1E x 2 s (n * sr) (d * fixOne)
    else
      let (m, e) := exp2Fix ((((2 * n * fixOne / d) * fixOne / ln2Fix : Nat) : Int))
      let w := m * 2 ^ e.toNat
      chosen 0x1E x 2 s (w - fixOne) (w + fixOne)

/-- sigmoid (R60): 1 from 17.4 on; subnormal or +0 up to -88.8. -/
def vsigm (x : Nat) : Nat :=
  match fp32 x with
  | .nan => nan32
  | .inf s => if s then 0 else one32
  | .fin s n d =>
    if !s && 174 * d ≤ 10 * n then one32
    else if s && 200 * d ≤ n then min 0x7FFFFF (chosen 0x1F x 2 false 0 1)
    else
      let t : Int := (((n * fixOne / d) * fixOne / ln2Fix : Nat) : Int)
      let (m, e) := exp2Fix t
      let w := m * 2 ^ e.toNat
      let y := if s then chosen 0x1F x 2 false fixOne (w + fixOne) else chosen 0x1F x 2 false w (w + fixOne)
      if s && 888 * d ≤ 10 * n then min 0x7FFFFF y else y

/-- 2 / sqrt pi in fixed point, from pi to 100 digits. -/
def twoOverSqrtPi : Nat :=
  let pi := 31415926535897932384626433832795028841971693993751058209749445923078164062862089986280348253421170679
  let d := 10 ^ 100
  isqrt (4 * d * fixOne * fixOne / pi)

/-- erf (R60): ±1 from 3.92 on; otherwise 2/sqrt pi · x · Σ (-x²)^k / (k! (2k+1)). -/
def verf (x : Nat) : Nat :=
  match fp32 x with
  | .nan => nan32
  | .inf s => fp32Fmt.signBit s + one32
  | .fin s n d =>
    if 392 * d ≤ 100 * n then fp32Fmt.signBit s + one32
    else
      let q := n * n * fixOne / (d * d)
      let sum : Int := ((List.range 140).foldl (fun (acc : Int × Nat) k =>
        let t : Int := ((acc.2 / (2 * k + 1) : Nat) : Int)
        (if k % 2 = 0 then acc.1 + t else acc.1 - t, acc.2 * q / fixOne / (k + 1))) ((0 : Int), fixOne)).1
      chosen 0x20 x 2 s (n * sum.toNat * twoOverSqrtPi) (d * fixOne * fixOne)

/-! ## Registers (R83) -/

/-- Lane `l` of register `r`: its FP32 code. -/
def Cell.lane (c : Cell) (r l : Nat) : Nat := mget 0 c.vreg (16 * (r % 16) + l)
def Cell.lanePoison (c : Cell) (r l : Nat) : Bool := mget false c.vPoison (16 * (r % 16) + l)
def Cell.setLane (c : Cell) (r l v : Nat) (p : Bool) : Cell :=
  let k := 16 * (r % 16) + l
  { c with vreg := mset 0 c.vreg k v, vPoison := mset false c.vPoison k p }

def lanes : List Nat := List.range 16

/-- A lanewise operation: `f` gives lane `l`'s code and poison; every source lane is read before a lane is written. -/
def Cell.lanewise (c : Cell) (o : OpEntry) (srcs : List Nat) (f : List Nat → Nat) : CellRun :=
  let rs := lanes.map (fun l =>
    (f (srcs.map (fun r => c.lane r l)), srcs.any (fun r => c.lanePoison r l)))
  let c := (rs.zip lanes).foldl (fun c p => c.setLane o.vd p.2 p.1.1 p.1.2) c
  { cell := c, poisoned := rs.any Prod.snd }

/-- VCMPGT of R437. -/
def cmpgt32 (a b : Nat) : Nat := if (fp32 b).lt (fp32 a) then one32 else 0


/-- VMAXR of R437. -/
def Cell.vmaxr (c : Cell) (o : OpEntry) : CellRun :=
  let m := (lanes.map (fun l => c.lane o.va l)).foldl (fun a x => fmaxCode fp32Fmt a x) (c.lane o.va 0)
  let m := fmaxCode fp32Fmt m m
  let p := lanes.any (fun l => c.lanePoison o.va l)
  let c := lanes.foldl (fun c l => c.setLane o.vd l (if l = 0 then m else 0) (l = 0 && p)) c
  { cell := c, poisoned := p }

/-- VACC (R67): entries to FP32 by RNE; an overflowed entry gives the infinity of its sign. -/
def Cell.vacc (c : Cell) (x : CellCtx) (o : OpEntry) : CellRun :=
  let raised := ((c.group o.accBase).map (fun g => g.raised)).getD 0
  let e := x.exposure + 8 * raised
  let vals := lanes.map (fun l =>
    let a := c.accAt ((o.accBase + l) % 512)
    let v : Num := match a.ovfl with
      | some s => .inf s
      | none => ofWindow e a.val
    (toFp32 (a.side.onto v), a.poison))
  let c := (vals.zip lanes).foldl (fun c p => c.setLane o.vd p.2 p.1.1 p.1.2) c
  { cell := c, poisoned := vals.any Prod.snd }

/-- VSUMW (R75, R83): lane j into entry ACC_BASE + j, by R52. -/
def Cell.vsumw (c : Cell) (x : CellCtx) (o : OpEntry) : CellRun :=
  let g := (c.group o.accBase).getD { init := true }
  let e := x.exposure + 8 * g.raised
  let r : CellRun := lanes.foldl (fun r l =>
    let v := fp32 (c.lane o.va l)
    r.add g x.exposure ((o.accBase + l) % 512) (if v.isFinite then toWindow e v else 0) (Side.ofNum v) (c.lanePoison o.va l))
    { cell := c }
  match c.group o.accBase with
  | some g => { r with cell := r.cell.setGroup o.accBase (some { g with final := g.final || r.overs ≠ 0 }) }
  | none => r

/-- Bytes that a VLD takes: 16 elements, with the scale first for a block format. -/
def vldBytes (f : Fmt) : Nat := f.scaleBytes + f.packed 16

/-- VLD (R83, R144) from the bytes of its source. LO16 replaces bits [15:0] of each lane; the moments round once. -/
def Cell.vld (c : Cell) (x : CellCtx) (o : OpEntry) (bs : List (Byte × Bool)) : CellRun :=
  let f := fmtOf o.fmtA
  let raw := padTo (vldBytes f) (bs.map Prod.fst)
  let sc := leAt raw 0 f.scaleBytes
  let pz (l : Nat) : Bool :=
    (bs.take f.scaleBytes).any Prod.snd
      || ((bs.drop (f.scaleBytes + l * f.elemBits / 8)).take (ceilDiv f.elemBits 8)).any Prod.snd
  let rs := lanes.map (fun l =>
    let r := elemRaw f (raw.drop f.scaleBytes) l
    if f = .lo16 then (c.lane o.vd l / 65536 * 65536 + r % 65536, pz l || c.lanePoison o.vd l, false)
    else if f = .acc64 || f = .acc96 then (toFp32 (accValue f.elemBits x.exposure r), pz l, false)
    else
      let v := elemValue f sc r
      (toFp32 v.1, pz l, v.2))
  let c := (rs.zip lanes).foldl (fun c p => c.setLane o.vd p.2 p.1.1 p.1.2.1) c
  { cell := c.count 6 (rs.filter (fun r => r.2.2)).length, poisoned := rs.any (fun r => r.2.1) }

/-- The registers that a store into a format takes: one, or B/16 consecutive ones for blocks of B (R83). -/
def blockRegs (f : Fmt) : Nat := if f.block = 1 then 1 else f.block / 16

/-- The values and poison marks of the lanes that a store takes. -/
def Cell.storeLanes (c : Cell) (o : OpEntry) (f : Fmt) : List (Nat × Bool) :=
  (List.range (blockRegs f)).flatMap (fun r => lanes.map (fun l => (c.lane (o.va + r) l, c.lanePoison (o.va + r) l)))

/-- VST (R83, R144): the stored bytes; its element index is A(IDXA) + CELL_IDX + l (R94). -/
def Cell.vst (c : Cell) (x : CellCtx) (o : OpEntry) (idx : Nat) : CellRun × List (Byte × Bool) :=
  let f := fmtOf o.fmtOut
  let ls := c.storeLanes o f
  let any := ls.any Prod.snd
  let at_ (l : Nat) : Nat := (idx + c.cellIdx + l) % 2 ^ 40
  if f.block = 1 then
    let rs := (ls.zip (List.range ls.length)).map (fun p =>
      if f = .lo16 then (p.1.1 % 65536, false)
      else encodeElem f (rndOf o.rnd x.key (at_ p.2)) o.sat (.num (fp32 p.1.1)))
    let bytes := packRaw f (rs.map Prod.fst)
    let n := max (f.elemBits / 8) 1
    let mark (k : Nat) : Bool := if f.elemBits < 8 then any else (ls.getD (k / n) (0, any)).2
    ({ cell := c.count 7 (rs.filter Prod.snd).length, poisoned := any },
      (bytes.zip (List.range bytes.length)).map (fun p => (p.1, mark p.2)))
  else
    let mode (l : Nat) : Rnd := rndOf (if f = .mom8s || f = .mom8u then 2 else o.rnd) x.key (at_ l)
    let r := encodeBlock f o.rule1 o.sat mode (ls.map (fun p => .num (fp32 p.1)))
    let bad := if f = .mom8s || f = .mom8u then (ls.filter (fun p => !(fp32 p.1).isFinite)).length else 0
    ({ cell := (c.count 6 r.formatErrors).count 7 (r.nanConversions + bad), poisoned := any },
      (leBytes f.scaleBytes r.scale ++ packRaw f r.elems).map (fun b => (b, any)))

/-- VCVT (R437): what a VST into FMT_OUT would store, read back into VD; a block as a whole. -/
def Cell.vcvt (c : Cell) (x : CellCtx) (o : OpEntry) (idx : Nat) : CellRun :=
  let f := fmtOf o.fmtOut
  let (run, bytes) := c.vst x o idx
  let raw := bytes.map Prod.fst
  let sc := leAt raw 0 f.scaleBytes
  let n := 16 * blockRegs f
  let c' := (List.range n).foldl (fun c i =>
    let v := elemValue f sc (elemRaw f (raw.drop f.scaleBytes) i)
    let p := if f.block = 1 then run.cell.lanePoison (o.va + i / 16) (i % 16) else bytes.any Prod.snd
    c.setLane (o.vd + i / 16) (i % 16) (toFp32 v.1) p) run.cell
  { run with cell := c' }

end Sys2Proof.Machine
end

