-- ==== Sys2Proof/Machine/Streams.lean ====
section
/-! DEFINITION. Tensor and stream descriptors (R100 to R103), stream channels and their beats (R101, R104), the static
mesh (R107, R108), and messages and frames as streams use them (R102, R274). -/
namespace Sys2Proof.Machine

/-! ## Cells, clusters and plates (R3, R11, R114) -/

/-- Index of cell (x, y). -/
def cellKey (x y : Nat) : Nat := 640 * y + x

/-- Index of the cluster at cluster coordinates. -/
def clusterKey (cx cy : Nat) : Nat := 80 * cy + cx

/-- The plate of cell (x, y) (R3). -/
def plateOf (x y : Nat) : Nat := (y / 256) * 4 + x / 160

/-- Device cluster index 640·p + c (R114, R239), from cluster coordinates. -/
def clusterIndex (cx cy : Nat) : Nat :=
  640 * ((cy / 32) * 4 + cx / 20) + 20 * (cy % 32) + cx % 20

def Block.cell (b : Block) (x y : Nat) : Cell := mget {} b.plates.cells (cellKey x y)
def Block.setCell (b : Block) (x y : Nat) (c : Cell) : Block :=
  { b with plates := { b.plates with cells := mset {} b.plates.cells (cellKey x y) c } }
def Block.cluster (b : Block) (cx cy : Nat) : Cluster := mget {} b.plates.clusters (clusterKey cx cy)
def Block.setCluster (b : Block) (cx cy : Nat) (c : Cluster) : Block :=
  { b with plates := { b.plates with clusters := mset {} b.plates.clusters (clusterKey cx cy) c } }
def Block.image (b : Block) (p : Nat) : Image := mget {} b.plates.images p
def Block.setImage (b : Block) (p : Nat) (i : Image) : Block :=
  { b with plates := { b.plates with images := mset {} b.plates.images p i } }
def Block.region (b : Block) (r : RegionId) : Region := mget {} (b.image r.part).regions r.idx
def Block.setRegion (b : Block) (r : RegionId) (x : Region) : Block :=
  let i := b.image r.part
  b.setImage r.part { i with regions := mset {} i.regions r.idx x }

/-- The clusters of a region in row-major order. -/
def Region.clusters (r : Region) : List (Nat × Nat) :=
  (List.range (r.y1 + 1 - r.y0)).flatMap (fun j => (List.range (r.x1 + 1 - r.x0)).map (fun i => (r.x0 + i, r.y0 + j)))

/-- The cells of a cluster in row-major order. -/
def clusterCells (cx cy : Nat) : List (Nat × Nat) :=
  (List.range 8).flatMap (fun j => (List.range 8).map (fun i => (8 * cx + i, 8 * cy + j)))

/-- The cells of a cluster that a row mask and a column mask select, in row-major order. -/
def selected (cx cy rows cols : Nat) : List (Nat × Nat) :=
  (clusterCells cx cy).filter (fun p => bit rows (p.2 % 8) && bit cols (p.1 % 8))

/-- A counter of a cluster, by its register offset (R114). -/
def Cluster.count (c : Cluster) (off n : Nat) : Cluster := { c with counters := bump c.counters off n }

/-- The requester of a cluster's stream port. -/
def Block.clusterReq (b : Block) (part cx cy gclass : Nat) : Req :=
  { id := clusterIndex cx cy, part := part, job := b.holdsJob part, gclass := gclass }

/-! ## Descriptors -/

/-- A tensor descriptor (R100). -/
structure Tensor where
  base : Nat
  fmt : Nat
  ndim : Nat
  gclass : Nat
  part : Nat
  pad : Nat
  counts : List Nat
  strides : List Int
  lows : List Nat
  highs : List Nat
  reserved : Bool
deriving DecidableEq, Repr

/-- The fields of R100 from the descriptor's 512 bits. -/
def Tensor.ofBits (v : Nat) : Tensor where
  base := bits v 47 0
  fmt := bits v 52 48
  ndim := bits v 55 53
  gclass := bits v 57 56
  part := bits v 61 58
  pad := bits v 95 64
  counts := [bits v 119 96, bits v 169 146, bits v 259 236, bits v 349 326, bits v 439 416]
  strides := [0, sext 40 (bits v 209 170), sext 40 (bits v 299 260), sext 40 (bits v 389 350), sext 40 (bits v 479 440)]
  lows := [bits v 132 120, bits v 222 210, bits v 312 300, bits v 402 390, bits v 492 480]
  highs := [bits v 145 133, bits v 235 223, bits v 325 313, bits v 415 403, bits v 505 493]
  reserved := decide (bits v 63 62 ≠ 0) || decide (bits v 511 506 ≠ 0)

/-- The extent of a dimension; 1 at or above NDIM. -/
def Tensor.count (t : Tensor) (d : Nat) : Nat := if d < t.ndim then t.counts.getD d 1 else 1

/-- Whether an index lies inside the bounds of its dimension (R100, R103). -/
def Tensor.inDim (t : Tensor) (d : Nat) (i : Int) : Bool :=
  if d < t.ndim then
    decide ((t.lows.getD d 0 : Int) ≤ i) && decide (i < (t.counts.getD d 1 : Int) - (t.highs.getD d 0 : Int))
  else decide (i = 0)

/-- Why a tensor descriptor is refused, as a CMD_REFUSED reason (R100, R38): a reserved code, or 3. -/
def Tensor.fault (t : Tensor) (part : Nat) : Option Nat :=
  let dims := List.range t.ndim
  if t.reserved || (Fmt.ofCode t.fmt).isNone || t.gclass = 3 || t.ndim = 0 || 5 < t.ndim then some 0
  else if dims.any (fun d => t.counts.getD d 0 = 0) then some 3
  else if dims.any (fun d => t.counts.getD d 0 < t.lows.getD d 0 + t.highs.getD d 0) then some 3
  else if t.part ≠ part then some 6
  else if (fmtOf t.fmt).block ≠ 1 && (dims.any (fun d => d ≠ 0 && t.strides.getD d 0 % 16 ≠ 0)) then some 3
  else none

/-- A stream descriptor (R102). A level is its DIM, COUNT and STEP, innermost first. -/
structure StreamDesc where
  tdesc : Nat
  dir : Bool
  kind : Nat
  cmpr : Bool
  deliv : Nat
  rows : Nat
  cols : Nat
  lsAddr : Nat
  run : Nat
  start : List Int
  levels : List (Nat × Nat × Int)
  reserved : Bool
deriving DecidableEq, Repr

/-- The fields of R102. -/
def StreamDesc.ofBits (v : Nat) : StreamDesc where
  tdesc := 64 * bits v 41 0
  dir := bit v 42
  kind := bits v 44 43
  cmpr := bit v 45
  deliv := bits v 47 46
  rows := bits v 55 48
  cols := bits v 63 56
  lsAddr := 16 * bits v 73 64
  run := bits v 89 74
  start := (List.range 5).map (fun d => sext 24 (bits v (119 + 24 * d) (96 + 24 * d)))
  levels := (List.range 5).map (fun l =>
    (bits v (266 + 51 * l) (264 + 51 * l), bits v (263 + 51 * l) (240 + 51 * l), sext 24 (bits v (239 + 51 * l) (216 + 51 * l))))
  reserved := decide (bits v 95 90 ≠ 0) || decide (bits v 511 471 ≠ 0)

/-- Why a STRM on channel `ch` refuses its command (R102), as a CMD_REFUSED reason. -/
def StreamDesc.fault (s : StreamDesc) (f : Fmt) (ch : Nat) : Option Nat :=
  if s.reserved || s.deliv = 3 || s.kind = 3 then some 0
  else if s.run = 0 || s.levels.any (fun l => l.2.1 = 0 || 5 ≤ l.1) then some 3
  else if s.deliv = 2 && ch ≠ 3 then some 3
  else if (s.dir && (ch = 0 || ch = 1)) || (!s.dir && ch = 2) then some 3
  else if s.kind = 2 && !s.dir then some 3
  else if f.block ≠ 1 &&
      (s.run % f.block ≠ 0 || s.start.getD 0 0 % f.block ≠ 0
        || s.levels.any (fun l => l.1 = 0 && l.2.1 ≠ 1 && l.2.2 % f.block ≠ 0)) then some 3
  else none

/-- Runs of a walk. -/
def StreamDesc.runs (s : StreamDesc) : Nat := s.levels.foldl (fun n l => n * l.2.1) 1

/-- Bytes of one run as the channel carries it: each block's scale immediately before its elements (R102). -/
def runBytes (f : Fmt) (run : Nat) : Nat :=
  if f.block = 1 then f.packed run else (run / f.block) * (f.scaleBytes + f.packed f.block)

/-- Bytes of a whole stream: its elements packed one after another (R36, R102). -/
def StreamDesc.bytes (s : StreamDesc) (f : Fmt) : Nat :=
  if f.block = 1 then f.packed (s.runs * s.run) else s.runs * runBytes f s.run

/-- The run, and the byte of it, that byte `p` of a stream belongs to; of two INT4 elements in a byte, the first decides. -/
def runAt (f : Fmt) (run p : Nat) : Nat × Nat :=
  if f = .int4 then (2 * p / (max 1 run), 2 * p % (max 1 run) / 2)
  else (p / (max 1 (runBytes f run)), p % (max 1 (runBytes f run)))

/-- The position of run `r` (R102): START plus the levels' steps, level 0 fastest. -/
def StreamDesc.position (s : StreamDesc) (r : Nat) : List Int :=
  (s.levels.foldl (fun (acc : List Int × Nat) l =>
    let n := acc.2 % l.2.1
    (acc.1.set l.1 (acc.1.getD l.1 0 + n * l.2.2), acc.2 / l.2.1)) (s.start, r)).1

/-- Where bits of one byte of a stream lie: the address of their byte, the stream byte's bits that they are (`own`), those
of them in bounds (`mask`), the bits to put in the others' place (`fill`, R103), and whether they lie in the other half of
the memory byte (`swap`; INT4 alone, R36). -/
structure ByteAt where
  addr : Nat
  own : Nat
  mask : Nat
  fill : Nat
  swap : Bool
deriving DecidableEq, Repr

/-- The mask and padding of byte `k` of packed elements whose first is `i0`: bit `n` belongs to element
`i0 + (8k + n) / bits` (R36). -/
def padMask (f : Fmt) (pad : Nat) (inb : Nat → Bool) (k : Nat) : Nat × Nat :=
  (List.range 8).foldl (fun acc n =>
    let p := 8 * k + n
    let e := p / f.elemBits
    (acc.1 + (if inb e then 2 ^ n else 0), acc.2 + (if bit pad (p % f.elemBits) then 2 ^ n else 0))) (0, 0)

/-- The address of element 0 of the row that a position lies in (R100). -/
def Tensor.rowAt (t : Tensor) (off : Int) (p : List Int) : Int :=
  (t.base : Int) + off + (List.range 4).foldl (fun n d =>
    if d + 1 < t.ndim then n + p.getD (d + 1) 0 * t.strides.getD (d + 1) 0 else n) 0

/-- A 48-bit byte address. -/
def addr48 (i : Int) : Nat := (i % (2 ^ 48 : Nat)).toNat

/-- Whether a position's row lies in bounds in every dimension above 0. -/
def Tensor.rowIn (t : Tensor) (p : List Int) : Bool := (List.range 4).all (fun d => t.inDim (d + 1) (p.getD (d + 1) 0))

/-- Byte `k` of run `r` (R36, R38, R100, R102, R103), for the formats whose runs are whole bytes. -/
def byteAt (t : Tensor) (s : StreamDesc) (off : Int) (r k : Nat) : ByteAt :=
  let f := fmtOf t.fmt
  let p := s.position r
  let p0 := p.getD 0 0
  let inb (e : Nat) : Bool := t.rowIn p && t.inDim 0 (p0 + e)
  let row := t.rowAt off p
  if f.block = 1 then
    let m := padMask f t.pad inb k
    ⟨addr48 (row + (p0 * f.elemBits) / 8 + k), 255, m.1, m.2, false⟩
  else
    let w := f.scaleBytes + f.packed f.block
    let blk := k / w
    let j := k % w
    let e0 := p0 + (blk * f.block : Nat)
    let g := e0 / (f.groupElems : Int)
    let inG := (e0 % (f.groupElems : Int)).toNat
    let gBase : Int := row + g * f.groupBytes
    if j < f.scaleBytes then
      let any := (List.range f.block).any (fun e => inb (blk * f.block + e))
      ⟨addr48 (gBase + (inG / f.block * f.scaleBytes + j : Nat)), 255, if any then 255 else 0, bits f.unusedScale (8 * j + 7) (8 * j), false⟩
    else
      let m := padMask f t.pad (fun e => inb (blk * f.block + e)) (j - f.scaleBytes)
      ⟨addr48 (gBase + (16 * f.scaleBytes + inG * f.elemBits / 8 + (j - f.scaleBytes) : Nat)), 255, m.1, m.2, false⟩

/-- INT4 element `n` of a stream (R36): half `n % 2` of its stream byte. -/
def nibbleAt (t : Tensor) (s : StreamDesc) (off : Int) (n : Nat) : ByteAt :=
  let p := s.position (n / (max 1 s.run))
  let i := p.getD 0 0 + (n % (max 1 s.run) : Nat)
  let own := if n % 2 = 0 then 15 else 240
  ⟨addr48 (t.rowAt off p + i / 2), own, if t.rowIn p && t.inDim 0 i then own else 0, t.pad % 16 * (if n % 2 = 0 then 1 else 16),
    decide (i % 2 ≠ (n % 2 : Nat))⟩

/-- The pieces of byte `k` of a stream. -/
def piecesAt (t : Tensor) (s : StreamDesc) (off : Int) (k : Nat) : List ByteAt :=
  if fmtOf t.fmt = .int4 then
    nibbleAt t s off (2 * k) :: (if 2 * k + 1 < s.runs * s.run then [nibbleAt t s off (2 * k + 1)] else [])
  else
    let r := runAt (fmtOf t.fmt) s.run k
    [byteAt t s off r.1 r.2]

/-- What the writer of a row's last group puts past the row's count (R38), from the row's first byte on: address offset, bits,
value. -/
def Tensor.tail (t : Tensor) : List (Nat × Nat × Nat) :=
  let f := fmtOf t.fmt
  let n := t.count 0 - (t.count 0 - 1) / f.groupElems * f.groupElems
  let base := (t.count 0 - 1) / f.groupElems * f.groupBytes
  let scales := ((List.range 16).drop (ceilDiv n f.block)).flatMap (fun j =>
    (List.range f.scaleBytes).map (fun k => (base + j * f.scaleBytes + k, 255, bits f.unusedScale (8 * k + 7) (8 * k))))
  let used := n * f.elemBits
  let elems := ((List.range (f.packed f.groupElems)).drop (used / 8)).map (fun k =>
    (base + 16 * f.scaleBytes + k, if k = used / 8 then 255 - (2 ^ (used % 8) - 1) else 255, 0))
  scales ++ elems

/-- Whether byte `k` of run `r` ends the last block of its row, with an element of that block in bounds. -/
def tailDue (t : Tensor) (s : StreamDesc) (r k : Nat) : Bool :=
  let f := fmtOf t.fmt
  let p := s.position r
  let w := f.scaleBytes + f.packed f.block
  let e0 : Int := p.getD 0 0 + (k / w * f.block : Nat)
  decide (f.block ≠ 1) && decide ((k + 1) % w = 0) && decide (e0 = ((t.count 0 - 1) / f.block * f.block : Nat)) && t.rowIn p
    && (List.range f.block).any (fun e => t.inDim 0 (e0 + (e : Nat)))

/-! ## Reading and writing single bytes for a stream -/

/-- Logs a poisoned granule delivered to a job's cells: the newest 16 per partition (R381). -/
def Block.plogPush (b : Block) (part a : Nat) : Block :=
  if part = 15 then b
  else
    let put (m : SMap (List Nat)) : SMap (List Nat) := mmod [] m part (fun l => (a :: l).take 16)
    { b with int := { b.int with plog := put b.int.plog, tryLog := put b.int.tryLog } }

/-- The two halves of a byte exchanged. -/
def swapHalves (v : Nat) : Nat := v % 16 * 16 + v / 16 % 16

/-- Reads the pieces of one byte of a stream. -/
def Block.readPieces (e : Env) (q : Req) : Block → List ByteAt → Block × (Nat × Bool)
  | b, [] => (b, 0, false)
  | b, m :: ms =>
    if m.mask = 0 then
      let (b, v) := Block.readPieces e q b ms
      (b, v.1 ||| m.fill, v.2)
    else
      let (b, bs) := b.readPiece e q m.addr 1
      let x := bs.headD (0, true)
      let b := if x.2 then b.plogPush q.part (m.addr / 64 * 64) else b
      let raw := if m.swap then swapHalves x.1.toNat else x.1.toNat
      let (b, v) := Block.readPieces e q b ms
      (b, v.1 ||| (raw &&& m.mask) ||| (m.fill &&& (m.own - m.mask)), v.2 || x.2)

/-- Reads one byte of a stream. -/
def Block.readStreamByte (b : Block) (e : Env) (q : Req) (ms : List ByteAt) : Block × (Byte × Bool) :=
  let (b, v) := Block.readPieces e q b ms
  (b, BitVec.ofNat 8 v.1, v.2)

/-- Writes bits `mask` of the byte at an address, in memory's own places. -/
def Block.writeBits (b : Block) (e : Env) (q : Req) (cmpr : Bool) (a mask v : Nat) (poison : Bool) : Block :=
  if mask = 0 then b
  else if mask = 255 then b.writePiece e q cmpr a [(BitVec.ofNat 8 v, poison)]
  else
    let (b, old) := b.readPiece e q a 1
    let o := (old.headD (0, false)).1.toNat
    b.writePiece e q cmpr a [(BitVec.ofNat 8 ((v &&& mask) ||| (o &&& (255 - mask))), poison)]

/-- Writes one byte of a stream; bits outside the bounds are dropped (R103). -/
def Block.writeStreamByte (b : Block) (e : Env) (q : Req) (cmpr : Bool) (ms : List ByteAt) (x : Byte × Bool) : Block :=
  ms.foldl (fun b m =>
    if m.swap then b.writeBits e q cmpr m.addr (swapHalves m.mask) (swapHalves x.1.toNat) x.2
    else b.writeBits e q cmpr m.addr m.mask x.1.toNat x.2) b

/-- Writes what lies past the count of the row at a position (R38). -/
def Block.writeTail (b : Block) (e : Env) (q : Req) (cmpr : Bool) (t : Tensor) (off : Int) (p : List Int) : Block :=
  t.tail.foldl (fun b x => b.writeBits e q cmpr (addr48 (t.rowAt off p + (x.1 : Nat))) x.2.1 x.2.2 false) b

/-- Writes byte `k` of run `r` of a stream, and the tail of its row with the row's last block. -/
def Block.writeRunByte (b : Block) (e : Env) (q : Req) (cmpr : Bool) (t : Tensor) (s : StreamDesc) (off : Int) (r k : Nat)
    (x : Byte × Bool) : Block :=
  let b := b.writeStreamByte e q cmpr [byteAt t s off r k] x
  if tailDue t s r k then b.writeTail e q cmpr t off (s.position r) else b

/-! ## Messages and receive queues (R274) -/

/-- Bytes that a receive queue holds and nobody has taken. -/
def rxAvail (ms : List RxMsg) : Nat := ms.foldl (fun n m => n + (m.len - m.taken)) 0

/-- Takes one byte from a receive queue: from its oldest message's frame; a frame is freed with its last byte (R274). -/
def Block.rxTake (b : Block) (e : Env) (q : Req) (port key : Nat) : Block × (Byte × Bool) :=
  match mget [] b.msgs.queues key with
  | [] => (b, (0, true))
  | m :: ms =>
    let f := m.frames.getD (m.taken / 0x4000) 0
    let x := (b.readGranule (frameAddr f + m.taken % 0x4000) 1).headD (0, true)
    let b := if x.2 then b.plogPush q.part (frameAddr f / 64 * 64) else b
    let t := m.taken + 1
    let b := if t = m.len || t % 0x4000 = 0 then b.freeFrame e (3 * 8192 + port) q.part f else b
    let ms := if t = m.len then ms else { m with taken := t } :: ms
    ({ b with msgs := { b.msgs with queues := mset [] b.msgs.queues key ms } }, x)

/-! ## Channels (R101) -/

def Cluster.chan (c : Cluster) (k : Nat) : Channel := mget {} c.chans k
def Cluster.setChan (c : Cluster) (k : Nat) (x : Channel) : Cluster := { c with chans := mset {} c.chans k x }

/-- The stream and tensor descriptor of a flow. -/
def Block.flowDescs (b : Block) (f : Flow) : StreamDesc × Tensor :=
  let s := StreamDesc.ofBits (leNat (b.peek f.desc 64))
  (s, Tensor.ofBits (leNat (b.peek s.tdesc 64)))

/-- Bytes of a flow's whole stream. -/
def Block.flowBytes (b : Block) (f : Flow) : Nat :=
  let d := b.flowDescs f
  d.1.bytes (fmtOf d.2.fmt)

/-- The run, and the byte of it, that a flow moves next. -/
def Flow.at (f : Flow) (s : StreamDesc) (t : Tensor) : Nat × Nat := runAt (fmtOf t.fmt) s.run f.served

/-- Bytes a channel has yet to move, over every descriptor running or queued (R101). -/
def Block.chanLeft (b : Block) (c : Channel) : Nat :=
  c.queue.foldl (fun n f => n + (b.flowBytes f - f.served)) 0

/-- The first flow that has bytes left: its place in the queue. -/
def Block.liveFlow (b : Block) (c : Channel) : Option Nat :=
  findIdxFrom (fun f => decide (f.served < b.flowBytes f)) 0 c.queue

/-- The receive queue that a KIND = 1 tensor names in its BASE (R274). -/
def rxKey (part : Nat) (t : Tensor) : Nat := 64 * part + bits t.base 5 0

/-- The local-store place of byte `k` of run `r` under DELIV = 2: the cell whose turn it is, and the address (R103). -/
def lsPlace (cx cy : Nat) (s : StreamDesc) (w r k : Nat) : Option ((Nat × Nat) × Nat) :=
  let cs := selected cx cy s.rows s.cols
  if cs.isEmpty then none
  else (cs[r % cs.length]?).map (fun c => (c, s.lsAddr + (r / cs.length) * w + k))

/-- One byte of a read channel: S0 and S1 hold it for the cells, S3 puts it into a local store. -/
def Block.fillByte (b : Block) (e : Env) (part cx cy ch : Nat) : Block × Bool :=
  let cl := b.cluster cx cy
  let c := cl.chan ch
  match b.liveFlow c with
  | none => (b, false)
  | some i =>
    match c.queue[i]? with
    | none => (b, false)
    | some f =>
      let (s, t) := b.flowDescs f
      let w := runBytes (fmtOf t.fmt) s.run
      let q := b.clusterReq part cx cy t.gclass
      if s.kind = 1 && rxAvail (mget [] b.msgs.queues (rxKey part t)) = 0 then (b, false)
      else
        let (b, x) := if s.kind = 1 then b.rxTake e q 0 (rxKey part t) else b.readStreamByte e q (piecesAt t s f.off f.served)
        let c' := { c with queue := c.queue.set i { f with served := f.served + 1 } }
        if ch = 3 then
          let b := b.setCluster cx cy (cl.setChan ch c')
          match lsPlace cx cy s w (f.at s t).1 (f.at s t).2 with
          | some (p, a) => (b.setCell p.1 p.2 ((b.cell p.1 p.2).lsWrite a [x]), true)
          | none => (b, true)
        else (b.setCluster cx cy (cl.setChan ch { c' with held := c.held ++ [x] }), true)

/-- The destination of a KIND = 1 write (R274) as a message of ORDERED PUT. -/
def Block.pipeMsg (b : Block) (e : Env) (part : Nat) (t : Tensor) (cmpr : Bool) (data : List (Byte × Bool)) : Block :=
  let dst := bits t.base 15 6
  let dpart := bits t.base 19 16
  let rq := bits t.base 5 0
  let key := (dst * 16 + dpart) * 64 + rq
  let seq := mget 0 b.msgs.sendSeq (key * 16 + part)
  let g := (b.gen part).regs
  let b := { b with msgs := { b.msgs with sendSeq := mset 0 b.msgs.sendSeq (key * 16 + part) ((seq + 1) % 65536) } }
  b.sendMsg e { mtype := 0, flags := 2 + (if cmpr then 1 else 0), src := 0, dst := dst, parts := 16 * part + dpart, rop := 0,
                job := g.jobId, epoch := g.epoch, mid := 0, length := data.length, addr := rq, signal := 0, expfmt := 0,
                qseq := seq, data := data }

/-- The frame that byte `n` of a KIND = 2 write goes to: the stream's own frames in order, a new one at each 16 KiB
(R240). None where the pool grants none. -/
def Block.kind2Frame (b : Block) (id part n : Nat) : Block × Option Nat :=
  let have_ := mget [] b.shc.granted id
  match have_[n / 0x4000]? with
  | some f => (b, some f)
  | none => b.allocNow id part

/-- One byte leaving a write channel to memory, to a message or to a frame (R102). -/
def Block.drainByte (b : Block) (e : Env) (part cx cy ch : Nat) : Block × Bool :=
  let cl := b.cluster cx cy
  let c := cl.chan ch
  match b.liveFlow c with
  | none => (b, false)
  | some i =>
    match c.queue[i]? with
    | none => (b, false)
    | some f =>
      let (s, t) := b.flowDescs f
      let w := runBytes (fmtOf t.fmt) s.run
      let q := b.clusterReq part cx cy t.gclass
      let src : Option (Byte × Bool) :=
        if ch = 3 then
          (lsPlace cx cy s w (f.at s t).1 (f.at s t).2).map (fun pa => ((b.cell pa.1.1 pa.1.2).lsRead pa.2 1).headD (0, false))
        else c.held.head?
      match src with
      | none => (b, false)
      | some x =>
        let ms := piecesAt t s f.off f.served
        let waits := if s.kind = 0 then ms.find? (fun m => decide (m.mask ≠ 0) && b.writeWaits e q m.addr) else none
        match waits with
        | some m => (b.noteWait e q m.addr, false)
        | none =>
          let f' : Flow := { f with served := f.served + 1 }
          let rest := if ch = 3 then c.held else c.held.drop 1
          let c' := { c with queue := c.queue.set i f', held := rest }
          let b := b.setCluster cx cy (cl.setChan ch c')
          if s.kind = 0 then
            let b := b.writeStreamByte e q s.cmpr ms x
            (if tailDue t s (f.at s t).1 (f.at s t).2 then b.writeTail e q s.cmpr t f.off (s.position (f.at s t).1) else b, true)
          else if s.kind = 1 then
            let cut := f'.served % 0x100000 = 0 || f'.served = b.flowBytes f
            let cl := b.cluster cx cy
            let buf := mget {} cl.chans (8 + ch)
            let data := buf.held ++ [x]
            let b := b.setCluster cx cy (cl.setChan (8 + ch) { buf with held := if cut then [] else data })
            (if cut then b.pipeMsg e part t s.cmpr data else b, true)
          else
            match b.kind2Frame q.id part f.served with
            | (b, some fr) => (b.writeGranule e (frameAddr fr + f.served % 0x4000) [x.1] x.2 s.cmpr, true)
            | (b, none) => (b.setCluster cx cy cl, false)

/-- Up to `n` bytes of a beat in or out. -/
def Block.moveBytes (e : Env) (part cx cy ch : Nat) (out : Bool) : Nat → Block → Block
  | 0, b => b
  | n + 1, b =>
    let (b, go) := if out then b.drainByte e part cx cy ch else b.fillByte e part cx cy ch
    if go then Block.moveBytes e part cx cy ch out n b else b

/-- Whether a channel's running descriptor writes. S2 writes, S0 and S1 read, S3 does either. -/
def Block.chanWrites (b : Block) (c : Channel) (ch : Nat) : Bool :=
  if ch = 3 then
    match b.liveFlow c with
    | some i => ((c.queue[i]?).map (fun f => (b.flowDescs f).1.dir)).getD false
    | none => false
  else decide (ch = 2)

/-- One 64 B beat of a channel (R101, R103): a read beat arrives, or a write channel receives 64 B of credit and hands a
beat on. `net` is what the plate network's check finds (R375): 0 nothing, 1 a corrected error, 2 one that poisons the beat. -/
def Block.beat (b : Block) (e : Env) (part cx cy ch net : Nat) : Block :=
  let b := if net = 1 then { b with int := { b.int with counters := bump b.int.counters 0x110 1 } } else b
  let cl := b.cluster cx cy
  let c := cl.chan ch
  let bad (l : List (Byte × Bool)) : List (Byte × Bool) := if net = 2 then l.map (fun _ => (0, true)) else l
  if b.chanWrites c ch then
    let c := { c with held := bad (c.held.take 64) ++ c.held.drop 64 }
    let b := b.setCluster cx cy (cl.setChan ch (if ch = 3 then c else { c with credit := c.credit + 64 }))
    Block.moveBytes e part cx cy ch true 64 b
  else
    let b := Block.moveBytes e part cx cy ch false 64 b
    let cl := b.cluster cx cy
    let d := cl.chan ch
    b.setCluster cx cy (cl.setChan ch { d with held := d.held.take c.held.length ++ bad (d.held.drop c.held.length) })

/-! ## The static mesh (R107, R108) -/

/-- The neighbour in a direction (R68): 1 north, 2 east, 3 south, 4 west. -/
def neighbour (x y dir : Nat) : Option (Nat × Nat) :=
  match dir with
  | 1 => if 0 < y then some (x, y - 1) else none
  | 2 => if x + 1 < 640 then some (x + 1, y) else none
  | 3 => if y + 1 < 512 then some (x, y + 1) else none
  | 4 => if 0 < x then some (x - 1, y) else none
  | _ => none

/-- The direction seen from the other end of a link. -/
def opposite (dir : Nat) : Nat := if dir = 1 then 3 else if dir = 2 then 4 else if dir = 3 then 1 else 2

/-- The source of an output in a cell's route entry in force (R108): outputs 0 north, 1 east, 2 south, 3 west, 4 cell;
sources 0 none, 1-4 a direction, 5 the cell. -/
def Cell.routeSrc (c : Cell) (o : Nat) : Nat := bits c.routes (15 * c.route + 3 * o + 2) (15 * c.route + 3 * o)

/-- Words arriving at cell (x, y) from direction `dir` go to every output whose source is that direction; a partition
boundary carries zero, so nothing passes it. -/
def Block.meshIn (part : Nat) (bs : List (Byte × Bool)) : Nat → Block → Nat → Nat → Nat → Block
  | 0, b, _, _, _ => b
  | n + 1, b, x, y, dir =>
    if b.partOfPlate (plateOf x y) ≠ part then b
    else
      let c := b.cell x y
      let b := if c.routeSrc 4 = dir then b.setCell x y { c with mesh := mmod [] c.mesh dir (· ++ bs) } else b
      [1, 2, 3, 4].foldl (fun b o =>
        if (b.cell x y).routeSrc (o - 1) = dir then
          match neighbour x y o with
          | some p => Block.meshIn part bs n b p.1 p.2 (opposite o)
          | none => b
        else b) b

/-- Words that cell (x, y) sends out of side `dir`: the router must take that output from the cell. -/
def Block.meshOut (b : Block) (part x y dir : Nat) (bs : List (Byte × Bool)) : Block :=
  if (b.cell x y).routeSrc (dir - 1) = 5 then
    match neighbour x y dir with
    | some p => Block.meshIn part bs 1152 b p.1 p.2 (opposite dir)
    | none => b
  else b

/-- Takes `n` bytes that arrived from a side; a link that carries nothing gives zeros. -/
def Cell.meshTake (c : Cell) (dir n : Nat) : Cell × List (Byte × Bool) :=
  let l := mget [] c.mesh dir
  ({ c with mesh := mset [] c.mesh dir (l.drop n) }, l.take n ++ clean (zeros (n - l.length)))

end Sys2Proof.Machine
end

