-- ==== Sys2Proof/Machine/Queue.lean ====
section
/-! DEFINITION. Submission queues (R304 to R312, R315): rings, descriptors, refusal, completion and abandonment. -/
namespace Sys2Proof.Machine

def Block.queue (b : Block) (q : Nat) : Queue := mget {} b.fe.queues q
def Block.setQueue (b : Block) (q : Nat) (x : Queue) : Block := { b with fe := { b.fe with queues := mset {} b.fe.queues q x } }
def Block.engine (b : Block) (n : Nat) : Engine := mget {} b.fe.engines n
def Block.setEngine (b : Block) (n : Nat) (x : Engine) : Block := { b with fe := { b.fe with engines := mset {} b.fe.engines n x } }
def Block.bumpFe (b : Block) (off n : Nat) : Block := { b with fe := { b.fe with counters := bump b.fe.counters off n } }

/-- Entries of a queue's ring (R304). -/
def Queue.cap (q : Queue) : Nat := 64 * 2 ^ q.size

/-- A descriptor from its bytes (R305). -/
def Desc.ofBytes (bs : List Byte) : Desc where
  opc := leAt bs 0 1
  flags := leAt bs 1 1
  deadline := leAt bs 2 2
  waitSo := leAt bs 4 2
  sigSo := leAt bs 6 2
  waitVal := leAt bs 8 8
  deps := (List.range 6).map (fun i => (leAt bs (16 + 6 * i) 1, leAt bs (17 + 6 * i) 5))
  arg := leAt bs 52 6
  imm := leAt bs 60 4
  reserved := decide (leAt bs 58 2 ≠ 0) || bit (leAt bs 1 1) 7
    || decide (bits (leAt bs 4 2) 14 13 ≠ 0) || decide (bits (leAt bs 6 2) 14 13 ≠ 0)

def Desc.irq (d : Desc) : Bool := bit d.flags 0
def Desc.evt (d : Desc) : Bool := bit d.flags 1
def Desc.acq (d : Desc) : Bool := bit d.flags 2
def Desc.rel (d : Desc) : Bool := bit d.flags 3
def Desc.gate (d : Desc) : Bool := bit d.flags 4
def Desc.axEnd (d : Desc) : Bool := bit d.flags 5
def Desc.genDone (d : Desc) : Bool := bit d.flags 6
def Desc.waitEn (d : Desc) : Bool := bit d.waitSo 15
def Desc.sigEn (d : Desc) : Bool := bit d.sigSo 15
def Desc.waitObj (d : Desc) : Nat := bits d.waitSo 12 0
def Desc.sigObj (d : Desc) : Nat := bits d.sigSo 12 0

/-- The requester ID that an engine of R335 uses (R239): a plate engine acts through its plate's first stream port. -/
def engineReq (n : Nat) : Nat :=
  if n < 8 then 640 * n
  else if n < 40 then 8192 + (n - 8)
  else if n < 46 then 2 * 8192 + (n - 40)
  else if n = 46 then 5 * 8192
  else 5 * 8192 + 1

/-- The source unit of an engine's records (R328). -/
def engineSource (n : Nat) : Nat :=
  if n < 8 then n else if n < 40 then 0x50 + (n - 8) else if n < 46 then 0x48 + (n - 40) else if n = 46 then 0x1A else 0x1E

/-- The front end that writes a queue's records: on H0. -/
def feSource : Nat := 0x18

/-- The host-visible reads and writes of a ring or an argument: host memory or the queue partition's memory. -/
def Block.readFrom (b : Block) (e : Env) (q : Req) (host : Bool) (a n : Nat) : Block × List (Byte × Bool) :=
  if host then (b, (hostRead b.host a n).zip ((List.range n).map (fun i => mget false b.hostPoison (a + i))))
  else b.readMem e q a n

/-- Reads `n` bytes of a command's argument block: it lies in the memory that holds the descriptor, the ring's or, for a
command of a step list, the device's. -/
def Block.readArg (b : Block) (e : Env) (id : Nat) (x : Queue) (r : Running) (n : Nat) : Block × List Byte :=
  let o := b.readFrom e { id := id, part := x.part } (x.host && !r.stepList) r.desc.arg n
  (o.1, o.2.map Prod.fst)

/-- Whether an engine may serve a partition's queue (R312). -/
def Block.mayBind (b : Block) (eng part : Nat) : Bool :=
  if eng < 8 then
    decide (part < 8) && (mget ({} : Part) b.fe.parts part).valid && decide ((mget ({} : Part) b.fe.parts part).first = eng)
  else if eng < 47 then decide (part < 8) || decide (part = 15)
  else decide (eng = 47) && decide (part = 15)

/-- The engine kind that an OPC needs (R306). -/
def opcFits (opc eng : Nat) : Bool :=
  match opc with
  | 0 | 6 => true
  | 1 | 2 => eng = 46
  | 3 => eng < 8
  | 4 => 8 ≤ eng && eng < 40
  | 5 => 40 ≤ eng && eng < 46
  | 7 => eng = 47
  | _ => false

/-- The default deadline of an engine in ms (R315). -/
def dlDefault (eng : Nat) : Nat :=
  if eng < 8 then 10000 else if eng < 40 then 1000 else if eng < 46 then 10000 else 60000

/-- The default time slice of an engine in µs (R313, R335). -/
def tsDefault (eng : Nat) : Nat := if eng < 8 then 50000 else 500

/-! ## The running commands of a queue -/

/-- Replaces the running entry with sequence number `seq`. -/
def Queue.update (q : Queue) (seq : Nat) (f : Running → Running) : Queue :=
  { q with running := q.running.map (fun r => if r.seq = seq then f r else r) }

/-- The sequence number of the next command to take from the ring. -/
def Queue.nextSeq (q : Queue) : Nat := q.completed + q.running.length + 1

/-- The first running entry in a phase. -/
def Queue.inPhase (q : Queue) (p : Phase) : Option Running := q.running.find? (fun r => decide (r.phase = p))

/-- The command a queue executes. -/
def Queue.active (q : Queue) : Option Running := q.inPhase .executing

/-- A class-1 record of a queue (R331). -/
def Block.queueEvent (b : Block) (e : Env) (q code sev seq : Nat) (more : List (Nat × Nat × Nat)) : Block :=
  b.post e { cls := 1, sev := sev, code := code, part := (b.queue q).part, source := feSource
             payload := [(24, 1, q), (32, 8, seq)] ++ more }

/-- The completion write (R309): the newest COMPLETED to CADDR. -/
def Block.completionWrite (b : Block) (e : Env) (q : Nat) : Block :=
  let x := b.queue q
  if x.caddr = 0 then b
  else if x.caddrHost then (b.viaPort false).writeHost x.caddr (leBytes 8 x.completed)
  else b.writeMem e { id := engineReq x.engine, part := x.part } false x.caddr (clean (leBytes 8 x.completed))

/-- Advances COMPLETED over the commands at the front that are done, in sequence order (R308, R309). -/
def Block.retireFuel (e : Env) (q : Nat) : Nat → Block → Block
  | 0, b => b
  | n + 1, b =>
    let x := b.queue q
    match x.running with
    | [] => b
    | r :: rs =>
      if r.phase = .finished then
        let b := b.setQueue q { x with running := rs, completed := x.completed + 1, state := if rs.isEmpty then 1 else x.state }
        let b := b.completionWrite e q
        let b := if r.desc.evt then b.queueEvent e q 9 0 r.seq [] else b
        let b := if r.desc.irq then b.fireMsix (funcOf x.part) x.vector else b
        Block.retireFuel e q n b
      else if r.phase = .abandoned then
        let b := b.setQueue q { x with running := rs, completed := x.completed + 1, state := if rs.isEmpty then 1 else x.state }
        Block.retireFuel e q n (b.completionWrite e q)
      else b

def Block.retire (b : Block) (e : Env) (q : Nat) : Block := Block.retireFuel e q ((b.queue q).running.length + 1) b

/-- Drops a collective command from every engine (R281). -/
def Block.dropColl (b : Block) (q s : Nat) : Block :=
  let keep (l : List CollPart) : List CollPart := l.filter (fun c => !(c.queue = q && c.seq = s))
  let engines := b.coll.engines.map (fun x => (x.1, { x.2 with
    queued := (x.2.queued.map (fun a => (a.1, keep a.2))).filter (fun a => !a.2.isEmpty)
    active := (x.2.active.map (fun a => (a.1, keep a.2))).filter (fun a => !a.2.isEmpty) }))
  { b with coll := { engines := engines, cmds := b.coll.cmds.filter (fun c => !(c.queue = q && c.seq = s)) } }

/-- The end of a print's pin (R176): the wait that began at a write held by it is counted with the last pin of the bank. -/
def Block.unpin (b : Block) (e : Env) (pin : Option (Nat × Nat)) : Block :=
  match pin with
  | none => b
  | some (p, bank) =>
    let g := b.gen p
    let n := mget 0 g.aux.pins bank - 1
    let regs := match g.aux.stallFrom with
      | some t => if n = 0 then { g.regs with printStall := sat48 g.regs.printStall (e.clk.now - t) } else g.regs
      | none => g.regs
    b.setGen p { g with
      regs := regs
      aux := { g.aux with pins := mset 0 g.aux.pins bank n, stallFrom := if n = 0 then none else g.aux.stallFrom } }

/-- Stops every region of the running fused command of a partition without further effect. -/
def Block.haltRegions (b : Block) (part : Nat) : Block :=
  let i := b.image part
  b.setImage part { i with
    runCmd := none
    regions := i.regions.map (fun p => (p.1, { p.2 with state := .idle, done := false, frozenCause := 0, syncWait := none,
                                                        walk := {}, waitLeft := 0, window := none, drain := false })) }

/-- What an engine loses with a command that ends without completing (R311): its parts, its pin, its update, its regions or
its saved state, and its place on the engine. -/
def Block.quit (b : Block) (e : Env) (q : Nat) (r : Running) : Block :=
  let x := b.queue q
  let en := b.engine x.engine
  let b := (b.dropColl q r.seq).unpin e r.pin
  let b : Block := match b.boot.update with
    | some u => if u.queue = q && u.seq = r.seq then { b with boot := { b.boot with update := none } } else b
    | none => b
  if r.phase ≠ .executing && r.phase ≠ .retired then b
  else
    let b := if r.desc.opc ≠ 3 then b
      else if en.suspended = some q then { b with plates := { b.plates with saved := mset none b.plates.saved r.part none } }
      else b.haltRegions r.part
    b.setEngine x.engine { en with
      serving := if en.serving = some q then none else en.serving
      suspended := if en.suspended = some q then none else en.suspended
      sliceOver := en.sliceOver && decide (en.serving ≠ some q) }

/-- Refuses a command (R33, R311): it executes nothing and counts as completed. -/
def Block.refuseCmd (b : Block) (e : Env) (q seq reason off : Nat) : Block :=
  let b := match (b.queue q).running.find? (fun r => decide (r.seq = seq)) with
    | some r => b.quit e q r
    | none => b
  let b := b.setQueue q { (b.queue q).update seq (fun r => { r with phase := .finished, lock := none, pin := none }) with
    reason := reason }
  let b := (b.bumpFe 0x800 1).queueEvent e q 1 1 seq [(25, 1, reason), (40, 8, off)]
  b.retire e q

/-- Abandons one command (R311): it signals nothing, its lock is orphaned, its record is written. -/
def Block.abandonCmd (b : Block) (e : Env) (q seq : Nat) : Block :=
  let x := b.queue q
  match x.running.find? (fun r => decide (r.seq = seq)) with
  | none => b
  | some r =>
    let b := b.quit e q r
    let b := b.setQueue q { x.update seq (fun r => { r with phase := .abandoned, lock := none, pin := none }) with
      abnd := max x.abnd seq, abndSeqs := (seq, seq) :: x.abndSeqs }
    let b := match r.lock with
      | some n => b.orphanLock e n
      | none => b
    let b := (b.bumpFe 0x808 1).queueEvent e q 2 1 seq [(40, 8, seq)]
    b.retire e q

/-- Abandons every command of a queue that has not completed (R311): COMPLETED advances to SUBMITTED, one record. -/
def Block.abandonQueue (b : Block) (e : Env) (q : Nat) : Block :=
  let x := b.queue q
  if x.submitted ≤ x.completed then b.setQueue q { x with running := [] }
  else
    let locks := x.running.filterMap (fun r => r.lock)
    let n := x.submitted - x.completed
    let b := x.running.foldl (fun b r => b.quit e q r) b
    let b := b.setQueue q { x with
      running := [], abnd := x.submitted, abndSeqs := (x.completed + 1, x.submitted) :: x.abndSeqs
      completed := x.submitted, state := if x.enable then 1 else 0 }
    let b := locks.foldl (fun b n => b.orphanLock e n) b
    let b := (b.bumpFe 0x808 n).queueEvent e q 2 1 x.submitted [(40, 8, x.submitted)]
    b.completionWrite e q

/-- Whether a sequence number of a queue was abandoned. -/
def Queue.wasAbandoned (q : Queue) (v : Nat) : Bool :=
  q.abndSeqs.any (fun r => decide ((v + 2 ^ 40 - r.1 % 2 ^ 40) % 2 ^ 40 ≤ r.2 - r.1))

/-- An edge is satisfied (R307). -/
def Queue.satisfies (q : Queue) (v : Nat) : Bool :=
  decide ((q.completed + 2 ^ 40 - v) % 2 ^ 40 < 2 ^ 39)

/-- Sets ENABLE (R304). -/
def Block.enableQueue (b : Block) (q : Nat) : Block :=
  let x := b.queue q
  b.setQueue q { x with enable := true, submitted := 0, completed := 0, state := 1, running := [], abndSeqs := [] }

/-- The queue that runs a partition's image: an executing RUN on the plate engine of its first plate (R303). -/
def Block.runQueue (b : Block) (part : Nat) : Option Nat :=
  (b.fe.queues.find? (fun p =>
    decide (p.2.part = part) && decide (p.2.engine < 8) && decide (p.2.state ≠ 6) &&
      (match p.2.active with | some r => decide (r.desc.opc = 3) | none => false))).map Prod.fst

/-- Refuses the RUN that a partition executes, because one of its descriptors is refused (R33, R101, R102). -/
def Block.refuseRun (b : Block) (e : Env) (part reason : Nat) : Block :=
  let b := b.haltRegions part
  match b.runQueue part with
  | none => b
  | some q =>
    match (b.queue q).active with
    | some r => b.refuseCmd e q r.seq reason 52
    | none => b

end Sys2Proof.Machine
end

