-- ==== Sys2Proof/Machine/Reset.lean ====
section
/-! DEFINITION. Resets that keep HBM (R8, R367 to R370): what a partition reset and a retained reset do at once. -/
namespace Sys2Proof.Machine

def Block.setClk (b : Block) (c : ClockUnit) : Block := { b with clk := c }
def Block.bumpClk (b : Block) (off n : Nat) : Block := { b with clk := { b.clk with counters := bump b.clk.counters off n } }
def Block.dom (b : Block) (d : Nat) : Dom := mget {} b.clk.doms d
def Block.setDom (b : Block) (d : Nat) (x : Dom) : Block := { b with clk := { b.clk with doms := mset {} b.clk.doms d x } }

/-- A class-8 record (R374). -/
def Block.clkEvent (b : Block) (e : Env) (code sev part src cls dom : Nat) (more : List (Nat × Nat × Nat)) : Block :=
  b.post e { cls := 8, sev := sev, code := code, part := part, source := 0x1D
             payload := [(24, 1, src), (25, 1, cls), (26, 2, dom)] ++ more }

/-- The plates of a partition. -/
def Block.platesOf (b : Block) (part : Nat) : List Nat := (List.range 8).filter (fun p => b.holdsPlate part p)

/-- The six domains of a plate (R11). -/
def plateDoms (p : Nat) : List Nat := (List.range 6).map (fun i => 6 * p + i)

/-- What a cell keeps through a reset that keeps HBM (R368): its counters. -/
def Cell.wiped (c : Cell) : Cell := { counters := c.counters }

/-- The plate of a cell index, and of a cluster index. -/
def plateOfCell (k : Nat) : Nat := plateOf (k % 640) (k / 640)
def plateOfCluster (k : Nat) : Nat := plateOf (8 * (k % 80)) (8 * (k / 80))

/-- Loses the local stores, accumulators, vector registers, op tables and sequencer state of some plates (R368). -/
def Block.wipePlates (b : Block) (hit : Nat → Bool) : Block :=
  { b with plates := { b.plates with
      cells := (b.plates.cells.map (fun p => (p.1, if hit (plateOfCell p.1) then p.2.wiped else p.2))).filter
        (fun p => decide (p.2 ≠ {}))
      clusters := b.plates.clusters.filter (fun p => !hit (plateOfCluster p.1)) } }

/-- Disarms the breakpoint units of the partitions that satisfy `p` (R408). -/
def Block.disarm (b : Block) (p : Nat → Bool) : Block :=
  { b with obs := { b.obs with
      bps := (b.obs.bps.map (fun u => (u.1, if p u.2.part then { u.2 with arm := false, state := 0, hits := 0 } else u.2))).filter
        (fun u => decide (u.2 ≠ {}))
      bpFrom := b.obs.bpFrom.filter (fun u => !p u.1) } }

/-- The queues of the partitions that satisfy `p`. -/
def Block.queuesWhere (b : Block) (p : Nat → Bool) : List Nat :=
  (b.fe.queues.filter (fun q => p q.2.part)).map Prod.fst

/-- Drops the receive queues of a partition: their frames go to its reclaim (R244). -/
def Block.dropRx (b : Block) (part : Nat) : Block :=
  { b with msgs := { b.msgs with
      queues := b.msgs.queues.filter (fun q => q.1 / 64 ≠ part)
      early := b.msgs.early.filter (fun m => m.parts % 16 ≠ part) } }

/-- Abandons every part of some partitions and restarts COLL_SEQ (R281, R292). -/
def Block.dropCollParts (b : Block) (hit : Nat → Bool) : Block :=
  { b with coll := {
      engines := b.coll.engines.map (fun x => (x.1, { x.2 with
        queued := x.2.queued.filter (fun a => !hit a.1), active := x.2.active.filter (fun a => !hit a.1)
        seqs := x.2.seqs.filter (fun a => !hit a.1) }))
      cmds := b.coll.cmds.filter (fun c => !hit c.part) } }

/-- What the registers of a queue lose in a reset of its partition (R335): JOB and REASON. -/
def Block.resetQueue (b : Block) (e : Env) (q : Nat) : Block :=
  let b := b.abandonQueue e q
  b.setQueue q { b.queue q with job := false, reason := 0 }

/-- The latches of the pairs that a reset restores are empty after it (R5); `hit` says which BAR0 offsets those are. -/
def Block.dropLatches (b : Block) (hit : Nat → Bool) : Block :=
  { b with latches := b.latches.filter (fun l => !hit (l.1 % 2 ^ 32)) }

/-- The plate and the cluster index of a PLT offset (R114). -/
def pltPlate (a : Nat) : Option Nat := if 0x2000000 ≤ a && a < 0x2800000 then some ((a - 0x2000000) / 0x100000) else none
def pltCluster (a : Nat) : Nat := (a - 0x2000000) % 0x100000 / 0x400

/-- The exact region whose base register lies at an offset (R245). -/
def ewaIndex (a : Nat) : Option Nat := if 0xB00200 ≤ a && a < 0xB00600 && a % 16 = 0 then some ((a - 0xB00200) / 16) else none

/-- The pairs that a partition reset restores, and those that a retained reset does (R114, R226, R245, R397). -/
def Block.partPairs (b : Block) (part a : Nat) : Bool :=
  (match pltPlate a with | some p => b.holdsPlate part p | none => false) ||
    (match ewaIndex a with | some n => decide ((mget ({} : ExactRegion) b.shc.exact n).part = part) | none => false)

def retPairs (a : Nat) : Bool :=
  (pltPlate a).isSome || (ewaIndex a).isSome || (decide (0x1000400 ≤ a) && decide (a < 0x1000800)) ||
    (decide (0xA00000 ≤ a) && decide (a < 0xB00000) && decide (0x4000 ≤ a % 0x10000) && decide (a % 0x100 = 0x18))

/-- The start of a reclaim: from now on the partition's requests wait. FRAMES_RECLAIMED ends it (R244); `why` is 0 for a
partition reset and 1 for a job unload. -/
def Block.startReclaim (b : Block) (part why : Nat) : Block :=
  { b with shc := { b.shc with reclaiming := mset 0 b.shc.reclaiming part (why + 1) } }

/-- The frames of every plate as zero, clean memory (R244). -/
def inFrames (a : Nat) : Bool :=
  decide (windowBase ≤ a) && decide (0x34000000 ≤ (a - windowBase) % 0x40000000) && decide ((a - windowBase) % 0x40000000 < 0x3C000000)

def Block.zeroFrames (b : Block) : Block :=
  { b with mem := { b.mem with
      bytes := b.mem.bytes.filter (fun x => !inFrames x.1), poison := b.mem.poison.filter (fun x => !inFrames (64 * x.1)) } }

/-- The start of a partition reset (R367, R368, R8): the partition's commands are abandoned, its locks orphaned, its
frames reclaimed, its plate domains held in reset with everything they hold lost. PARTITION_RESET_DONE ends it. During a
retained reset it is absorbed (R370). -/
def Block.partitionReset (b : Block) (e : Env) (part trigger : Nat) : Block :=
  if b.clk.ret.isSome then b
  else
    let b := b.dropLatches (b.partPairs part)
    let b := (b.bumpClk 0x208 1).clkEvent e 4 2 part 0xFF 2 0xFFFF [(28, 1, trigger)]
    let ps := b.platesOf part
    let b : Block := { b with clk := { b.clk with parts := mset none b.clk.parts part (some { trigger := trigger, since := e.clk.now }) } }
    let b := (ps.flatMap plateDoms).foldl (fun b d => b.setDom d { b.dom d with state := 2 }) b
    let b := (b.queuesWhere (fun p => p = part)).foldl (fun b q => b.resetQueue e q) b
    let b := b.orphanWhere e (fun o => o.holderPart = part)
    let b : Block := { b with
      shc := { b.shc with exact := b.shc.exact.filter (fun r => r.2.part ≠ part) }
      plates := { b.plates with saved := mset none b.plates.saved part none } }
    let b := ((b.dropRx part).startReclaim part (if trigger = 8 then 1 else 0)).haltRegions part
    let b := ((b.wipePlates (fun p => ps.contains p)).disarm (fun p => p = part)).dropCollParts (fun p => p = part)
    { b with int := { b.int with latentPoison := mset false b.int.latentPoison part false } }

/-- Writes back every D line and invalidates all lines but G lines (R230). -/
def Block.flushCache (b : Block) : Block :=
  let b := (b.shc.lines.filter (fun l => decide (l.2.state = .d))).foldl
    (fun b l => b.bumpShc (0x1010 + 0x40 * b.sliceOf (128 * l.1)) 1) b
  { b with shc := { b.shc with lines := b.shc.lines.filter (fun l => decide (l.2.state = .g)) } }

/-- The start of a retained reset (R367 to R369): a second one merges into it. RETAINED_RESET_SEQUENCE ends it. -/
def Block.retainedReset (b : Block) (e : Env) (trigger : Nat) : Block :=
  let b := b.bumpClk 0x200 1
  if b.clk.ret.isSome then b
  else
    let b := (b.dropLatches retPairs).clkEvent e 4 3 15 0xFF 1 0xFFFF [(28, 1, trigger)]
    let b : Block := { b with clk := { b.clk with ret := some { trigger := trigger, since := e.clk.now }, parts := [] } }
    let b : Block := { b with fe := { b.fe with ready := false } }
    let b := ((List.range 88).append [92, 93]).foldl (fun b d => b.setDom d { b.dom d with state := 2 }) b
    let b := (b.queuesWhere (fun _ => true)).foldl (fun b q => b.resetQueue e q) b
    let b := b.orphanWhere e (fun _ => true)
    let b : Block := { b with fe := { b.fe with engines := [] }, plates := { b.plates with saved := [] } }
    let b := (List.range 8).foldl (fun b p => (b.dropRx p).haltRegions p) b
    let b := (((b.zeroFrames.flushCache).wipePlates (fun _ => true)).disarm (fun _ => true)).dropCollParts (fun _ => true)
    { b with
      shc := { b.shc with frames := [], allocs := [], credit := 0, granted := [], reclaiming := [], exact := [] }
      int := { b.int with latentPoison := [], plog := [] }
      mem := { b.mem with
        hbm := b.mem.hbm.map (fun s => (s.1, { s.2 with selfRefresh := true, trained := false, temp := 0, tstate := 0 }))
        chans := b.mem.chans.map (fun c => (c.1, { c.2 with tg := {} })) } }

end Sys2Proof.Machine
end

