-- ==== Sys2Proof/Machine/Gen.lean ====
section
/-! DEFINITION. The generation unit (R156 to R178): topology and spanning tree, the messages of the fix protocol, faults,
rewinds, stops, and the step gate. -/
namespace Sys2Proof.Machine

/-! ## The job's shape on this device -/

def Block.children (b : Block) (p : Nat) : List Nat := b.topo.children (b.gen p).job.devices b.topo.self
def Block.parent (b : Block) (p : Nat) : Option Nat := b.topo.parent (b.gen p).job.devices b.topo.self
def Block.isRoot (b : Block) (p : Nat) : Bool := (b.gen p).regs.root

def Block.modGen (b : Block) (p : Nat) (f : GenUnit → GenUnit) : Block := b.setGen p (f (b.gen p))
def Block.modRegs (b : Block) (p : Nat) (f : GenRegs → GenRegs) : Block :=
  b.modGen p (fun g => { g with regs := f g.regs })
def Block.modProto (b : Block) (p : Nat) (f : Proto → Proto) : Block :=
  b.modGen p (fun g => { g with proto := f g.proto })
def Block.modAux (b : Block) (p : Nat) (f : GenAux → GenAux) : Block :=
  b.modGen p (fun g => { g with aux := f g.aux })

/-- A class-2 record (R178). -/
def Block.genEvent (b : Block) (e : Env) (p code sev g : Nat) (more : List (Nat × Nat × Nat)) : Block :=
  b.post e { cls := 2, sev := sev, code := code, part := p, source := 0x1A
             payload := [(24, 6, g), (30, 2, (b.gen p).regs.epoch)] ++ more }

/-- The data area of a control message (R161): the 32 B control header, then 16-bit values, or the four bytes of ABORT. -/
def GenMsg.bytes (m : GenMsg) (ctype : Nat) : List Byte :=
  leBytes 1 ctype ++ leBytes 1 m.flags ++ leBytes 2 m.sender ++ leBytes 6 m.gen ++ leBytes 6 m.gen2 ++ leBytes 8 m.tick1
    ++ leBytes 8 m.tick2
    ++ (if ctype = 7 then leBytes 1 (m.data.getD 0 0) ++ leBytes 1 (m.data.getD 1 0) ++ leBytes 2 (m.data.getD 2 0)
        else m.data.flatMap (fun v => leBytes 2 v))

/-- The control message that a data area spells, with the header's job and epoch. -/
def GenMsg.ofBytes (job epoch : Nat) (bs : List Byte) : GenMsg where
  job := job
  epoch := epoch
  sender := leAt bs 2 2 % 1024
  flags := leAt bs 1 1
  gen := leAt bs 4 6
  gen2 := leAt bs 10 6
  tick1 := leAt bs 16 8
  tick2 := leAt bs 24 8
  data := if leAt bs 0 1 = 7 then [leAt bs 32 1, leAt bs 33 1, leAt bs 34 2 % 1024]
    else (List.range ((bs.length - 32) / 2)).map (fun i => leAt bs (32 + 2 * i) 2)

/-- Sends a control message of type `ctype` (R161). -/
def Block.sendGen (b : Block) (e : Env) (p ctype : Nat) (dsts : List Nat) (m : GenMsg) : Block :=
  let r := (b.gen p).regs
  let m := { m with job := r.jobId, epoch := r.epoch, sender := b.topo.self }
  let data := clean (m.bytes ctype)
  dsts.foldl (fun b d =>
    (b.sendMsg e { mtype := 4, flags := 0, src := 0, dst := d, parts := 17 * p, rop := 0, job := r.jobId, epoch := r.epoch,
                   mid := 0, length := data.length, addr := 0, signal := 0, expfmt := 0, qseq := 0, data := data }).traceRec
      e 3 ctype (m.epoch + 65536 * (m.gen % 2 ^ 32))) b

/-- A control message with nothing set. -/
def GenMsg.blank : GenMsg := { job := 0, epoch := 0, sender := 0, flags := 0, gen := 0, gen2 := 0, tick1 := 0, tick2 := 0, data := [] }

/-- Whether a set of senders holds every child. -/
def Block.allChildren (b : Block) (p : Nat) (got : List Nat) : Bool := (b.children p).all (fun c => got.contains c)

/-- Region number of a role in the job's table. -/
def GenRegs.withRole (r : GenRegs) (role : Nat) : Option GenReg :=
  ((r.regions.filter (fun p => decide (p.2.role = role) && decide (p.2.len ≠ 0))).head?).map Prod.snd

/-- The bank that CUR_GEN names (R157). -/
def Env.bank (e : Env) (p : Nat) : Nat := e.curGen p % 2
def Env.latent (e : Env) (p : Nat) : Nat := (e.curGen p + 1) % 2

/-- Stores bytes in a bank on the generation unit's behalf. -/
def Block.genStore (b : Block) (e : Env) (a : Nat) (bs : List Byte) : Block :=
  (bs.zip (List.range bs.length)).foldl (fun b x => b.writeGranule e (a + x.2) [x.1] false false) b

/-! ## Auto-exposure (R73, R160) -/

/-- The op-table entry `n` of a cell. -/
def Cell.op (c : Cell) (n : Nat) : OpEntry := OpEntry.ofBits (mget 0 c.ops n)

/-- Merges the auto-exposure registers of a partition's cells into a slot map of exponents plus 32,768. -/
def Block.ownMaxima (b : Block) (p : Nat) : SMap Nat :=
  (b.plates.cells.filter (fun c => b.holdsPlate p (plateOfCell c.1))).foldl (fun m c =>
    c.2.autoExp.foldl (fun m r =>
      let o := c.2.op r.1
      if o.autoExp then mset 0 m o.expSlot (max (mget 0 m o.expSlot) r.2) else m) m) []

def mergeMax (x y : SMap Nat) : SMap Nat := y.foldl (fun m r => mset 0 m r.1 (max (mget 0 m r.1) r.2)) x

/-- The 2,016 16-bit values of MAXIMA (R161). -/
def maximaData (m : SMap Nat) : List Nat := (List.range 2016).map (fun s => (mget 0 m s + 32768) % 65536)

def maximaOf (data : List Nat) : SMap Nat :=
  ((data.zip (List.range data.length)).foldl (fun m p => mset 0 m p.2 ((p.1 + 32768) % 65536)) [])

/-- EXPOSE from the maxima: E = min(511, maximum + 12), slots with none unchanged (R73, R159). -/
def exposeData (m : SMap Nat) : List Nat :=
  (List.range 2016).map (fun s =>
    let v := mget 0 m s
    if v = 0 then 0x8000 else twos 10 (min 511 ((v : Int) - 32768 + 12)))

/-- Writes the held EXPOSE values into the latent RNG bank once the RNG copy has run (R160), which a job without a training
record does not have (R150), and once the bank may be written (R166). -/
def Block.writeExpose (b : Block) (e : Env) (p : Nat) : Block :=
  let g := b.gen p
  if !g.proto.exposeGot || g.proto.exposeDone then b
  else
    match g.regs.withRole 1 with
    | none => b.modProto p (fun x => { x with exposeDone := true })
    | some r =>
      if (g.job.training.isSome && !g.proto.rngCopied) || !g.bankOpen (e.latent p) then b
      else
        let b := g.proto.exposure.foldl (fun b s => b.genStore e (r.at (e.latent p) (64 + 2 * s.1)) (leBytes 2 (s.2 - 1))) b
        b.modProto p (fun x => { x with exposeDone := true })

/-- Holds the EXPOSE values: slot to value plus one; unchanged slots are not listed. -/
def Block.takeExpose (b : Block) (e : Env) (p : Nat) (data : List Nat) : Block :=
  let m := (data.zip (List.range data.length)).foldl
    (fun m x => if x.1 = 0x8000 then m else mset 0 m x.2 (x.1 + 1)) []
  (b.modProto p (fun x => { x with exposure := m, exposeGot := true })).writeExpose e p

/-! ## Faults, rewinds and stops -/

/-- The epochs that a unit at epoch `own` ignores (R159). -/
def staleEpoch (own m : Nat) : Bool :=
  let d := (own + 65536 - m) % 65536
  decide (1 ≤ d) && decide (d < 32768)

def Block.countStale (b : Block) (p : Nat) : Block :=
  b.modRegs p (fun r => { r with staleMsg := sat48 r.staleMsg 1 })

/-- Expires the uncompared bracket records of a partition (R387); their frames are freed. -/
def Block.expireBrackets (b : Block) (e : Env) (p : Nat) : Block :=
  let mine := b.int.brackets.filter (fun r =>
    match r.2 with | some k => decide (k.part = p) && k.other.isNone | none => false)
  mine.foldl (fun b r =>
    match r.2 with
    | none => b
    | some k =>
      let b := k.frames.foldl (fun b f => b.freeFrame e (5 * 8192 + 2) 15 f) b
      { b with int := { b.int with
          brackets := mset none b.int.brackets r.1 none
          counters := bump b.int.counters 0x190 1 } }) b

/-- The data of an ABORT: cause, stop cause, detecting device (R161). -/
def abortMsg (g cause stop device : Nat) (stopFlag : Bool) : GenMsg :=
  { GenMsg.blank with gen := g, flags := if stopFlag then 4 else 0, data := [cause, stop, device] }

def addOnce (l : List Nat) (x : Nat) : List Nat := if l.contains x then l else l ++ [x]

def addReport (l : List (Nat × Nat × Bool)) (x : Nat × Nat × Bool) : List (Nat × Nat × Bool) :=
  l.filter (fun r => r.1 ≠ x.1) ++ [x]

/-- The messages of the new epoch that came before its ABORT. -/
def Block.replayEarly (b : Block) (p : Nat) : Block :=
  let g := b.gen p
  let now := g.aux.early.filter (fun m => decide (m.2.epoch = g.regs.epoch))
  let b := b.modAux p (fun a => { a with early := a.early.filter (fun m => m.2.epoch ≠ g.regs.epoch) })
  now.foldl (fun b m =>
    if m.1 = 8 then
      b.modProto p (fun x => { x with rewound := addReport x.rewound (m.2.sender, m.2.gen2, bit m.2.flags 3) })
    else b) b

/-- Steps 1 to 3 of R168 on this device: ABORT forwarded, epoch raised, latent state discarded, commands abandoned, the
partition reset (unless a reset of the device runs already). -/
def Block.abortLocal (b : Block) (e : Env) (p cause stop device : Nat) (stopFlag reset : Bool) : Block :=
  let b := b.sendGen e p 7 (b.topo.jobNeighbours (b.gen p).job.devices b.topo.self)
    (abortMsg (e.curGen p) cause stop device stopFlag)
  let b := b.genEvent e p 3 2 (e.curGen p) [(32, 1, cause), (33, 2, device)]
  let b := b.modGen p (fun g => { g with
    regs := { g.regs with
      epoch := (g.regs.epoch + 1) % 65536
      state := if stopFlag then 6 else 5
      latentWait := match g.aux.waitFrom with
        | some t => sat48 g.regs.latentWait (e.clk.now - t)
        | none => g.regs.latentWait
      printStall := match g.aux.stallFrom with
        | some t => sat48 g.regs.printStall (e.clk.now - t)
        | none => g.regs.printStall }
    proto := { latentOrd := false }
    aux := { g.aux with
      exposeBy := 0, orderBy := 0, waitFrom := none, stallFrom := none
      rejoinBy := e.clk.now + 1000 * g.regs.rejoinTimeout } })
  let b := b.replayEarly p
  if reset then b.partitionReset e p 7 else b

/-- A stop of the job on this device (R171): ABORT flooded with the stop flag, JOB_STOPPED with its cause. The flood's
cause byte is 3. -/
def Block.stopJob (b : Block) (e : Env) (p cause : Nat) (reset : Bool) : Block :=
  if b.holdsJob p then
    let b := b.abortLocal e p 3 cause b.topo.self true reset
    b.genEvent e p 6 2 (e.curGen p) [(32, 1, cause), (33, 1, 0)]
  else b

/-- An address of this attempt that the attempt before it, at the same step, named (R381). -/
def Block.poisonAgain (b : Block) (p : Nat) : Option Nat :=
  (mget [] b.int.tryLog p).find? (fun a => (mget [] b.int.faultLog p).contains a)

/-- A class-4 record (R399). -/
def Block.intEvent (b : Block) (e : Env) (code sev part plate x y : Nat) (more : List (Nat × Nat × Nat)) : Block :=
  b.post e { cls := 4, sev := sev, code := code, part := part, source := 0x1C
             payload := [(24, 1, plate), (26, 2, x), (28, 2, y)] ++ more }

/-- A job fault of R22 with a cause of R168. A cause-0 fault in a partition with CURRENT_POISON stops the job (R380), as
does one whose log repeats an address of the last cause-0 attempt (R381). -/
def Block.jobFaultWith (b : Block) (e : Env) (p cause : Nat) (reset : Bool) : Block :=
  if !b.holdsJob p then b
  else if cause = 0 && mget false b.int.currentPoison p then b.stopJob e p 4 reset
  else
    match (if cause = 0 then b.poisonAgain p else none) with
    | some a =>
      let b := b.intEvent e 9 2 p 0xFF 0xFFFF 0xFFFF [(32, 8, a)]
      b.stopJob e p 5 reset
    | none =>
      let b := if cause = 0 then
          { b with int := { b.int with
              faultLog := mset [] b.int.faultLog p (mget [] b.int.tryLog p), tryLog := mset [] b.int.tryLog p [] } }
        else b
      b.abortLocal e p cause 0 b.topo.self false reset

def Block.jobFault (b : Block) (e : Env) (p cause : Nat) : Block := b.jobFaultWith e p cause true

/-! ## Progress of the protocol on this device -/

/-- Own READY flags: ORDDEP and POISON (R159, R160). -/
def Block.ownPoison (b : Block) (e : Env) (p : Nat) : Bool :=
  mget false b.int.latentPoison p ||
    (b.gen p).regs.regions.any (fun r => b.anyPoison (r.2.at (e.latent p) 0) r.2.len)

/-- Whether this device may agree ticks for a partition's job (R184): its timebase has locked, or the job is this device's
alone. -/
def Block.mayAgree (b : Block) (e : Env) (p : Nat) : Bool :=
  decide (2 ≤ e.tstate) || decide ((b.gen p).job.devices = [b.topo.self])

/-- MAXIMA goes up, or at the root EXPOSE goes down, when AX_END has come and every child has reported (R159). -/
def Block.progressMaxima (b : Block) (e : Env) (p : Nat) : Block :=
  let x := (b.gen p).proto
  if x.sentMax || !x.axDone || !b.mayAgree e p || !b.allChildren p x.maxGot then b
  else
    let m := mergeMax x.maxima (b.ownMaxima p)
    let b := b.modProto p (fun x => { x with sentMax := true, maxima := m })
    if b.isRoot p then
      let d := exposeData m
      let b := b.sendGen e p 2 (b.children p) { GenMsg.blank with gen := e.curGen p + 1, data := d }
      b.takeExpose e p d
    else
      let b := b.modAux p (fun a => { a with exposeBy := e.clk.now + 1000 * (b.gen p).regs.orderTimeout })
      b.sendGen e p 1 (b.parent p).toList { GenMsg.blank with gen := e.curGen p + 1, data := maximaData m }

/-- Forwards an ORDER and holds it, or aborts when it comes at or after its fix tick (R163, R165). -/
def Block.takeOrder (b : Block) (e : Env) (p : Nat) (o : Order) : Block :=
  let b := b.sendGen e p 4 (b.children p)
    { GenMsg.blank with gen := e.curGen p + 1, flags := b2n o.orddep, tick1 := o.tick, tick2 := o.gate }
  if o.tick ≤ e.clk.now then b.jobFault e p 6
  else
    let b := b.modProto p (fun x => { x with order := some o })
    (b.modAux p (fun a => { a with orderBy := 0 })).modRegs p (fun r => { r with state := 3 })

/-- READY goes up, or at the root ORDER or the refusal of the fix goes down (R159, R163). -/
def Block.progressReady (b : Block) (e : Env) (p : Nat) : Block :=
  let x := (b.gen p).proto
  if x.sentReady || !x.latentDone || !x.exposeDone || !b.mayAgree e p || !b.allChildren p x.readyGot then b
  else
    let pz := x.readyPoison || b.ownPoison e p
    let od := x.readyOrd || x.latentOrd
    let b := (b.modProto p (fun x => { x with sentReady := true })).expireBrackets e p
    if b.isRoot p then
      if pz then b.jobFault e p 2
      else
        let r := (b.gen p).regs
        let t := e.clk.now + r.fixMargin
        b.takeOrder e p { tick := t, gate := t + r.gateGap, orddep := od }
    else
      let b := b.modAux p (fun a => { a with orderBy := e.clk.now + 1000 * (b.gen p).regs.orderTimeout })
      b.sendGen e p 3 (b.parent p).toList { GenMsg.blank with gen := e.curGen p + 1, flags := b2n od + 2 * b2n pz }

/-- The device is confirmed for its current generation (R166). Writes that waited may run again. -/
def Block.confirm (b : Block) (e : Env) (p : Nat) : Block :=
  let b := b.sendGen e p 6 (b.children p) { GenMsg.blank with gen := e.curGen p }
  let b := b.modGen p (fun g => { g with
    regs := { g.regs with
      visible := e.curGen p
      state := if g.regs.state = 4 then 2 else g.regs.state
      latentWait := match g.aux.waitFrom with
        | some t => sat48 g.regs.latentWait (e.clk.now - t)
        | none => g.regs.latentWait }
    proto := { g.proto with fixedGot := [], sentFixed := false }
    aux := { g.aux with confirmed := true, waitFrom := none } })
  b.genEvent e p 2 0 (e.curGen p) []

/-- FIXED goes up, or at the root CONFIRM goes down (R159). -/
def Block.progressFixed (b : Block) (e : Env) (p : Nat) : Block :=
  let g := b.gen p
  if g.regs.state ≠ 4 || g.proto.sentFixed || !b.allChildren p g.proto.fixedGot then b
  else
    let b := b.modProto p (fun x => { x with sentFixed := true })
    if b.isRoot p then b.confirm e p
    else b.sendGen e p 5 (b.parent p).toList { GenMsg.blank with gen := e.curGen p }

/-- Runs the progress steps that a change may have enabled. -/
def Block.progress (b : Block) (e : Env) (p : Nat) : Block :=
  if 2 ≤ (b.gen p).regs.state && (b.gen p).regs.state ≤ 4 then
    (((b.writeExpose e p).progressMaxima e p).progressReady e p).progressFixed e p
  else b

/-! ## Step lists (R321) -/

/-- Reads descriptor `i` of a list. -/
def Block.listDesc (b : Block) (a i : Nat) : Desc := Desc.ofBytes (b.peek (a + 64 * i) 64)

/-- Declares the exact regions of a partition's job that do not stand (R234): at LOAD, and again after a partition reset,
which removed them, before the job's step starts. -/
def Block.declareExact (b : Block) (p : Nat) : Block :=
  (b.gen p).job.exact.foldl (fun b r =>
    if b.shc.exact.any (fun x => x.2.valid && decide (x.2.base = r.1) && decide (x.2.part = p)) then b
    else
      match (List.range 64).find? (fun n => !(mget ({} : ExactRegion) b.shc.exact n).valid) with
      | none => b
      | some n => { b with shc := { b.shc with
          exact := mset {} b.shc.exact n { valid := true, base := r.1, len := r.2, part := p } } }) b

/-- Appends every step list to its queue; edges become absolute sequence numbers; nothing starts before `gate`. The queues
are the job's queues again and its exact regions stand again where a partition reset took them away. -/
def Block.appendLists (b : Block) (p gate : Nat) : Block :=
  let b := b.declareExact p
  let j := (b.gen p).job
  let b := j.lists.foldl (fun b l => b.setQueue l.1 { b.queue l.1 with listBase := (b.queue l.1).submitted, gateAt := gate }) b
  let based := b
  j.lists.foldl (fun b l =>
    let x := b.queue l.1
    let news := (List.range l.2.2).map (fun i =>
      let d := b.listDesc l.2.1 i
      let d := { d with deps := d.deps.map (fun r =>
        if r.2 = 0 then r else (r.1, ((based.queue r.1).listBase + r.2) % 2 ^ 40)) }
      ({ seq := x.submitted + i + 1, desc := d, phase := .edge, due := 0, lock := none, gens := [], part := p,
         stepList := true } : Running))
    b.setQueue l.1 { x with job := true, running := x.running ++ news, submitted := x.submitted + l.2.2, state := max 1 x.state }) b

/-- Whether some command of the step's lists carries AX_END. -/
def Block.hasAxEnd (b : Block) (p : Nat) : Bool :=
  let j := (b.gen p).job
  j.lists.any (fun l => (List.range l.2.2).any (fun i => (b.listDesc l.2.1 i).axEnd))

/-- Whether a listed command gathers into a latent bank (R154, R162): COLL, ALL_GATHER, GCLASS of DST 2. -/
def Block.gathersLatent (b : Block) (d : Desc) : Bool :=
  let k := b.peek d.arg 8
  decide (d.opc = 5) && decide (leAt k 0 1 = 1) && decide (bits (leAt k 3 1) 5 4 = 2)

/-- How many commands of the step's lists do. -/
def Block.gatherCount (b : Block) (p : Nat) : Nat :=
  ((b.gen p).job.lists.map (fun l => ((List.range l.2.2).filter (fun i => b.gathersLatent (b.listDesc l.2.1 i))).length)).sum

/-! ## Restart (R167, R169, R170) -/

/-- A unit takes a RESTART that does not stop the job: the target is applied by the caller to CUR_GEN. -/
def Block.takeRestart (b : Block) (e : Env) (p target gate : Nat) : Block :=
  let r := (b.gen p).regs
  let b := b.sendGen e p 9 (b.children p) { GenMsg.blank with gen := target, gen2 := target, tick1 := gate }
  let rewind := decide (r.state = 5)
  let b := b.modGen p (fun g => { g with
    regs := { g.regs with
      prevIntact := if target < e.curGen p then false else g.regs.prevIntact
      rewinds := if rewind then sat48 g.regs.rewinds 1 else g.regs.rewinds }
    proto := { g.proto with restart := some { target := target, gate := gate } }
    aux := { g.aux with rejoinBy := 0, gateTick := gate } })
  let b := if rewind then b.genEvent e p 4 2 target [(32, 6, target)] else b
  let b := b.genEvent e p 5 0 target [(32, 8, gate)]
  b.appendLists p gate

/-- What a unit does with a RESTART: the stop flag stops the job with cause 1. The second result is the generation that
becomes current. -/
def Block.onRestart (b : Block) (e : Env) (p target gate : Nat) (stop : Bool) : Block × Nat :=
  if stop then
    let b := b.sendGen e p 9 (b.children p) { GenMsg.blank with gen := target, gen2 := target, tick1 := gate, flags := 4 }
    (b.stopJob e p 1 true, e.curGen p)
  else (b.takeRestart e p target gate, min target (e.curGen p))

/-- What this device and the reports of its children say of a rewind (R169): the minimum CUR_GEN and INTACT. -/
def Block.rewindReport (b : Block) (e : Env) (p : Nat) : Nat × Bool :=
  let g := b.gen p
  let c := e.curGen p
  let m := g.proto.rewound.foldl (fun m r => min m r.2.1) c
  let own := decide (c = m) || (decide (c = m + 1) && g.regs.prevIntact)
  (m, own && g.proto.rewound.all (fun r => decide (r.2.1 ≤ m + 1) && r.2.2))

/-- REWOUND goes up once the device's reset is done and every child has reported; the root decides (R168, R169). The
second result is the generation that becomes current. -/
def Block.progressRewound (b : Block) (e : Env) (p : Nat) : Block × Nat :=
  let g := b.gen p
  let busy := (mget none b.clk.parts p).isSome || b.clk.ret.isSome
  if g.regs.state ≠ 5 || g.proto.sentRewound || busy || !b.mayAgree e p || !b.allChildren p (g.proto.rewound.map Prod.fst) then (b, e.curGen p)
  else
    let r := b.rewindReport e p
    let b := b.modProto p (fun x => { x with sentRewound := true })
    if b.isRoot p then b.onRestart e p r.1 (e.clk.now + g.regs.fixMargin) (!r.2)
    else
      (b.sendGen e p 8 (b.parent p).toList
        { GenMsg.blank with gen := e.curGen p, gen2 := r.1, flags := 8 * b2n r.2 }, e.curGen p)

/-- LOADED goes up once every child has reported; the root starts the job, or stops it when the start generations differ
(R167). -/
def Block.progressLoaded (b : Block) (e : Env) (p : Nat) : Block × Nat :=
  let g := b.gen p
  if g.regs.state ≠ 1 || g.proto.restart.isSome || !b.mayAgree e p || !b.allChildren p (g.proto.loaded.map Prod.fst) then (b, e.curGen p)
  else
    let same := g.proto.loaded.all (fun r => decide (r.2.1 = g.job.g0) && r.2.2)
    if b.isRoot p then
      if g.proto.sentLoaded then (b, e.curGen p)
      else (b.modProto p (fun x => { x with sentLoaded := true })).onRestart e p g.job.g0 (e.clk.now + g.regs.fixMargin) (!same)
    else
      let b := b.modGen p (fun g => { g with
        proto := { g.proto with sentLoaded := true }, aux := { g.aux with loadedAt := e.clk.now } })
      (b.sendGen e p 10 (b.parent p).toList { GenMsg.blank with gen := g.job.g0, flags := 8 * b2n same }, e.curGen p)

/-! ## Gates (R15, R149, R170) -/

/-- A gate of the job: step-scoped objects return to 0, exposure registers start their step, the step's protocol state is
new, and RW register writes take effect (R177). -/
def Block.openGate (b : Block) (e : Env) (p : Nat) : Block :=
  let g := b.gen p
  let b := g.job.objects.foldl (fun b o => if o.2.2 then b.syncGateReset o.1 else b) b
  let cleared := (b.plates.cells.map (fun c =>
    if b.holdsPlate p (plateOfCell c.1) then (c.1, { c.2 with autoExp := [] }) else c)).filter (fun c => decide (c.2 ≠ {}))
  let b : Block := { b with plates := { b.plates with cells := cleared } }
  let b := b.modGen p (fun g => { g with
    regs := { g.regs with
      fixMargin := mget g.regs.fixMargin g.aux.pendRegs 0x08
      gateGap := mget g.regs.gateGap g.aux.pendRegs 0x0C
      orderTimeout := mget g.regs.orderTimeout g.aux.pendRegs 0x10
      rejoinTimeout := mget g.regs.rejoinTimeout g.aux.pendRegs 0x14 }
    proto := { fixedGot := g.proto.fixedGot, sentFixed := g.proto.sentFixed
               axDone := !b.hasAxEnd p, gathersLeft := b.gatherCount p }
    aux := { g.aux with gateFired := true, gateTick := 0, stallSeen := false, pendRegs := [] } })
  b.progress e p

/-! ## Receiving (R159, R161) -/

/-- The partition whose job a message names, or the one its header names. -/
def Block.jobPart (b : Block) (dpart job : Nat) : Option Nat :=
  if b.holdsJob dpart && (b.gen dpart).regs.jobId = job then some dpart
  else (List.range 8).find? (fun p => b.holdsJob p && decide ((b.gen p).regs.jobId = job))

/-- Lets a message through to `f` when its job is held and its epoch is this unit's; an older one is counted, a newer
one waits for its ABORT. -/
def Block.receive (b : Block) (dpart ctype : Nat) (m : GenMsg) (f : Nat → Block) : Block :=
  match b.jobPart dpart m.job with
  | none => b.countStale dpart
  | some p =>
    let own := (b.gen p).regs.epoch
    if m.epoch = own then f p
    else if staleEpoch own m.epoch then b.countStale p
    else b.modAux p (fun a => { a with early := a.early ++ [(ctype, m)] })

/-- MAXIMA from a child. -/
def Block.onMaxima (b : Block) (e : Env) (p : Nat) (m : GenMsg) : Block :=
  (b.modProto p (fun x => { x with
    maxGot := addOnce x.maxGot m.sender, maxima := mergeMax x.maxima (maximaOf m.data) })).progress e p

/-- EXPOSE from the parent. -/
def Block.onExpose (b : Block) (e : Env) (p : Nat) (m : GenMsg) : Block :=
  let b := b.sendGen e p 2 (b.children p) m
  ((b.modAux p (fun a => { a with exposeBy := 0 })).takeExpose e p m.data).progress e p

/-- READY from a child. -/
def Block.onReady (b : Block) (e : Env) (p : Nat) (m : GenMsg) : Block :=
  (b.modProto p (fun x => { x with
    readyGot := addOnce x.readyGot m.sender, readyOrd := x.readyOrd || bit m.flags 0
    readyPoison := x.readyPoison || bit m.flags 1 })).progress e p

/-- FIXED from a child. -/
def Block.onFixed (b : Block) (e : Env) (p : Nat) (m : GenMsg) : Block :=
  (b.modProto p (fun x => { x with fixedGot := addOnce x.fixedGot m.sender })).progress e p

/-- ABORT from a neighbour (R168, R171): forwarded and obeyed; with the stop flag the job stops with cause 2. -/
def Block.onAbort (b : Block) (e : Env) (p : Nat) (m : GenMsg) : Block :=
  let cause := m.data.getD 0 3
  let dev := m.data.getD 2 0
  if bit m.flags 2 then
    let b := b.abortLocal e p cause (m.data.getD 1 0) dev true true
    b.genEvent e p 6 2 (e.curGen p) [(32, 1, 2), (33, 1, m.data.getD 1 0)]
  else b.abortLocal e p cause 0 dev false true

/-- REWOUND from a child. -/
def Block.onRewound (b : Block) (e : Env) (p : Nat) (m : GenMsg) : Block × Nat :=
  let b := b.modProto p (fun x => { x with rewound := addReport x.rewound (m.sender, (m.gen2, bit m.flags 3)) })
  b.progressRewound e p

/-- LOADED from a child; a repetition is no news. -/
def Block.onLoaded (b : Block) (e : Env) (p : Nat) (m : GenMsg) : Block × Nat :=
  let was := (b.gen p).proto.sentLoaded
  let b := b.modProto p (fun x => { x with loaded := addReport x.loaded (m.sender, m.gen, bit m.flags 3) })
  if was then (b, e.curGen p) else b.progressLoaded e p

end Sys2Proof.Machine
end

