-- ==== Sys2Proof/Machine/Link.lean ====
section
/-! DEFINITION. Ciosh Link (R247 to R280): training, the receiving side of a port, lost directions, and the messages that
reach this device. -/
namespace Sys2Proof.Machine

def portDir (n : Nat) : Nat := n / 6

/-- The neighbour that the table expects in a direction. -/
def Topology.neighbour (t : Topology) (d : Nat) : Option Nat :=
  match t.coord t.self with
  | none => none
  | some (x, y, z) =>
    let sx := max 1 t.sx
    let sy := max 1 t.sy
    let sz := max 1 t.sz
    match d with
    | 0 => t.idAt ((x + 1) % sx) y z
    | 1 => t.idAt ((x + sx - 1) % sx) y z
    | 2 => t.idAt x ((y + 1) % sy) z
    | 3 => t.idAt x ((y + sy - 1) % sy) z
    | 4 => t.idAt x y ((z + 1) % sz)
    | _ => t.idAt x y ((z + sz - 1) % sz)

def Block.portEvent (b : Block) (e : Env) (n code sev : Nat) (more : List (Nat × Nat × Nat)) : Block :=
  b.linkEvent e code sev 15 n (portDir n) (b.port n).peerId more

/-- Notes when a direction has no active port any more (R255). -/
def Block.noteDown (b : Block) (e : Env) (d : Nat) : Block :=
  if (dirPorts d).any (fun n => (b.port n).active) || mget 0 b.link.downAt d ≠ 0 then b
  else { b with link := { b.link with downAt := mset 0 b.link.downAt d (e.clk.now + 1) } }

/-! ## Retraining (R253, R254) -/

/-- The flits of one message that a port still holds. -/
def Port.flitsOf (p : Port) (key : Nat) : List TxFlit :=
  ((p.replay.append (p.waiting.flatMap Prod.snd)).filter (fun f => decide (tagKey f.flit.vc f.flit.mtag = key)))

/-- Sends what a port holds of one message on another port of its direction (R254): RESUME first when part of it has
been sent. -/
def Block.resumeOn (b : Block) (n key : Nat) (active : List Nat) : Block :=
  let p := b.port n
  let m := mget {} p.tx key
  let fs := p.flitsOf key
  match fs, pick (leAt m.hdr 2 2) (leAt m.hdr 12 4) active with
  | f :: _, some k =>
    let q := b.port k
    let vc := f.flit.vc
    let tag := mget 0 q.tags vc
    let begun := p.replay.any (fun g => decide (tagKey g.flit.vc g.flit.mtag = key)) || decide (f.off ≠ 0)
    let moved := fs.map (fun g => { g with flit := { g.flit with mtag := tag }, tries := 0 })
    let head : List TxFlit := if begun then
        [{ flit := { Flit.idle with ftype := 5, vc := vc, cls := f.flit.cls, mtag := tag
                                    payload := m.hdr ++ leBytes 4 f.off ++ leBytes 2 tag }
           off := f.off }]
      else []
    (b.setPort k { q with
      tags := mset 0 q.tags vc ((tag + 1) % 1024)
      waiting := mset [] q.waiting vc (mget [] q.waiting vc ++ head ++ moved)
      tx := mset {} q.tx (tagKey vc tag) m }).pump k
  | _, _ => b

/-- Moves every message of a port that is going down to the other active ports of its direction (R254); without one they
stay. -/
def Block.moveAway (b : Block) (n : Nat) : Block :=
  let active := (dirPorts (portDir n)).filter (fun k => decide (k ≠ n) && (b.port k).active)
  if active.isEmpty then b
  else
    let b := ((b.port n).tx.map Prod.fst).foldl (fun b k => b.resumeOn n k active) b
    b.modPort n (fun p => { p with waiting := [], replay := [], tx := [] })

/-- A port enters RETRAIN (R250, R254); causes of LINK_DOWN by R280. -/
def Block.enterRetrain (b : Block) (e : Env) (n cause : Nat) : Block :=
  let was := (b.port n).active
  let b := (b.modPort n (fun p => { p with state := 7, lanes := 0, nakOpen := false })).bumpPort n 0x178 1
  let b := if was then (b.portEvent e n 2 1 [(28, 1, cause)]).moveAway n else b
  b.noteDown e (portDir n)

/-- Setting or clearing ENABLE (R250). -/
def Block.doClEnable (b : Block) (e : Env) (n : Nat) (on : Bool) : Block :=
  let p := b.port n
  if on then
    b.setPort n { p with enable := true, passes := if p.enable then p.passes else 0, state := if p.state = 0 then 1 else p.state }
  else
    let b := b.setPort n { p with enable := false, state := 0, lanes := 0 }
    (if p.active then b.moveAway n else b).noteDown e (portDir n)

/-- The two lowest lanes of a mask. -/
def twoLowest (m : Nat) : Nat :=
  (((List.range 4).filter (fun l => bit m l)).take 2).foldl (fun k l => k + 2 ^ l) 0

def laneCount (m : Nat) : Nat := ((List.range 4).filter (fun l => bit m l)).length

/-- A retrain of an x4 port to x2 (R253). -/
def Block.degrade (b : Block) (e : Env) (n lane : Nat) : Block :=
  let p := b.port n
  let bad := if lane < 4 then p.bad ||| 2 ^ lane else p.bad
  let left := twoLowest (p.good &&& (15 - bad))
  let b := (b.setPort n { p with bad := bad, x2 := true, changedAt := e.clk.now }).bumpPort n 0x170 1
  (b.portEvent e n 3 1 [(28, 1, lane), (29, 1, left)]).enterRetrain e n 0

/-- Writing FORCE_X2 (R253, R278). -/
def Block.doForceX2 (b : Block) (e : Env) (n : Nat) (on : Bool) : Block :=
  let b := b.modPort n (fun p => { p with forceX2 := on })
  if on && (b.port n).state = 5 then b.degrade e n 0xFF else b

/-- A lane passes its error limit or loses signal (R253); only a port at x4 degrades. -/
def Block.doLaneDegrade (b : Block) (e : Env) (n lane : Nat) : Block :=
  if (b.port n).state = 5 then b.degrade e n lane else b

/-- When a port at x2 tries x4 again (R253). -/
def Port.upgradeDue (p : Port) : Option Nat :=
  if p.state = 6 && p.upHold ≠ 0 && !p.forceX2 then some (p.changedAt + 1000000 * p.upHold) else none

/-- UPGRADE_HOLD has passed (R253). -/
def Block.doUpgradeAttempt (b : Block) (e : Env) (n : Nat) : Block :=
  if ((b.port n).upgradeDue).isNone then b
  else (b.modPort n (fun p => { p with x2 := false, bad := 0, upgrading := true })).enterRetrain e n 1

/-! ## Training (R250 to R252) -/

/-- Signal on at least two lanes of an idle port. -/
def Block.doLaneSignal (b : Block) (n lanes : Nat) : Block :=
  b.modPort n (fun p => if p.state = 1 && 2 ≤ laneCount lanes then { p with state := 2 } else p)

/-- Equalisation done; a retraining port has returned to it. -/
def Block.doEqualiseDone (b : Block) (n : Nat) : Block :=
  b.modPort n (fun p => if p.state = 2 || p.state = 7 then { p with state := 3 } else p)

/-- The INIT flit of a port (R261). -/
def Block.initBytes (b : Block) (n : Nat) : List Byte :=
  let t := b.topo
  let c := (t.coord t.self).getD (0, 0, 0)
  leBytes 2 t.self ++ leBytes 1 n ++ leBytes 1 (portDir n) ++ leBytes 1 c.1 ++ leBytes 1 c.2.1 ++ leBytes 1 c.2.2
    ++ leBytes 1 1 ++ leBytes 2 ((t.sx - 1) + 16 * (t.sy - 1) + 128 * (t.sz - 1)) ++ leBytes 1 (b.port n).good ++ zeros 1
    ++ (List.range 8).flatMap (fun k => leBytes 2 (vcBuffer (k / 2)))

/-- Alignment done with the good lanes it found: the port sends INIT (R250, R252). -/
def Block.doAlignDone (b : Block) (n lanes : Nat) : Block :=
  if (b.port n).state ≠ 3 then b
  else
    let b := b.modPort n (fun p => { p with state := 4, good := lanes % 16 &&& (15 - p.bad % 16) })
    b.sendPlain n { Flit.idle with ftype := 4, payload := b.initBytes n }

/-- A failed pass (R250, R251): after three the port is FAILED. -/
def Block.failPass (b : Block) (e : Env) (n : Nat) : Block :=
  let p := b.port n
  let b := (b.setPort n { p with passes := p.passes + 1, state := 7, lanes := 0 }).bumpPort n 0x178 1
  if 3 ≤ p.passes + 1 then
    (b.modPort n (fun p => { p with state := 9 })).portEvent e n 6 2 []
  else b

/-- A training state exceeds its limit (R251). -/
def Block.doTrainingTimeout (b : Block) (e : Env) (n : Nat) : Block :=
  let s := (b.port n).state
  if s = 2 || s = 3 || s = 4 || s = 7 then b.failPass e n else b

/-- Every device of the table but this one. -/
def Block.others (b : Block) : List Nat := (b.topo.coords.map Prod.fst).filter (fun i => i ≠ b.topo.self)

/-- Tells every device that a direction is lost (1) or restored (2) (R255, R261). -/
def Block.tellAll (b : Block) (e : Env) (code d : Nat) : Block :=
  let data := clean (leBytes 1 code ++ leBytes 1 d ++ leBytes 2 b.topo.self ++ zeros 4 ++ leBytes 8 e.clk.now)
  b.others.foldl (fun b i => b.sendMsg e
    { mtype := 5, flags := 0, src := 0, dst := i, parts := 0xFF, rop := 0, job := 0, epoch := 0, mid := 0, length := 16
      addr := 0, signal := 0, expfmt := 0, qseq := 0, data := data }) b

/-- A port becomes active: its direction is restored if it was lost, and messages held for it go (R255). -/
def Block.nowActive (b : Block) (e : Env) (n : Nat) : Block :=
  let d := portDir n
  let lost := bit b.link.lost d
  let held := mget [] b.link.held d
  let b : Block := { b with link := { b.link with
    downAt := mset 0 b.link.downAt d 0, held := mset [] b.link.held d []
    lost := if lost then b.link.lost - 2 ^ d else b.link.lost } }
  let b := if lost then (b.portEvent e n 0xC 0 [(28, 2, b.topo.self)]).tellAll e 2 d else b
  (held.foldl (fun b m => b.launch e m) b).pump n

/-- An INIT flit in FLIT_SYNC (R252): width, peer, credits. -/
def Block.takeInit (b : Block) (e : Env) (n : Nat) (bs : List Byte) : Block :=
  let p := b.port n
  let t := b.topo
  let peer := leAt bs 0 2 % 1024
  let want := t.neighbour (portDir n)
  let size := (t.sx - 1) + 16 * (t.sy - 1) + 128 * (t.sz - 1)
  let p := { p with peerId := peer, peerPort := leAt bs 2 1 % 64 }
  if want ≠ some peer || leAt bs 8 2 % 1024 ≠ size || leAt bs 7 1 ≠ 1 then
    (b.setPort n { p with state := 8, lanes := 0 }).portEvent e n 5 3
      [(28, 2, want.getD 0xFFFF), (30, 2, leAt bs 2 1)]
  else
    let both := p.good &&& (leAt bs 10 1 % 16)
    if laneCount both < 2 then (b.setPort n p).failPass e n
    else
      let x4 := decide (both = 15) && !p.forceX2 && !p.x2
      let lanes := if x4 then 15 else twoLowest both
      let credits := (List.range 8).foldl (fun m k => mset 0 m k (min (leAt bs (12 + 2 * k) 2) (vcBuffer (k / 2)))) []
      let b := b.setPort n { p with
        state := if x4 then 5 else 6, lanes := lanes, passes := 0, credits := credits, x2 := !x4
        upgrading := false, changedAt := e.clk.now }
      let b := b.portEvent e n 1 0 [(28, 1, if x4 then 4 else 2), (29, 1, lanes)]
      let b := if p.upgrading && x4 then b.portEvent e n 4 0 [] else b
      b.nowActive e n

/-- The cabling of a miswired port changes (R250). -/
def Block.doCablingChange (b : Block) (n : Nat) : Block :=
  b.modPort n (fun p => if p.state = 8 then { p with state := 1 } else p)

/-! ## Receiving a flit (R257 to R262) -/

/-- Flits up to an acknowledged SEQ leave the replay buffer. -/
def Port.acked (p : Port) (ack : Nat) : Port :=
  match findIdxFrom (fun (f : TxFlit) => decide (f.flit.seq = ack)) 0 p.replay with
  | none => p
  | some i =>
    let gone := (p.replay.take (i + 1)).filter (fun f => f.flit.eom)
    { p with
      replay := p.replay.drop (i + 1)
      tx := gone.foldl (fun m f => mset {} m (tagKey f.flit.vc f.flit.mtag) {}) p.tx }

/-- What every arriving flit does (R248, R256, R258, R259, R262): the FEC counts, its check, ACK and credits. The flag
says whether the flit is to be handled. -/
def Block.arrive (b : Block) (e : Env) (n : Nat) (a : Arrival) : Block × Bool :=
  let p := b.port n
  if p.state < 4 || 6 < p.state then (b, false)
  else
    let b := (a.fixed.zip (List.range 4)).foldl (fun b x => b.bumpPort n (0x150 + 8 * x.2) x.1) b
    let b := if a.lost = 0 then b else b.bumpPort n 0x148 a.lost
    if a.lost ≠ 0 || !a.flit.ok then
      let b := b.bumpPort n 0x130 1
      (if (b.port n).nakOpen || (b.port n).state = 4 then b else b.sendNak e n, false)
    else
      let f := a.flit
      let b := b.modPort n (fun p => p.acked f.ack)
      let k := 2 * f.crVc + f.crCls
      let c := mget 0 (b.port n).credits k + f.crCount
      if vcBuffer f.crVc < c && f.crCount ≠ 0 then
        let b := (b.bumpPort n 0x1C8 1).portEvent e n 0xE 1 [(28, 1, f.crVc), (29, 1, f.crCls)]
        (b.enterRetrain e n 2, false)
      else
        let b := if f.crCount = 0 then b else b.modPort n (fun p => { p with credits := mset 0 p.credits k c })
        (b.pump n, true)

/-- Takes a sequenced flit in order (R259): otherwise one NAK, and later ones are discarded. -/
def Block.inOrder (b : Block) (e : Env) (n : Nat) (f : Flit) : Block × Bool :=
  let p := b.port n
  if f.seq ≠ p.rxSeq then (if p.nakOpen then b else b.sendNak e n, false)
  else
    let k := 2 * f.vc + f.cls
    let b := b.setPort n { p with rxSeq := (p.rxSeq + 1) % 4096, nakOpen := false, owed := mmod 0 p.owed k (· + 1) }
    (b.bumpPort n 0x108 1, true)

/-! ## Decoding a message (R260, R269, R275, R277) -/

/-- A header's fields (R270). -/
def Msg.ofHeader (h : List Byte) (data : List (Byte × Bool)) : Msg where
  mtype := leAt h 0 1
  flags := leAt h 1 1
  src := leAt h 2 2 % 1024
  dst := leAt h 4 2 % 1024
  parts := leAt h 6 1
  rop := leAt h 7 1 % 16
  job := leAt h 8 2
  epoch := leAt h 10 2
  mid := leAt h 12 4
  length := leAt h 16 4
  addr := leAt h 20 6
  signal := leAt h 26 2 % 8192
  expfmt := leAt h 28 2
  qseq := leAt h 30 2
  data := data

/-- A hole over bytes `[a, a + n)`. -/
def holeAt (hs : List Hole) (a n : Nat) : Option Hole :=
  hs.find? (fun h => decide (h.off < a + n) && decide (a < h.off + h.len))

/-- One block: its data, poisoned where its mask says so or where it does not decode. -/
def decodeOne (n codec mask : Nat) (bs : List Byte) : List (Byte × Bool) :=
  let out : Option (List Byte) :=
    if n = 512 then decodeBlock512 codec bs else if codec = 0 && bs.length = n then some bs else none
  match out with
  | none => (zeros n).map (fun x => (x, true))
  | some d => (d.zip (List.range d.length)).map (fun x => if bit mask (x.2 / 64) then (0, true) else (x.1, false))

/-- The blocks from offset `at_` and block `i` on; the second result is the offset of the trailer. -/
def decodeBlocks (bs : List Byte) (hs : List Hole) : Nat → Nat → Nat → Nat → List (Byte × Bool) × Nat
  | 0, at_, _, _ => ([], at_)
  | fuel + 1, at_, i, left =>
    if left = 0 then ([], at_)
    else
      let n := min 512 left
      let w := leAt bs at_ 4
      let len := if (holeAt hs at_ 4).isSome then 0 else bits w 29 20
      match holeAt hs at_ (4 + len) with
      | some h =>
        let k := min left (512 * max 1 (h.block - i))
        let r := decodeBlocks bs hs fuel h.at_ (max (i + 1) h.block) (left - k)
        ((zeros k).map (fun x => (x, true)) ++ r.1, r.2)
      | none =>
        let d := decodeOne n (bits w 31 30) (bits w 19 12) ((bs.drop (at_ + 4)).take len)
        let r := decodeBlocks bs hs fuel (at_ + 4 + len) (i + 1) (left - n)
        (d ++ r.1, r.2)

/-- The offsets of the blocks of a stream, the trailer's last. -/
def blockOffsets (bs : List Byte) : Nat → Nat → List Nat
  | 0, at_ => [at_]
  | k + 1, at_ => at_ :: blockOffsets bs k (at_ + 4 + bits (leAt bs at_ 4) 29 20)

/-- A message is complete at its final receiver (R271, R275). -/
def Block.complete (b : Block) (e : Env) (n : Nat) (hdr bs : List Byte) (hs : List Hole) : Block :=
  let len := leAt hdr 16 4
  let r := decodeBlocks bs hs (len / 512 + 2) 32 0 len
  let m := Msg.ofHeader hdr r.1
  let b := b.bumpPort n 0x118 len
  let more : List (Nat × Nat × Nat) := [(28, 4, m.mid), (32, 2, m.src)]
  let (b, m) : Block × Msg :=
    if !hs.isEmpty then
      (hs.foldl (fun b h => b.portEvent e n 7 1 [(28, 4, m.mid), (32, 4, h.off), (36, 4, h.len)]) (b.bumpPort n 0x1C0 1), m)
    else if leAt bs r.2 4 ≠ crc32c (hdr ++ m.plain) then
      ((b.bumpPort n 0x1B8 1).portEvent e n 9 1 more, { m with data := m.data.map (fun x => (x.1, true)) })
    else (b, m)
  if 7 ≤ m.mtype || len = 0 then b.bumpPort n 0x1B0 1
  else { b with link := { b.link with inbox := b.link.inbox ++ [(n, m)] } }

/-- A message in transit goes on (R260, R267): its stream as it is, with a DROPPED flit in place of each hole. -/
def Block.forward (b : Block) (e : Env) (n : Nat) (hdr bs : List Byte) (hs : List Hole) : Block :=
  let len := leAt hdr 16 4
  let src := leAt hdr 2 2 % 1024
  let dst := leAt hdr 4 2 % 1024
  let b := b.bumpPort n 0x118 len
  match b.topo.nextHop b.topo.self dst with
  | none => b.unreachable e dst 0xFF
  | some (next, dir) =>
    if bit b.link.lost dir then b.unreachable e dst dir
    else
      match pick src (leAt hdr 12 4) ((dirPorts dir).filter (fun k => (b.port k).active)) with
      | some k => b.queueStream k (b.topo.classOf src next dir) hdr bs (blockOffsets bs ((len + 511) / 512) 32) hs (bit (leAt hdr 1 1) 0)
      | none =>
        let m := Msg.ofHeader hdr (decodeBlocks bs hs (len / 512 + 2) 32 0 len).1
        { b with link := { b.link with held := mset [] b.link.held dir (mget [] b.link.held dir ++ [m]) } }

/-- The last flit of a message has come. -/
def Block.finish (b : Block) (e : Env) (n key : Nat) (x : Partial) : Block :=
  let b := b.modPort n (fun p => { p with rx := mset none p.rx key none })
  let hdr := if (holeAt x.holes 0 32).isSome then x.hdr else x.bytes.take 32
  if leAt hdr 4 2 % 1024 = b.topo.self then b.complete e n hdr x.bytes x.holes else b.forward e n hdr x.bytes x.holes

/-- Adds bytes to a message being received, without those it already holds (R254). -/
def Partial.push (x : Partial) (bs : List Byte) : Partial :=
  { x with bytes := x.bytes ++ bs.drop x.skip, skip := x.skip - bs.length }

/-- Acknowledges what has come when nothing else is to be sent. -/
def Block.answer (b : Block) (n : Nat) : Block := if (b.port n).active then b.sendPlain n Flit.idle else b

/-- A DATA flit (R259, R269). -/
def Block.takeData (b : Block) (e : Env) (n : Nat) (f : Flit) : Block :=
  let key := tagKey f.vc f.mtag
  let x : Partial := if f.som then {} else (mget none (b.port n).rx key).getD {}
  let x := x.push ((padTo 240 f.payload).take f.len)
  if f.eom then b.finish e n key x else b.modPort n (fun p => { p with rx := mset none p.rx key (some x) })

/-- A DROPPED flit (R260, R261). -/
def Block.takeDropped (b : Block) (e : Env) (n : Nat) (f : Flit) : Block :=
  let bs := f.payload
  let key := tagKey f.vc (leAt bs 0 2 % 1024)
  let x : Partial := if f.som then {} else (mget none (b.port n).rx key).getD {}
  let h : Hole := { off := leAt bs 8 4, len := leAt bs 12 4, block := leAt bs 16 4, at_ := leAt bs 20 4 }
  let x := { x.push (zeros h.len) with
    holes := x.holes ++ [h], hdr := if leAt bs 24 1 = 1 then (bs.drop 32).take 32 else x.hdr }
  if f.eom then b.finish e n key x else b.modPort n (fun p => { p with rx := mset none p.rx key (some x) })

/-- The part of a message that another port of the direction has received: port, key, part. -/
def Block.findPart (b : Block) (n src mid : Nat) : Option (Nat × Nat × Partial) :=
  (dirPorts (portDir n)).findSome? (fun k => (b.port k).rx.findSome? (fun r =>
    match r.2 with
    | some x => if leAt x.bytes 2 2 = src && leAt x.bytes 12 4 = mid && 32 ≤ x.bytes.length then some (k, r.1, x) else none
    | none => none))

/-- A RESUME flit (R254, R261): the resumed part joins the part received under that message ID. -/
def Block.takeResume (b : Block) (n : Nat) (f : Flit) : Block :=
  let bs := f.payload
  let off := leAt bs 32 4
  let key := tagKey f.vc (leAt bs 36 2 % 1024)
  match b.findPart n (leAt bs 2 2) (leAt bs 12 4) with
  | some (k, old, x) =>
    let b := b.modPort k (fun p => { p with rx := mset none p.rx old none })
    b.modPort n (fun p => { p with rx := mset none p.rx key (some { x with skip := x.bytes.length - off }) })
  | none => b.modPort n (fun p => { p with rx := mset none p.rx key (some { hdr := bs.take 32 }) })

/-- Takes a sequenced flit of any type. -/
def Block.takeSequenced (b : Block) (e : Env) (n : Nat) (a : Arrival) (f : Block → Block) : Block :=
  let r := b.arrive e n a
  if !r.2 then r.1
  else
    let s := r.1.inOrder e n a.flit
    if s.2 then (f s.1).answer n else s.1

def Block.doData (b : Block) (e : Env) (n : Nat) (a : Arrival) : Block :=
  b.takeSequenced e n a (fun b => b.takeData e n a.flit)
def Block.doDropped (b : Block) (e : Env) (n : Nat) (a : Arrival) : Block :=
  b.takeSequenced e n a (fun b => b.takeDropped e n a.flit)
def Block.doResumeFlit (b : Block) (e : Env) (n : Nat) (a : Arrival) : Block :=
  b.takeSequenced e n a (fun b => b.takeResume n a.flit)

/-- An IDLE flit: ACK and credits alone. -/
def Block.doIdleFlit (b : Block) (e : Env) (n : Nat) (a : Arrival) : Block := (b.arrive e n a).1

/-- An INIT flit; only FLIT_SYNC takes its payload. -/
def Block.doInit (b : Block) (e : Env) (n : Nat) (a : Arrival) : Block :=
  let r := b.arrive e n a
  if r.2 && (r.1.port n).state = 4 then r.1.takeInit e n a.flit.payload else r.1

def Block.doRetrainReq (b : Block) (e : Env) (n : Nat) (a : Arrival) : Block :=
  let r := b.arrive e n a
  if r.2 && (r.1.port n).active then r.1.enterRetrain e n 1 else r.1

/-- The DROPPED flit that stands for a DATA flit given up (R260, R261). -/
def Port.dropFlit (p : Port) (f : TxFlit) : TxFlit :=
  let m := mget {} p.tx (tagKey f.flit.vc f.flit.mtag)
  let lost := f.off + f.flit.len
  let i := (findIdxFrom (fun o => decide (lost ≤ o)) 0 m.blocks).getD (m.blocks.length - 1)
  let h : Hole := { off := f.off, len := f.flit.len, block := i, at_ := m.blocks.getD i 0 }
  { f with
    tries := 0
    flit := { f.flit with
      ftype := 2, len := 0
      payload := droppedBytes f.flit.mtag (leAt m.hdr 2 2) (leAt m.hdr 12 4) h (if f.off < 32 then some m.hdr else none) } }

/-- Sends the replay buffer again from index `i` on. -/
def Block.resend (b : Block) (n i : Nat) : Block :=
  ((b.port n).replay.drop i).foldl (fun b f => (b.bumpPort n 0x100 1).emit (.flit n f.flit.sealed)) b

/-- A NAK (R259, R260): replay from the named SEQ; a DATA flit sent again eight times is given up, a RESUME or DROPPED
flit retrains the port, as does a NAK that names no flit held. -/
def Block.doNak (b : Block) (e : Env) (n : Nat) (a : Arrival) : Block :=
  let r := b.arrive e n a
  if !r.2 || !(r.1.port n).active then r.1
  else
    let b := r.1
    let p := b.port n
    let want := leAt a.flit.payload 0 2 % 4096
    match findIdxFrom (fun (f : TxFlit) => decide (f.flit.seq = want)) 0 p.replay with
    | none => b.enterRetrain e n 1
    | some i =>
      match p.replay[i]? with
      | none => b
      | some f =>
        if 8 ≤ f.tries then
          if f.flit.ftype = 1 then
            let b := (b.setPort n { p with replay := p.replay.set i (p.dropFlit f) }).bumpPort n 0x140 1
            (b.bumpPort n 0x138 1).resend n i
          else b.enterRetrain e n 1
        else
          let b := b.setPort n { p with replay := p.replay.set i { f with tries := f.tries + 1 } }
          (b.bumpPort n 0x138 1).resend n i

/-- When a NAK is sent again, 2 µs after it (R259). -/
def Port.nakDue (p : Port) : Option Nat := if p.nakOpen then some (p.nakAt + 2) else none

def Block.doNakRetry (b : Block) (e : Env) (n : Nat) : Block :=
  if (b.port n).nakOpen && (b.port n).active then b.sendNak e n else b

/-! ## Lost directions (R255) -/

/-- Whether the route from `a` to `d` takes the link that leaves device `v` in direction `dir`, in either sense. -/
def Topology.routeUses (t : Topology) (v dir : Nat) (a d : Nat) : Bool :=
  let r := t.route 32 a d
  (r.zip (r.drop 1)).any (fun x =>
    let out := { t with self := v }.neighbour dir
    (decide (x.1 = v) && decide (some x.2 = out) && decide ((t.nextHop x.1 d).map Prod.snd = some dir))
      || (decide (some x.1 = out) && decide (x.2 = v)
          && decide ((t.nextHop x.1 d).map Prod.snd = some (if dir % 2 = 0 then dir + 1 else dir - 1))))

/-- Faults every job of this device whose devices send a route over a lost link (R255): cause 3. -/
def Block.peersLost (b : Block) (e : Env) (v dir : Nat) : Block :=
  (List.range 8).foldl (fun b p =>
    let ds := (b.gen p).job.devices
    if b.holdsJob p && ds.any (fun a => ds.any (fun d => b.topo.routeUses v dir a d)) then b.jobFault e p 3 else b) b

/-- When a direction counts as lost: PEER_HOLD after its last port went down. -/
def LinkUnit.lostDue (l : LinkUnit) (d : Nat) : Option Nat :=
  let t := mget 0 l.downAt d
  if t = 0 || bit l.lost d then none else some (t - 1 + 100 * l.peerHold)

/-- A direction is lost (R255): what its ports hold is dropped, every device is told, jobs over the link fault. -/
def Block.doDirectionLost (b : Block) (e : Env) (d : Nat) : Block :=
  if (b.link.lostDue d).isNone || (dirPorts d).any (fun n => (b.port n).active) then b
  else
    let b := b.linkEvent e 0xB 3 15 0xFF d ((b.topo.neighbour d).getD 0xFFFF) [(28, 2, b.topo.self)]
    let b := (dirPorts d).foldl (fun b n =>
      let unsent := ((b.port n).waiting.flatMap Prod.snd).filter (fun f => decide (f.flit.ftype = 1))
      (b.modPort n (fun p => { p with waiting := [], replay := [], tx := [], rx := [] })).bumpPort n 0x140 unsent.length) b
    let b : Block := { b with link := { b.link with lost := b.link.lost + 2 ^ d, held := mset [] b.link.held d [] } }
    (b.tellAll e 1 d).peersLost e b.topo.self d

/-! ## Messages at their destination (R271 to R274) -/

/-- Takes a message from the inbox. -/
def dropMsg (m : Msg) : List (Nat × Msg) → List (Nat × Msg)
  | [] => []
  | x :: xs => if x.2 = m then xs else x :: dropMsg m xs

def Block.consume (b : Block) (m : Msg) : Block := { b with link := { b.link with inbox := dropMsg m b.link.inbox } }

/-- A message that must wait stays in the inbox, once. -/
def Block.keepMsg (b : Block) (n : Nat) (m : Msg) : Block :=
  if b.link.inbox.any (fun x => decide (x.2 = m)) then b
  else { b with link := { b.link with inbox := b.link.inbox ++ [(n, m)] } }

def Msg.dpart (m : Msg) : Nat := m.parts % 16
def Msg.spart (m : Msg) : Nat := m.parts / 16 % 16
def Msg.ordered (m : Msg) : Bool := bit m.flags 1
def Msg.fmt (m : Msg) : Fmt := fmtOf (bits m.expfmt 14 10)
def Msg.exposure (m : Msg) : Int := sext 10 m.expfmt

/-- Whether ROP is valid for its target (R233, R236, R272). -/
def Block.ropValid (b : Block) (m : Msg) : Bool :=
  if m.rop = 0 then true
  else if 12 < m.rop || (m.rop = 12 && !bit b.shc.gv4En (min m.dpart 8)) then false
  else if m.rop = 1 || m.rop = 2 then
    ropTakes m.rop m.fmt && (b.exactOf m.dpart m.addr).isSome
  else ropTakes m.rop m.fmt

/-- Bytes that a message addresses. -/
def Msg.span (m : Msg) : Nat :=
  if m.rop = 0 || m.mtype = 1 then m.length
  else (ropElems m.rop m.fmt m.data).length * ropTarget m.rop m.fmt

/-- The first check of R272 that a message fails. -/
def Block.msgCheck (b : Block) (m : Msg) : Option Nat :=
  let p := m.dpart
  if !(p < 8 && b.holdsJob p && (b.gen p).regs.jobId = m.job) then some 1
  else if m.epoch ≠ (b.gen p).regs.epoch then some 2
  else if !(m.ordered && m.mtype = 0) && !b.spanInPart p m.addr m.span then some 3
  else if !(m.ordered && m.mtype = 0) && m.mtype ≠ 1 && !b.ropValid m then some 4
  else none

/-- MSG_REFUSED (R272, R280). -/
def Block.refusedEvent (b : Block) (e : Env) (n part check : Nat) (hdr : List Byte) : Block :=
  b.linkEvent e 8 1 part n (if n < 36 then portDir n else 0xFF) 0xFFFF
    ((28, 1, check) :: (List.range 32).map (fun i => (32 + i, 1, leAt hdr i 1)))

/-- A message that fails a check (R272): stale ones are counted, the others reported to their source. REFUSED carries
the header and, after it, the failed check. -/
def Block.refuseMsg (b : Block) (e : Env) (n check : Nat) (m : Msg) : Block :=
  let c := min n 35
  if check = 2 then
    let b := b.bumpPort c 0x1A8 1
    if limited b.link.lastEvt e 0xA0000 then b
    else
      ({ b with link := { b.link with lastEvt := mset 0 b.link.lastEvt 0xA0000 (e.ms + 1) } }).linkEvent e 0xA 0 m.dpart n
        (if n < 36 then portDir n else 0xFF) m.src [(28, 2, m.epoch), (30, 2, (b.gen m.dpart).regs.epoch)]
  else
    let b := (b.bumpPort c 0x1B0 1).refusedEvent e n m.dpart check m.header
    b.sendMsg e { m with
      mtype := 6, flags := 0, dst := m.src, parts := 16 * m.dpart + m.spart, rop := 0, length := 33, addr := 0, signal := 0
      expfmt := 0, qseq := 0, data := clean (m.header ++ leBytes 1 check) }

/-- The requester that a port is (R239), for the job of the message's partition (R273). -/
def portReq (n part gclass : Nat) : Req := { id := 3 * 8192 + min n 35, part := part, job := true, gclass := gclass }

/-- Allocates the frames of `n` bytes for a port (R274); none when the pool cannot grant them all. -/
def Block.rxFrames (b : Block) (id part : Nat) : Nat → Option (Block × List Nat)
  | 0 => some (b, [])
  | k + 1 =>
    match b.allocNow id part with
    | (b, some f) => (Block.rxFrames b id part k).map (fun r => (r.1, f :: r.2))
    | (_, none) => none

/-- Writes a message into its frames and links it. -/
def Block.linkMsg (b : Block) (e : Env) (m : Msg) (frames : List Nat) : Block :=
  let b := (m.data.zip (List.range m.data.length)).foldl (fun b x =>
    b.writeGranule e (frameAddr (frames.getD (x.2 / 0x4000) 0) + x.2 % 0x4000) [x.1.1] x.1.2 false) b
  let key := 64 * m.dpart + m.addr % 64
  let l := mget [] b.msgs.queues key ++ [{ frames := frames, len := m.data.length, taken := 0 }]
  { b with msgs := { b.msgs with queues := mset [] b.msgs.queues key l } }

/-- The counter of QSEQ that a message belongs to (R274). -/
def Msg.seqKey (m : Msg) : Nat := ((m.src * 16 + m.spart) * 16 + m.dpart) * 64 + m.addr % 64

/-- Applies the SIGNAL of a message that has become visible (R270, R275). -/
def Block.signalMsg (b : Block) (e : Env) (n : Nat) (m : Msg) : Block :=
  if bit m.flags 2 then b.syncAdd e (3 * 8192 + min n 35) m.dpart m.signal 1 else b

/-- Links the early messages that have become next (R274). -/
def Block.linkEarly (e : Env) (n : Nat) : Nat → Block → Block
  | 0, b => b
  | k + 1, b =>
    match b.msgs.early.find? (fun m => decide (m.qseq = mget 0 b.msgs.nextSeq m.seqKey)) with
    | none => b
    | some m =>
      match b.rxFrames (3 * 8192 + min n 35) m.dpart ((m.data.length + 0x3FFF) / 0x4000) with
      | none => b
      | some (b, fs) =>
        let b := b.linkMsg e m fs
        let b : Block := { b with msgs := { b.msgs with
          early := b.msgs.early.erase m, nextSeq := mset 0 b.msgs.nextSeq m.seqKey ((m.qseq + 1) % 65536) } }
        Block.linkEarly e n k (b.signalMsg e n m)

/-- An ORDERED PUT (R274): linked in QSEQ order; without frames it waits. -/
def Block.putOrdered (b : Block) (e : Env) (n : Nat) (m : Msg) : Block :=
  let next := mget 0 b.msgs.nextSeq m.seqKey
  if m.qseq ≠ next then
    if b.msgs.early.contains m then b else { b with msgs := { b.msgs with early := b.msgs.early ++ [m] } }
  else
    match b.rxFrames (3 * 8192 + min n 35) m.dpart ((m.data.length + 0x3FFF) / 0x4000) with
    | none => b.keepMsg n m
    | some (b, fs) =>
      let b := b.linkMsg e m fs
      let b : Block := { b with msgs := { b.msgs with nextSeq := mset 0 b.msgs.nextSeq m.seqKey ((next + 1) % 65536) } }
      Block.linkEarly e n (b.msgs.early.length + 1) (b.signalMsg e n m)

/-- A PUT, or a GET_RSP written as one (R271 to R273). A write that the latent bank does not take yet waits. -/
def Block.doPut (b : Block) (e : Env) (n : Nat) (m : Msg) : Block :=
  let b := b.consume m
  match b.msgCheck m with
  | some c => b.refuseMsg e n c m
  | none =>
    if m.ordered && m.mtype = 0 then b.putOrdered e n m
    else
      let q := portReq n m.dpart 2
      if b.writeWaits e q m.addr then (b.noteWait e q m.addr).keepMsg n m
      else (b.reduceMem e q m.rop m.fmt m.exposure (bit m.flags 0) m.addr m.data).signalMsg e n m

/-- A GET_REQ (R271): the bytes asked for go back as a GET_RSP. -/
def Block.doGetReq (b : Block) (e : Env) (n : Nat) (m : Msg) : Block :=
  let b := b.consume m
  match b.msgCheck m with
  | some c => b.refuseMsg e n c m
  | none =>
    let r := b.readMem e (portReq n m.dpart 0) m.addr m.length
    let d := m.data.map Prod.fst
    r.1.sendMsg e { m with
      mtype := 2, flags := m.flags % 2 + 4 * (m.flags / 4 % 2), dst := m.src, parts := 16 * m.dpart + m.spart, rop := 0
      length := r.2.length, addr := leAt d 0 6, signal := leAt d 6 2 % 8192, qseq := 0, data := r.2 }

def Block.doGetRsp (b : Block) (e : Env) (n : Nat) (m : Msg) : Block := b.doPut e n m

/-- A REFUSED message comes back (R272). -/
def Block.doRefused (b : Block) (e : Env) (n : Nat) (m : Msg) : Block :=
  let d := m.data.map Prod.fst
  (b.consume m).refusedEvent e n m.dpart (leAt d 32 1) (d.take 32)

def addPair (x : Nat × Nat) (l : List (Nat × Nat)) : List (Nat × Nat) := if l.contains x then l else l ++ [x]

/-- A link management message from another device (R255, R261). -/
def Block.doMgmtDirection (b : Block) (e : Env) (n : Nat) (lost : Bool) (m : Msg) : Block :=
  let b := b.consume m
  let d := m.data.map Prod.fst
  let code := leAt d 0 1
  let dev := leAt d 2 2 % 1024
  let dir := leAt d 1 1
  if code ≠ (if lost then 1 else 2) then b.bumpPort (min n 35) 0x1B0 1
  else if lost then
    let b := b.bumpLink 0x2110 1
    let b : Block := { b with link := { b.link with remote := addPair (dev, dir) b.link.remote } }
    b.peersLost e dev dir
  else { b with link := { b.link with remote := b.link.remote.erase (dev, dir) } }

/-- Ports of some directions after a reset (R251, R368): idle, everything they held lost, their counters kept. -/
def Block.resetPorts (b : Block) (e : Env) (ds : List Nat) : Block :=
  (ds.flatMap dirPorts).foldl (fun b n =>
    let p := b.port n
    let b := if p.active then b.portEvent e n 2 1 [(28, 1, 3)] else b
    let st := if p.enable then 1 else 0
    let b := b.setPort n { enable := p.enable, forceX2 := p.forceX2, upHold := p.upHold, laneLimit := p.laneLimit
                           counters := p.counters, state := st, x2 := p.x2, bad := p.bad }
    b.noteDown e (portDir n)) b

end Sys2Proof.Machine
end

