-- ==== Sys2Proof/Machine/Fog.lean ====
section
/-! DEFINITION. Fog, cell health and spare rows (R383, R391 to R394), and what a cell reports of poison and overflow
(R78, R379). -/
namespace Sys2Proof.Machine

def Block.bumpInt (b : Block) (off n : Nat) : Block := { b with int := { b.int with counters := bump b.int.counters off n } }

/-- The health entry of a plate's physical row. -/
def rowKey (plate row : Nat) : Nat := 258 * plate + row
def Block.rowHealth (b : Block) (plate row : Nat) : RowHealth := mget {} b.int.rows (rowKey plate row)
def Block.setRow (b : Block) (plate row : Nat) (h : RowHealth) : Block :=
  { b with int := { b.int with rows := mset {} b.int.rows (rowKey plate row) h } }

/-- The physical row of a logical row (R393): the (r + 1)-th that the map does not exclude. -/
def physRow (mapped : List Nat) (r : Nat) : Nat :=
  ((List.range 258).filter (fun k => !mapped.contains k)).getD r r

/-- The physical row of a cell. -/
def Block.physOf (b : Block) (x y : Nat) : Nat := physRow (mget [] b.plates.rowMaps (plateOf x y)) (y % 256)

/-- Rows of a plate that are failed or mapped out. -/
def Block.failedRows (b : Block) (plate : Nat) : List Nat :=
  (List.range 258).filter (fun r => 2 ≤ (b.rowHealth plate r).state)

/-- A row that fails (R392 to R394): recorded in SPARE_ROWS, ROW_FAILED; a third one fails the plate. `why` is 0 for the
fog limit and 1 for a proof failure. -/
def Block.failRow (b : Block) (e : Env) (plate row why : Nat) : Block :=
  let b := b.setRow plate row { b.rowHealth plate row with state := 2 }
  let part := b.partOfPlate plate
  let b := { b with int := { b.int with
      unmapped := b.int.unmapped ||| 2 ^ plate
      spareStore := mset [] b.int.spareStore plate ((b.failedRows plate).take 3) } }
  let b := b.intEvent e 13 1 part plate 0xFFFF 0xFFFF [(32, 2, row), (34, 1, why)]
  if 3 ≤ (b.failedRows plate).length then
    let b := { b with int := { b.int with plateFailed := b.int.plateFailed ||| 2 ^ plate } }
    let b := b.intEvent e 15 3 part plate 0xFFFF 0xFFFF [(32, 2, row)]
    if part < 8 then b.stopJob e part 7 true else b
  else if part < 8 && b.holdsJob part then
    if b.int.remapAuto then b.retainedReset e 2 else b.stopJob e part 6 true
  else b

/-- Charges a row with a fog event or a proof failure (R391, R392). -/
def Block.chargeRow (b : Block) (e : Env) (plate row why : Nat) : Block :=
  let h := b.rowHealth plate row
  let h := if why = 0 then { h with fog := min 255 (h.fog + 1) } else { h with proof := min 255 (h.proof + 1) }
  let b := b.setRow plate row { h with state := max 1 h.state }
  if h.state < 2 && (b.int.fogLimit ≤ h.fog || 0 < h.proof) then b.failRow e plate row why else b

/-- The severity of a fog record: 2 in cells that a job holds, 1 otherwise (R399). -/
def Block.fogSev (b : Block) (part : Nat) : Nat := if part < 8 && b.holdsJob part then 2 else 1

/-- A fog event found at cell (x, y) (R88, R383): counted, recorded, a job fault where a job holds the cell, and charged
to row `row` of `plate`. `off` is its INT counter. -/
def Block.fogAt (b : Block) (e : Env) (code off x y plate row : Nat) (more : List (Nat × Nat × Nat)) : Block :=
  let part := b.partOfPlate (plateOf x y)
  let b := (b.setCell x y ((b.cell x y).count 8 1)).bumpInt off 1
  let b := b.intEvent e code (b.fogSev part) part (plateOf x y) x y more
  let b := if part < 8 then b.jobFault e part 1 else b
  b.chargeRow e plate row 0

/-- A residue, rounding or op-table mismatch (R88); `kind` as FOG_RESIDUE byte 32 names it. -/
def Block.fogResidue (b : Block) (e : Env) (x y kind : Nat) : Block :=
  b.fogAt e 1 0x128 x y (plateOf x y) (b.physOf x y) [(32, 1, kind)]

/-- A job consumes poison (R379): POISON_CONSUMED and the job fault of cause 0. -/
def Block.consumeIn (b : Block) (e : Env) (part plate x y : Nat) : Block :=
  if part < 8 && b.holdsJob part then
    let a := ((mget [] b.int.plog part).head?).getD (2 ^ 64 - 1)
    let b := (b.bumpInt 0x168 1).intEvent e 6 2 part plate x y [(32, 8, a)]
    b.jobFault e part 0
  else b

/-- The first consumption of a group or vector operation in a cell. -/
def Block.consumePoison (b : Block) (e : Env) (x y : Nat) : Block :=
  b.consumeIn e (b.partOfPlate (plateOf x y)) (plateOf x y) x y

/-- OVERFLOW_RESULT (R78, R399), limited per plate. -/
def Block.overflowEvent (b : Block) (e : Env) (x y n : Nat) : Block :=
  if n = 0 then b
  else
    let key := 10 * 256 + plateOf x y
    if limited b.int.lastEvt e key then b.bumpInt 0x198 1
    else
      let b := { b with int := { b.int with lastEvt := mset 0 b.int.lastEvt key (e.ms + 1) } }
      b.intEvent e 10 1 (b.partOfPlate (plateOf x y)) (plateOf x y) x y [(32, 2, n)]

end Sys2Proof.Machine
end

