-- ==== Sys2Proof/Machine/Region.lean ====
section
/-! DEFINITION. Regions as their sequencers run them: readiness, counting (R95), freezes (R104, R105), drain stops (R98),
breakpoints (R408), replays (R77), and the stream demand of an issue (R101, R104). -/
namespace Sys2Proof.Machine

def Block.modRegion (b : Block) (r : RegionId) (f : Region → Region) : Block := b.setRegion r (f (b.region r))

/-- Applies `f` to every cluster of a region. -/
def Block.modClusters (b : Block) (r : RegionId) (f : Cluster → Cluster) : Block :=
  (b.region r).clusters.foldl (fun b p => b.setCluster p.1 p.2 (f (b.cluster p.1 p.2))) b

/-- The lead cluster (R106): smallest y, then smallest x. -/
def Region.lead (r : Region) : Nat × Nat := (r.x0, r.y0)

/-- Whether a region covers cluster (cx, cy). -/
def Region.covers (r : Region) (cx cy : Nat) : Bool :=
  decide (r.x0 ≤ cx) && decide (cx ≤ r.x1) && decide (r.y0 ≤ cy) && decide (cy ≤ r.y1)

/-- The regions of the command that a partition runs. -/
def Block.liveRegions (b : Block) (part : Nat) : List Nat :=
  match (b.image part).runCmd with
  | some c => ((b.image part).regions.filter (fun p => decide (p.2.cmd = c))).map Prod.fst
  | none => []

/-- The region that holds cell (x, y) in the command that its partition runs. -/
def Block.regionAt (b : Block) (x y : Nat) : Option RegionId :=
  let part := b.partOfPlate (plateOf x y)
  if h : part < 8 then
    ((b.liveRegions part).find? (fun i => (mget ({} : Region) (b.image part).regions i).covers (x / 8) (y / 8))).map
      (fun i => ⟨⟨part, h⟩, i⟩)
  else none

/-! ## Freeze groups (R104) -/

/-- The cells of a region. -/
def Region.cells (r : Region) : List (Nat × Nat) := r.clusters.flatMap (fun p => clusterCells p.1 p.2)

/-- Whether some route entry of a cell drives its output `o` (0 north to 3 west). -/
def Cell.drives (c : Cell) (o : Nat) : Bool :=
  (List.range 16).any (fun n => bits c.routes (15 * n + 3 * o + 2) (15 * n + 3 * o) ≠ 0)

/-- Whether a route of region `r` drives a link into region `s`. -/
def Block.routesInto (b : Block) (r s : Region) : Bool :=
  r.cells.any (fun p => [1, 2, 3, 4].any (fun d =>
    match neighbour p.1 p.2 d with
    | some q => !r.covers (q.1 / 8) (q.2 / 8) && s.covers (q.1 / 8) (q.2 / 8) && (b.cell p.1 p.2).drives (d - 1)
    | none => false))

/-- Adds to a set of regions those that a route joins to it. -/
def Block.joinOnce (b : Block) (part : Nat) (set : List Nat) : List Nat :=
  let get (i : Nat) : Region := mget {} (b.image part).regions i
  set ++ (b.liveRegions part).filter (fun j =>
    !set.contains j && set.any (fun i => b.routesInto (get i) (get j) || b.routesInto (get j) (get i)))

def Block.joinFuel (b : Block) (part : Nat) : Nat → List Nat → List Nat
  | 0, set => set
  | n + 1, set =>
    let t := b.joinOnce part set
    if t.length = set.length then set else Block.joinFuel b part n t

/-- The freeze group of a region: itself and every region joined to it by a static mesh route in the same command. -/
def Block.freezeGroup (b : Block) (r : RegionId) : List RegionId :=
  (b.joinFuel r.part (b.liveRegions r.part).length [r.idx]).map (fun i => ⟨r.part, i⟩)

/-- Counts frozen cycles in every cluster of a group under a cause (R105). -/
def Block.countStall (b : Block) (rs : List RegionId) (cause cycles : Nat) : Block :=
  rs.foldl (fun b r => b.modClusters r (fun c => c.count (0x100 + 8 * cause) cycles)) b

/-- Trace source 1 (R409): a freeze starts or ends at the selected cluster. -/
def Block.traceFreeze (b : Block) (e : Env) (r : RegionId) (cause : Nat) (start : Bool) : Block :=
  let t := b.obs.trace
  let cx := 20 * (t.plate % 4) + t.cluster % 20
  let cy := 32 * (t.plate / 4) + t.cluster / 20
  if (b.region r).covers cx cy then b.traceRec e 1 t.plate (cause + 256 * b2n start) else b

/-- Freezes a region's group under a cause (R104). -/
def Block.freeze (b : Block) (e : Env) (r : RegionId) (cause : Nat) : Block :=
  (b.freezeGroup r).foldl (fun b q =>
    if (b.region q).state = .running then
      (b.modRegion q (fun x => { x with state := .frozen, frozenCause := cause })).traceFreeze e q cause true
    else b) b

/-- The group runs again after `cycles` frozen cycles. -/
def Block.thaw (b : Block) (e : Env) (r : RegionId) (cycles : Nat) : Block :=
  let rs := (b.freezeGroup r).filter (fun q => decide ((b.region q).state = .frozen))
  let cause := (b.region r).frozenCause
  rs.foldl (fun b q => (b.modRegion q (fun x => { x with state := .running, frozenCause := 0 })).traceFreeze e q cause false) (b.countStall rs cause cycles)

/-! ## Executing one instruction (R95) -/

/-- Moves on by one executed cycle to `pc`. -/
def Region.goto (r : Region) (pc : Nat) : Region := { r with pc := pc % 2048, cycle := r.cycle + 1 }
def Region.next (r : Region) : Region := r.goto (r.pc + 1)

/-- The output of comparator `k` (R91): live, on the counters as they stand. -/
def Region.cmp (r : Region) (k : Nat) : Bool :=
  let c := mget {} r.cmps k
  let v := mget 0 r.ctrs c.ctr
  match c.rel with
  | 0 => decide (v = c.val)
  | 1 => decide (v ≠ c.val)
  | 2 => decide (v < c.val)
  | _ => decide (c.val ≤ v)

/-- Ends the program (R92, R98): a pending drain request is dropped. -/
def Block.haltRegion (b : Block) (r : RegionId) : Block :=
  b.modRegion r (fun x => { x.next with state := .halted, drain := false })

/-- A class-1 record about a cluster, with the queue and sequence number of the partition's RUN. -/
def Block.runEvent (b : Block) (e : Env) (part code cx cy : Nat) (more : List (Nat × Nat × Nat)) : Block :=
  let q := b.runQueue part
  let seq := (q.bind (fun q => (b.queue q).active.map (fun r => r.seq))).getD 0
  b.post e { cls := 1, sev := 1, code := code, part := part, source := plateOf (8 * cx) (8 * cy)
             payload := [(24, 1, q.getD 0), (26, 2, clusterIndex cx cy), (32, 8, seq)] ++ more }

/-- Trace source 0 (R409): a taken branch of the selected cluster. -/
def Block.traceBranch (b : Block) (e : Env) (r : RegionId) (frm dst : Nat) : Block :=
  let t := b.obs.trace
  let cx := 20 * (t.plate % 4) + t.cluster % 20
  let cy := 32 * (t.plate / 4) + t.cluster / 20
  if (b.region r).covers cx cy then b.traceRec e 0 t.plate (frm + 65536 * dst) else b

/-- The cluster that a breakpoint unit names. -/
def BpUnit.at (u : BpUnit) : Nat × Nat := (20 * (u.plate % 4) + u.cluster % 20, 32 * (u.plate / 4) + u.cluster / 20)

def Block.bp (b : Block) (u : Nat) : BpUnit := mget {} b.obs.bps u
def Block.setBp (b : Block) (u : Nat) (x : BpUnit) : Block := { b with obs := { b.obs with bps := mset {} b.obs.bps u x } }
def Block.bumpObs (b : Block) (off n : Nat) : Block := { b with obs := { b.obs with counters := bump b.obs.counters off n } }

/-- Gives a region a drain request (R98); only a region that runs takes it. -/
def Block.requestDrain (b : Block) (r : RegionId) : Block :=
  let x := b.region r
  if x.state = .running || x.state = .frozen || x.state = .replayWait then b.setRegion r { x with drain := true } else b

def Block.requestDrainAll (b : Block) (part : Fin 8) : Block :=
  (b.liveRegions part).foldl (fun b i => b.requestDrain ⟨part, i⟩) b

/-- The execution of instruction `pc` by a region, as the armed breakpoint units see it (R408). -/
def Block.breakHits (b : Block) (r : RegionId) (pc : Nat) : Block :=
  (List.range 16).foldl (fun b k =>
    let u := b.bp k
    if u.state = 1 && u.part = r.part && (b.region r).covers u.at.1 u.at.2 && u.pc = pc then
      let h := min (u.hits + 1) (2 ^ 24 - 1)
      let b := b.bumpObs 0x420 1
      if h = max 1 u.n then
        let b := b.setBp k { u with hits := h, state := 2 }
        if u.scope then b.requestDrainAll r.part else b.requestDrain r
      else b.setBp k { u with hits := h }
    else b) b

/-- An observation-path record (R411). -/
def Block.obsEvent (b : Block) (e : Env) (code sev part unit : Nat) (more : List (Nat × Nat × Nat)) : Block :=
  b.post e { cls := 0, sev := sev, code := code, part := part, source := 0x1F, payload := [(24, 1, unit)] ++ more }

/-- A unit whose region reaches HALT before it stops is missed (R408). -/
def Block.breakMissed (b : Block) (e : Env) (r : RegionId) : Block :=
  (List.range 16).foldl (fun b k =>
    let u := b.bp k
    if u.state = 2 && u.part = r.part && (b.region r).covers u.at.1 u.at.2 then
      (b.setBp k { u with state := 4 }).obsEvent e 0x104 0 r.part k [(26, 2, clusterIndex u.at.1 u.at.2)]
    else b) b

/-- Stops a region at a drain point (R98): STATE 7 where a breakpoint of its own stopped it, otherwise 5. -/
def Block.stopRegion (b : Block) (e : Env) (r : RegionId) : Block :=
  let mine := (List.range 16).filter (fun k =>
    let u := b.bp k
    decide (u.state = 2) && decide (u.part = r.part) && (b.region r).covers u.at.1 u.at.2)
  let b := b.modRegion r (fun x => { x with state := if mine.isEmpty then .stopped else .breakpoint, drain := false })
  let byScope := (List.range 16).any (fun k =>
    let u := b.bp k
    u.scope && decide (u.part = r.part) && (decide (u.state = 2) || decide (u.state = 3)))
  let b : Block := if (byScope || !mine.isEmpty) && mget 0 b.obs.bpFrom r.part = 0 then
      { b with obs := { b.obs with bpFrom := mset 0 b.obs.bpFrom r.part (e.clk.now + 1) } }
    else b
  mine.foldl (fun b k =>
    let u := b.bp k
    (b.setBp k { u with state := 3 }).obsEvent e 0x103 0 r.part k
      [(26, 2, clusterIndex u.at.1 u.at.2), (28, 2, u.pc)]) b

/-- What watches an executed instruction of a region that stood as `x`: the armed breakpoint units, the branch trace, and the
breakpoint units that HALT leaves behind (R408, R409). -/
def Block.seqWatch (b : Block) (e : Env) (r : RegionId) (x : Region) : Block :=
  let y := b.region r
  let moved := decide (y.cycle ≠ x.cycle) || decide (y.waitLeft ≠ 0) || decide (y.walk.phase ≠ .none)
  let b := if moved then b.breakHits r x.pc else b
  let b := if moved && y.pc ≠ (x.pc + 1) % 2048 && y.state = .running then b.traceBranch e r x.pc y.pc else b
  if (b.region r).state = .halted then b.breakMissed e r else b

/-- A region executes one instruction when it runs, waits for nothing and walks nothing. Past the end of its program it
executes HALT with a PC_PAST_END record (R92). -/
def Block.seqStep (b : Block) (e : Env) (r : RegionId) (f : Region → Block) : Block :=
  let x := b.region r
  if x.state ≠ .running || x.waitLeft ≠ 0 || x.walk.phase ≠ .none then b
  else
    let b' := if x.plen ≤ x.pc then (b.runEvent e r.part 5 x.lead.1 x.lead.2 []).haltRegion r else f x
    b'.seqWatch e r x

/-- The plain form: the instruction changes the region and takes one cycle. -/
def Block.seqPlain (b : Block) (e : Env) (r : RegionId) (f : Region → Region) : Block :=
  b.seqStep e r (fun x => b.setRegion r (f x))

/-! ## Stream descriptors (R99 to R102) -/

/-- The refusal of a stream descriptor at address `a` by channel `ch`, as a CMD_REFUSED reason. -/
def Block.streamFault (b : Block) (part a ch : Nat) : Option Nat :=
  let s := StreamDesc.ofBits (leNat (b.peek a 64))
  let t := Tensor.ofBits (leNat (b.peek s.tdesc 64))
  if !b.spanInPart part a 64 || !b.spanInPart part s.tdesc 64 then some 6
  else match t.fault part with
    | some n => some n
    | none => s.fault (fmtOf t.fmt) ch

/-- What one cluster's STRM does (R99): the offset, the registers after it, and the flow queued. -/
def Block.strmCluster (b : Block) (e : Env) (part cx cy ch ra rb : Nat) : Block :=
  let c := b.cluster cx cy
  let a := mget 0 c.areg ra
  let chan := c.chan ch
  let push (c : Cluster) (off : Int) : Cluster :=
    c.setChan ch { chan with queue := chan.queue ++ [{ desc := a, off := off }], queued := chan.queued + 1 }
  if c.addrMode then
    let p := mget 0 c.areg 15
    let (b, bs) := b.readMem e (b.clusterReq part cx cy 0) p 8
    let v := leNat (bs.map Prod.fst)
    let c := if bits v 63 40 = 0 then c else c.count 0x150 1
    b.setCluster cx cy (push { c with areg := mset 0 c.areg 15 ((p + 8) % 2 ^ 40) } (sext 40 v))
  else
    let v := mget 0 c.areg rb
    let n := (v + mget 0 c.areg (rb + 1)) % 2 ^ 40
    b.setCluster cx cy (push { c with areg := mset 0 c.areg rb n } (sext 40 v))

/-! ## Signals (R112) -/

/-- Whether every write channel of a region has handed on what it accepted. -/
def Block.writesVisible (b : Block) (r : RegionId) : Bool :=
  (b.region r).clusters.all (fun p =>
    let c := b.cluster p.1 p.2
    (c.chan 2).held.isEmpty && c.outs.isEmpty && (c.chan 10).held.isEmpty && (c.chan 11).held.isEmpty)

/-- SYNC_MODE_ERROR of R112. -/
def Block.syncModeError (b : Block) (e : Env) (r : RegionId) (o : Nat) : Block :=
  let l := (b.region r).lead
  let b := b.setCluster l.1 l.2 ((b.cluster l.1 l.2).count 0x158 1)
  b.runEvent e r.part 7 l.1 l.2 [(28, 2, o)]

/-- Whether SYNCSIG and SYNCWT may use an object (R112). -/
def Block.syncUsable (b : Block) (part o : Nat) : Bool := decide ((b.obj o).mode = 0) && decide ((b.obj o).part = part)

/-- Applies the signals of a region whose earlier writes have become visible. -/
def Block.settleSignals (b : Block) (e : Env) (r : RegionId) : Block :=
  let x := b.region r
  if x.signals.isEmpty || !b.writesVisible r then b
  else
    let b := b.setRegion r { x with signals := [] }
    x.signals.foldl (fun b o =>
      if b.syncUsable r.part o then b.syncAdd e (clusterIndex x.lead.1 x.lead.2) r.part o 1 else b.syncModeError e r o) b

/-! ## The stream demand of an issue (R101, R103, R104) -/

/-- Bytes that one cell takes from S0 and S1 and gives to S2 in an operation. -/
structure Demand where
  a : Nat
  b : Nat
  out : Nat
deriving DecidableEq, Repr

def OpEntry.demand (o : OpEntry) : Demand :=
  let fa := fmtOf o.fmtA
  let fb := fmtOf o.fmtB
  let fo := fmtOf o.fmtOut
  if !o.valid then ⟨0, 0, 0⟩
  else if o.opc = 1 then
    let kt := kTile fa fb
    ⟨if o.aSrc = 5 then o.mc * rowBytesA fa kt else 0, if o.bSrc = 5 then tileBytesB fb kt else 0, 0⟩
  else if o.opc = 0x10 then ⟨if o.aSrc = 5 then vldBytes fa else 0, 0, 0⟩
  else if o.opc = 0x11 then ⟨0, 0, if o.outDst = 5 then storedBytes fo (16 * blockRegs fo) else 0⟩
  else if o.opc = 2 then ⟨0, 0, if o.outDst = 5 then o.mc * storedBytes fo (8 * drainTiles fo) else 0⟩
  else ⟨0, 0, 0⟩

/-- The flow of a channel at stream position `p` from its queue's start, and the position within it. -/
def Block.flowAt (b : Block) : List Flow → Nat → Option (Flow × Nat)
  | [], _ => none
  | f :: fs, p =>
    let n := b.flowBytes f
    if p < n then some (f, p) else Block.flowAt b fs (p - n)

/-- How the flow at a position deals its bytes: the cells served in row-major order, format and RUN, whether each run goes to
one cell in turn (DELIV 1), and the position within the flow. -/
structure Deal where
  cells : List (Nat × Nat)
  fmt : Fmt
  run : Nat
  turns : Bool
  pos : Nat
deriving DecidableEq, Repr

def Block.dealAt (b : Block) (cx cy : Nat) (c : Channel) (p : Nat) : Option Deal :=
  (b.flowAt c.queue p).map (fun f =>
    let d := b.flowDescs f.1
    { cells := selected cx cy d.1.rows d.1.cols, fmt := fmtOf d.2.fmt, run := d.1.run
      turns := decide (d.1.deliv = 1), pos := f.2 })

/-- The cell whose turn byte `k` from the position on is. -/
def Deal.turn (d : Deal) (k : Nat) : Option (Nat × Nat) := d.cells[(runAt d.fmt d.run (d.pos + k)).1 % (max 1 d.cells.length)]?

/-- The bytes that a read channel must hold for an issue in which each cell takes `n`. -/
def Block.readNeed (b : Block) (cx cy : Nat) (c : Channel) (n : Nat) : Nat :=
  match b.dealAt cx cy c c.taken with
  | some d => if d.turns then n * d.cells.length else n
  | none => n

/-- The cause under which a read that is late counts (R105). -/
def Block.lateCause (b : Block) (e : Env) (part cx cy : Nat) (c : Channel) : Nat :=
  match (b.liveFlow c).bind (fun i => c.queue[i]?) with
  | none => 7
  | some f =>
    let d := b.flowDescs f
    if d.1.kind = 1 then 3
    else
      let a := ((piecesAt d.2 d.1 f.off f.served).head?.map ByteAt.addr).getD 0
      match b.redirect e (b.clusterReq part cx cy d.2.gclass) false a with
      | .go pa => if (mget ({} : Line) b.shc.lines (pa / 128)).state = .i then 6 else 7
      | _ => 7

/-- Why a cluster cannot run an issue in this cycle (R104), as a cause of R105. -/
def Block.issueStall (b : Block) (e : Env) (part cx cy : Nat) (d : Demand) (cells : Nat) : Option Nat :=
  let c := b.cluster cx cy
  let late (k n : Nat) : Option Nat :=
    let ch := c.chan k
    let need := b.readNeed cx cy ch n
    if n = 0 || need ≤ ch.held.length || b.chanLeft ch = 0 then none else some (b.lateCause e part cx cy ch)
  let s2 := c.chan 2
  let room := b.chanLeft s2 - s2.held.length
  let give := min (d.out * cells) room
  let full : Option Nat :=
    if d.out = 0 || give ≤ s2.credit then none
    else
      match (b.liveFlow s2).bind (fun i => s2.queue[i]?) with
      | some f => let k := (b.flowDescs f).1.kind; some (if k = 1 then 3 else if k = 2 then 4 else 7)
      | none => none
  match [late 0 d.a, late 1 d.b, full].filterMap id with
  | [] => none
  | x :: xs => some (xs.foldl min x)

/-- The bytes of a delivered chunk that cell `p` receives (R103): all of them, or its own runs; outside the selection the
rule gives no bytes. -/
def Deal.share (d : Deal) (chunk : List (Byte × Bool)) (p : Nat × Nat) (n : Nat) : List (Byte × Bool) :=
  if !d.cells.contains p then clean ((List.range n).map (Config.unservedByte p.1 p.2 d.pos))
  else if !d.turns then chunk.take n
  else
    ((chunk.zip (List.range chunk.length)).filter (fun x =>
      decide (d.turn x.2 = some p))).map Prod.fst

/-- Takes an issue's bytes from a read channel: the cluster after it, the chunk, how it is dealt, and whether it
underran (R101). -/
def Block.takeRead (b : Block) (cx cy k n : Nat) : Cluster × List (Byte × Bool) × Option Deal × Bool :=
  let c := b.cluster cx cy
  let ch := c.chan k
  if n = 0 then (c, [], none, false)
  else
    let need := b.readNeed cx cy ch n
    let got := ch.held.take need
    (c.setChan k { ch with held := ch.held.drop need, taken := ch.taken + got.length },
      got ++ clean (zeros (need - got.length)), b.dealAt cx cy ch ch.taken, decide (got.length < need))

/-- Counts one underrun (R101). -/
def Block.underrun (b : Block) (e : Env) (part cx cy ch : Nat) : Block :=
  (b.setCluster cx cy ((b.cluster cx cy).count 0x148 1)).runEvent e part 6 cx cy [(28, 1, ch)]

/-- Delivers an issue to one cluster: its selected cells latch the entry and their bytes, every other cell a NOP. -/
def Block.issueCluster (b : Block) (e : Env) (part cx cy : Nat) (w : IssueWord) (first : Bool) : Block :=
  let cells := selected cx cy w.rowMask w.colMask
  let d := match cells.head? with
    | some p => ((b.cell p.1 p.2).op w.entry).demand
    | none => ⟨0, 0, 0⟩
  let (c, ta, da, ua) := b.takeRead cx cy 0 d.a
  let b := b.setCluster cx cy c
  let (c, tb, db, ub) := b.takeRead cx cy 1 d.b
  let s2 := c.chan 2
  let give := d.out * cells.length
  let room := b.chanLeft s2 - s2.held.length
  let c := if d.out = 0 then c else c.setChan 2 { s2 with credit := s2.credit - min give room }
  let b := b.setCluster cx cy c
  let idx := mget 0 c.areg w.idxA
  let pitch := mget 0 c.areg (w.idxA + 1)
  let give1 (deal : Option Deal) (chunk : List (Byte × Bool)) (p : Nat × Nat) (n : Nat) : List (Byte × Bool) :=
    match deal with
    | some k => k.share chunk p n
    | none => chunk.take n
  let b := (clusterCells cx cy).foldl (fun b p =>
    let cell := b.cell p.1 p.2
    let cell := if w.routeEn then { cell with route := w.route } else cell
    let cell := if cells.contains p then
        { cell with issue := some { entry := w.entry, first := first, idx := idx, pitch := pitch
                                    a := give1 da ta p d.a, b := give1 db tb p d.b } }
      else { cell with issue := none }
    b.setCell p.1 p.2 cell) b
  let b := if ua then b.underrun e part cx cy 0 else b
  let b := if ub then b.underrun e part cx cy 1 else b
  if room < give && d.out ≠ 0 then b.underrun e part cx cy 2 else b

/-- The program state that an overflow replay returns to (R77), taken at a first pass. -/
def Block.takeSnap (b : Block) (r : RegionId) (entry : Nat) : Block :=
  let x := b.region r
  let cs := x.clusters
  let areg := cs.foldl (fun m p => mset [] m (clusterKey p.1 p.2) (b.cluster p.1 p.2).areg) []
  let chans := cs.foldl (fun m p => mset [] m (clusterKey p.1 p.2) (b.cluster p.1 p.2).chans) []
  let snap : Snap := { entry := entry, pc := x.pc, ctrs := x.ctrs, cmps := x.cmps, cycle := x.cycle, aregs := areg, chans := chans }
  b.setRegion r { x with snap := some snap }

/-! ## Output through S2 -/

/-- Whose byte the stream takes next: the cell whose turn it is, or the first that has bytes. -/
def Block.nextOut (b : Block) (cx cy : Nat) (c : Cluster) : Option (Option Nat) :=
  let key (p : Nat × Nat) : Nat := 8 * (p.2 % 8) + p.1 % 8
  let ch := c.chan 2
  match b.dealAt cx cy ch ch.taken with
  | none => none
  | some d =>
    if d.turns then some ((d.turn 0).map key)
    else some ((c.outs.head?).map Prod.fst)

/-- Moves bytes of the cells into the stream in its order (R103); bytes past the last descriptor are dropped. -/
def Block.gatherFuel (cx cy : Nat) : Nat → Block → Block
  | 0, b => b
  | n + 1, b =>
    let c := b.cluster cx cy
    if c.outs.isEmpty then b
    else
      match b.nextOut cx cy c with
      | none => b.setCluster cx cy { c with outs := [] }
      | some none => b
      | some (some k) =>
        match mget [] c.outs k with
        | [] => b
        | x :: xs =>
          let ch := c.chan 2
          let c := { c with outs := mset [] c.outs k xs }
          Block.gatherFuel cx cy n (b.setCluster cx cy (c.setChan 2 { ch with held := ch.held ++ [x], taken := ch.taken + 1 }))

/-- A cell gives bytes to its cluster's S2 (R101, R103). -/
def Block.toS2 (b : Block) (x y : Nat) (bs : List (Byte × Bool)) : Block :=
  let cx := x / 8
  let cy := y / 8
  let c := b.cluster cx cy
  let k := 8 * (y % 8) + x % 8
  let c := { c with outs := mset [] c.outs k (mget [] c.outs k ++ bs) }
  let total := c.outs.foldl (fun n p => n + p.2.length) 0
  Block.gatherFuel cx cy total (b.setCluster cx cy c)

/-! ## Overflow replay (R77) -/

/-- Puts a region's freeze group into replay wait. -/
def Block.startReplay (b : Block) (r : RegionId) : Block :=
  (b.freezeGroup r).foldl (fun b q => b.modRegion q (fun x =>
    if x.state = .running || x.state = .frozen then { x with state := .replayWait, frozenCause := 1 } else x)) b

/-- The channels of a cluster after a rewind to `old`: reads and local-store transfers stand where they stood; S2 keeps
what it has accepted and drops the descriptors queued since. -/
def Cluster.rewind (c : Cluster) (old : SMap Channel) : Cluster :=
  let s2 := c.chan 2
  let was := mget {} old 2
  let s2' := { s2 with queue := s2.queue.take (s2.queue.length - (s2.queued - was.queued)), queued := was.queued }
  let reads : SMap Channel := old.filter (fun (p : Nat × Channel) => decide (p.1 < 8))
  let buffers : SMap Channel := c.chans.filter (fun (p : Nat × Channel) => decide (8 ≤ p.1))
  ({ c with chans := reads.append buffers }).setChan 2 s2'

/-- One region restarts from the first pass of its current group at the raised exposure (R77). -/
def Block.restartRegion (b : Block) (r : RegionId) : Block :=
  let x := b.region r
  match x.snap with
  | none => b.setRegion r { x with state := .running, frozenCause := 0 }
  | some s =>
    let b := b.setRegion r { x with state := .running, frozenCause := 0, pc := s.pc, ctrs := s.ctrs, cmps := s.cmps, cycle := s.cycle }
    let b := x.clusters.foldl (fun b p =>
      let c := (b.cluster p.1 p.2).rewind (mget [] s.chans (clusterKey p.1 p.2))
      b.setCluster p.1 p.2 { c with areg := mget [] s.aregs (clusterKey p.1 p.2) }) b
    x.cells.foldl (fun b p =>
      let c := b.cell p.1 p.2
      let o := c.op s.entry
      b.setCell p.1 p.2 ((if o.opc = 1 then c.replayGroup o else c))) b

end Sys2Proof.Machine
end

