-- ==== Sys2Proof/Machine/Power.lean ====
section
/-! DEFINITION. The timebase and the power envelope controller (R179 to R204). -/
namespace Sys2Proof.Machine

def Block.setTim (b : Block) (t : TimeUnit) : Block := { b with tim := t }
def Block.modTim (b : Block) (f : TimeUnit → TimeUnit) : Block := { b with tim := f b.tim }
def Block.bumpTim (b : Block) (off n : Nat) : Block := b.modTim (fun t => { t with counters := bump t.counters off n })

/-! ## Means (R188) -/

def mean (l : List Nat) : Nat := if l.isEmpty then 0 else l.sum / l.length

/-- Watts of one sample in 10 mV and 10 mA units. -/
def wattsOf (s : Nat × Nat) : Nat := s.1 * s.2 / 10000

/-- The 100 µs and the 1 ms mean. -/
def TimeUnit.mean100 (t : TimeUnit) : Nat := mean ((t.samples.take 10).map wattsOf)
def TimeUnit.msW (t : TimeUnit) : Nat := mean (t.samples.map wattsOf)
def TimeUnit.vin (t : TimeUnit) : Nat := mean (t.samples.map Prod.fst)
def TimeUnit.iin (t : TimeUnit) : Nat := mean (t.samples.map Prod.snd)

/-- A class-3 record (R204). -/
def Block.timEvent (b : Block) (e : Env) (code sev : Nat) (more : List (Nat × Nat × Nat)) : Block :=
  b.post e { cls := 3, sev := sev, code := code, part := 15, source := 0x1B
             payload := [(24, 2, b.tim.limit), (26, 2, b.tim.msW)] ++ more }

/-- A class-3 record written at most once per `period` µs. -/
def Block.timRare (b : Block) (e : Env) (period code sev : Nat) (more : List (Nat × Nat × Nat)) : Block :=
  let slot := e.clk.now / period + 1
  if mget 0 b.tim.lastEvt code = slot then b
  else (b.modTim (fun t => { t with lastEvt := mset 0 t.lastEvt code slot })).timEvent e code sev more

/-- An event that fires after its tick (R183). -/
def Block.lateTick (b : Block) (e : Env) (tick : Nat) : Block :=
  (b.bumpTim 0x110 1).timRare e 1000 0xE 1 [(32, 8, tick)]

/-! ## Time that passes -/

/-- Swallowed cycles among plate cycles [0, c) at ratio `n` (R195). -/
def swallowedUpTo (n c : Nat) : Nat := c * n / 64

/-- MHz of an operating point (R193). -/
def fstepMhz (f : Nat) : Nat := 400 + 50 * f

/-- What `dt` µs add to a plate's count c and to TIM_SWALLOWp (R195). A plate whose clock does not run counts none. -/
def Block.swallowPlate (b : Block) (dt p : Nat) : Block :=
  let x := mget {} b.tim.plates p
  if x.swallow = 0 || (b.dom (6 * p + 5)).state ≠ 0 then b
  else
    let c := x.cyc + dt * fstepMhz x.fstep
    let n := swallowedUpTo x.swallow c - swallowedUpTo x.swallow x.cyc
    let b := b.modTim (fun t => { t with
      plates := mset {} t.plates p { x with cyc := c }, counters := bump t.counters (0x140 + 8 * p) n })
    let part := b.partOfPlate p
    let on (i : Nat) : Bool := let s := (mget ({} : Region) (b.image part).regions i).state; s = .running || s = .frozen
    let live := (b.liveRegions part).filter on
    { b with plates := { b.plates with clusters := b.plates.clusters.map (fun q =>
        (q.1, if plateOfCluster q.1 = p && live.contains q.2.region then q.2.count 0x100 n else q.2)) } }

/-- What passes with campus time from `t` to `u`: milliseconds in holdover, with TLIMIT low, with VIN low; swallowed
cycles (R188, R195, R203, R435). -/
def Block.elapse (b : Block) (t u : Nat) : Block :=
  let ms := u / 1000 - t / 1000
  let b := if 3 ≤ b.tim.tstate && ms ≠ 0 then b.bumpTim 0x128 ms else b
  let m := b.module
  let k := m.counters
  let k := if m.tlimit < 6900 && ms ≠ 0 then bump k 0x140 ms else k
  let k := if b.tim.vin ≠ 0 && b.tim.vin < 4800 && ms ≠ 0 then bump k 0x148 ms else k
  let b : Block := { b with module := { m with counters := k } }
  (List.range 8).foldl (fun b p => b.swallowPlate (u - t) p) b

/-- Moves every device-local event still pending by a step of the count (R184), and with it the moments from which waits,
pauses and resets are measured. -/
def Block.shiftEvents (b : Block) (d : Nat) : Block :=
  let late (t : Nat) : Nat := if t = 0 then 0 else t + d
  { b with
    fe := { b.fe with
      queues := b.fe.queues.map (fun q => (q.1, { q.2 with
        pausedAt := late q.2.pausedAt, running := q.2.running.map (fun r => { r with due := late r.due }) }))
      engines := b.fe.engines.map (fun x => (x.1, { x.2 with sliceEnd := late x.2.sliceEnd })) }
    evt := { b.evt with rings := b.evt.rings.map (fun r => (r.1, { r.2 with fireAt := late r.2.fireAt })) }
    gens := b.gens.map (fun g => (g.1, { g.2 with aux := { g.2.aux with
      exposeBy := late g.2.aux.exposeBy, orderBy := late g.2.aux.orderBy, rejoinBy := late g.2.aux.rejoinBy
      loadedAt := late g.2.aux.loadedAt, waitFrom := g.2.aux.waitFrom.map (· + d)
      stallFrom := g.2.aux.stallFrom.map (· + d) } }))
    link := { b.link with ports := b.link.ports.map (fun p => (p.1, { p.2 with
      changedAt := late p.2.changedAt, nakAt := late p.2.nakAt })) }
    clk := { b.clk with
      switches := b.clk.switches.map (fun s => (s.1, s.2.map (fun x => { x with tick := x.tick + d })))
      doms := b.clk.doms.map (fun x => (x.1, { x.2 with since := late x.2.since }))
      parts := b.clk.parts.map (fun x => (x.1, x.2.map (fun r => { r with since := r.since + d })))
      ret := b.clk.ret.map (fun r => { r with since := r.since + d })
      slFrom := late b.clk.slFrom }
    obs := { b.obs with
      snap := b.obs.snap.map (fun r => { r with tick := r.tick + d })
      bpFrom := b.obs.bpFrom.map (fun x => (x.1, late x.2)) }
    tim := { b.tim with
      curtail := b.tim.curtail.map (fun c => { c with t0 := c.t0 + d })
      ctLast := late b.tim.ctLast, sampleAt := late b.tim.sampleAt
      gridLast := b.tim.gridLast.map (fun t => t + d), cycleAt := late b.tim.cycleAt } }

/-! ## Campus time (R180 to R182) -/

/-- Enters locked (R180, R182). -/
def Block.enterLocked (b : Block) (e : Env) : Block :=
  (b.modTim (fun t => { t with tstate := 2 })).timEvent e 1 0 [(28, 4, twos 32 b.tim.offset)]

/-- The PTP offset is within ±100 ns. -/
def TimeUnit.offsetOk (t : TimeUnit) : Bool := t.ptpOk && decide (t.offset.natAbs ≤ 100)

/-- Locks where R180 and R182 allow it. -/
def Block.tryLock (b : Block) (e : Env) : Block :=
  let t := b.tim
  if t.tstate = 1 && t.offsetOk && 16 ≤ t.ctGood then b.enterLocked e
  else if 3 ≤ t.tstate && t.offsetOk then b.enterLocked e
  else b

/-- Campus time `us` and fraction `frac` in units of 2^−16 µs. -/
def fixedTime (us frac : Nat) : Int := (us * 65536 + frac : Nat)

/-- Whether an accepted Sync steps the count (R182): in acquiring, once, forward. -/
def Block.syncSteps (b : Block) (c : Clock) (us frac : Nat) : Bool :=
  decide (b.tim.tstate ≤ 1) && !b.tim.stepped && decide (fixedTime c.now c.frac < fixedTime us frac)

/-- A Sync message is accepted (R180, R182). -/
def Block.doPtpSync (b : Block) (e : Env) (us frac : Nat) : Block :=
  let step := b.syncSteps e.clk us frac
  let off := (fixedTime e.clk.now e.clk.frac - fixedTime us frac) * 1000 / 65536
  let b := if step then b.shiftEvents (us - e.clk.now) else b
  (b.modTim (fun t => { t with
    tstate := max 1 t.tstate, ptpOk := true, offset := off, stepped := t.stepped || step })).tryLock e

/-- The campus time a CT_MS edge marks: in holdover on CT_MS alone the last edge plus 1,000, otherwise the next local
millisecond boundary after the last edge (R180, R181). -/
def TimeUnit.edgeAt (t : TimeUnit) (now : Nat) : Nat :=
  if 3 ≤ t.tstate && t.ctOk && !t.ptpOk then max now (t.ctLast + 1000)
  else
    let c := (now + 999) / 1000 * 1000
    if t.ctLast = c && c ≠ 0 then c + 1000 else c

/-- A CT_MS edge: `dev` ns from the local millisecond boundary, `dis` ns from PTP (R180, R182). -/
def Block.doCtMsEdge (b : Block) (e : Env) (dev dis : Int) : Block :=
  let t := b.tim
  let good := if dev.natAbs ≤ 50 then t.ctGood + 1 else 0
  let bad := if t.ptpOk && 1000 < dis.natAbs then t.ctBad + 1 else 0
  let b := b.setTim { t with ctGood := good, ctBad := bad, ctLast := e.clk.now, ctOk := t.ctOk || decide (16 ≤ good) }
  let b := if 4 ≤ bad && t.ctOk then
      (b.modTim (fun t => { t with ctOk := false, ctGood := 0, ctBad := 0 })).timEvent e 4 1 [(28, 4, twos 32 dis)]
    else b
  b.tryLock e

/-- A source is lost; `src` is what is left: 0 none, 1 CT_MS, 2 PTP (R180, R181). -/
def Block.doHoldover (b : Block) (e : Env) (src : Nat) : Block :=
  let enter := decide (b.tim.tstate = 2)
  let b := b.modTim (fun t => { t with
    ptpOk := t.ptpOk && decide (src = 2), ctOk := t.ctOk && decide (src = 1), ctGood := if src = 1 then t.ctGood else 0
    tstate := if enter then 3 else t.tstate, holdFrom := if enter then e.clk.now else t.holdFrom })
  if enter then b.timEvent e 2 1 [(28, 1, src)] else b

/-- When holdover next warns (R181). -/
def TimeUnit.holdDue (t : TimeUnit) : Option Nat :=
  if t.tstate = 3 then some (t.holdFrom + 1000000 * t.holdLimit)
  else if t.tstate = 4 then some (t.holdWarn + 1000000) else none

/-- Holdover outlasts HOLDOVER_LIMIT, or a further second of it ends (R181). -/
def Block.doHoldoverLimit (b : Block) (e : Env) : Block :=
  if b.tim.tstate = 3 || b.tim.tstate = 4 then
    (b.modTim (fun t => { t with tstate := 4, holdWarn := e.clk.now })).timEvent e 3 1
      [(28, 8, (e.clk.now - b.tim.holdFrom) / 1000)]
  else b

/-! ## Shares and operating points (R193, R200) -/

def Block.partPower (b : Block) (p : Nat) : PartPower := mget {} b.tim.parts p
def Block.setPartPower (b : Block) (p : Nat) (x : PartPower) : Block := b.modTim (fun t => { t with parts := mset {} t.parts p x })
def Block.platePower (b : Block) (p : Nat) : PlatePower := mget {} b.tim.plates p
def Block.setPlatePower (b : Block) (p : Nat) (x : PlatePower) : Block := b.modTim (fun t => { t with plates := mset {} t.plates p x })

/-- The weight of a partition: the register, or the profile's value where nothing has replaced it. -/
def Block.weight (b : Block) (p : Nat) : Nat :=
  let v := mget 0 b.tim.shares p
  if v = 0 then b.boot.profile.shares.getD p 1 else v

/-- The partitions that hold a job in STATE 1–5. -/
def Block.powered (b : Block) : List Nat := (List.range 8).filter (fun p => b.holdsJob p)

/-- One round of lending: the budget left over goes to those who need more, by weight. Entries are partition, weight,
budget, need. -/
def lend (l : List (Nat × Nat × Nat × Nat)) (spare : Nat) : List (Nat × Nat × Nat × Nat) × Nat :=
  let w := (l.map (fun x => if x.2.2.1 < x.2.2.2 then x.2.1 else 0)).sum
  let gain (x : Nat × Nat × Nat × Nat) : Nat :=
    if x.2.2.1 < x.2.2.2 then min (x.2.2.2 - x.2.2.1) (spare * x.2.1 / w) else 0
  (l.map (fun x => (x.1, x.2.1, x.2.2.1 + gain x, x.2.2.2)), spare - (l.map gain).sum)

def lendFuel : Nat → List (Nat × Nat × Nat × Nat) → Nat → List (Nat × Nat × Nat × Nat)
  | 0, l, _ => l
  | n + 1, l, spare =>
    let r := lend l spare
    lendFuel n r.1 r.2

/-- The budgets of R200: each partition that holds a job gets its share or its need, the rest is lent. -/
def Block.divide (b : Block) : List (Nat × Nat) :=
  let ps := b.powered
  let total := b.tim.limit - b.tim.pdev
  let w := (ps.map (fun p => b.weight p)).sum
  let first := ps.map (fun p =>
    (p, b.weight p, min (total * b.weight p / w) (b.partPower p).need, (b.partPower p).need))
  let spare := total - (first.map (fun x => x.2.2.1)).sum
  (lendFuel 8 first spare).map (fun x => (x.1, x.2.2.1))

/-- The smallest ratio, in sixty-fourths, at which a demand fits a budget; 63 where none does (R195). -/
def ratioFor (budget need : Nat) : Nat :=
  ((List.range 64).find? (fun n => decide ((64 - n) * need ≤ 64 * budget))).getD 63

/-- The highest operating point whose typical full-load power fits a budget (R194). -/
def targetFor (budget plates : Nat) : Nat :=
  (((List.range 18).filter (fun f => decide (Config.fullLoadPower f plates ≤ budget))).getLast?).getD 0

/-- The standby PLL of a plate (R358). -/
def Block.standby (b : Block) (p : Nat) : Nat := if (b.platePower p).pll then 2 * p else 2 * p + 1

def Block.setPll (b : Block) (n : Nat) (x : Pll) : Block := b.setClk { b.clk with plls := mset {} b.clk.plls n x }

/-- Retunes a partition's standby PLLs; they lock anew (R194). One already at the frequency keeps its lock. -/
def Block.retune (b : Block) (p fstep : Nat) : Block :=
  (b.platesOf p).foldl (fun b k =>
    let n := b.standby k
    let x := mget {} b.clk.plls n
    if x.mhz = fstepMhz fstep then b
    else b.setPll n { x with lock := false, ready := false, mhz := fstepMhz fstep }) b

/-- The operating point that a partition runs at. -/
def Block.partStep (b : Block) (p : Nat) : Nat := (b.platePower ((b.platesOf p).headD 0)).fstep

/-- Sets one swallow ratio on every plate of a partition; a pattern starts at count 0 (R195). -/
def Block.setSwallow (b : Block) (p n : Nat) : Block :=
  (b.platesOf p).foldl (fun b k =>
    let x := b.platePower k
    if x.swallow = n then b else b.setPlatePower k { x with swallow := n, cyc := 0 }) b

/-- The ratio that a partition's budget needs now. -/
def Block.ratioNow (b : Block) (p : Nat) : Nat := ratioFor (b.partPower p).budget (b.partPower p).need

/-- A partition whose budget calls for another operating point begins to move (R194, R197): downwards by retuning its
standby PLLs, upwards by its voltage first. -/
def Block.aim (b : Block) (p : Nat) : Block :=
  let x := b.partPower p
  let cur := b.partStep p
  let t := targetFor x.budget (b.platesOf p).length
  if t = cur then
    if x.busy && !x.switched then b.setPartPower p { x with target := t, busy := false, rising := false, retry := false }
    else b
  else if x.busy && x.target = t then b
  else
    let up := decide (cur < t)
    let b := b.setPartPower p { x with target := t, busy := true, rising := up, switched := false, retry := false }
    if up then b else b.retune p t

/-- The thermal-limit term (R422): TLIMIT, and 150 A times the 1 ms mean of VIN once it is measured. -/
def Block.ilimit (b : Block) : Nat := 150 * b.tim.vin / 100
def Block.thermalLimit (b : Block) : Nat :=
  if b.tim.vin = 0 then b.module.tlimit else min b.module.tlimit b.ilimit

/-- L and its source (R190): pins, directive, host, thermal. -/
def Block.leastLimit (b : Block) : Nat × Nat :=
  let t := b.tim
  let pin := t.levels.getD t.pinLevel 0
  let with1 (x : Nat × Nat) (w k : Nat) : Nat × Nat := if w < x.1 then (w, k) else x
  let x := (pin, 0)
  let x := if t.cap = 0 then x else with1 x t.cap 1
  let x := if t.hostCap = 0 then x else with1 x t.hostCap 2
  with1 x b.thermalLimit 3

/-- L falls: budgets and ratios are chosen and swallowing is due 12 ticks after `t0` (R194). Only partitions whose budget
has fallen change (R200). -/
def Block.limitDown (b : Block) (t0 : Nat) : Block :=
  let b := b.modTim (fun t => { t with curtail := some { t0 := t0, started := false, missed := false }, limitFell := true })
  b.divide.foldl (fun b x =>
    let y := b.partPower x.1
    let fell := decide (x.2 < y.budget)
    let b := b.setPartPower x.1 { y with
      budget := x.2, ratio := if fell then some (ratioFor x.2 y.need) else y.ratio }
    if fell then b.aim x.1 else b) b

/-- L rises: switches not yet made are cancelled, and the partitions aim higher (R194, R197). -/
def Block.limitUp (b : Block) : Block :=
  let b := b.modTim (fun t => { t with curtail := none })
  b.divide.foldl (fun b x =>
    let y := b.partPower x.1
    let b := b.setPartPower x.1 { y with
      budget := x.2, ratio := none, busy := y.busy && (y.switched || y.rising), retry := false }
    let b := b.setClk { b.clk with switches := mset none b.clk.switches x.1 none }
    b.aim x.1) b

/-- Recomputes L; `t0` is the tick at which its cause changed. -/
def Block.relimit (b : Block) (t0 : Nat) : Block :=
  let old := b.tim.limit
  let x := b.leastLimit
  let b := b.modTim (fun t => { t with limit := x.1, source := x.2 })
  if x.1 < old then b.limitDown t0 else if old < x.1 then b.limitUp else b

/-- PWR_LIMIT has shown a level in three equal samples (R194). The pins changed 4 ticks ago. -/
def Block.doLevelChange (b : Block) (e : Env) (level : Nat) : Block :=
  let old := b.tim.pinLevel
  if level = old then b
  else
    let t0 := e.clk.now - 4
    let b := (b.modTim (fun t => { t with pinLevel := level })).relimit t0
    b.timEvent e 7 0 [(28, 1, old), (29, 1, level), (32, 8, t0)]

/-- The tick S at which swallowing is due. -/
def TimeUnit.swallowDue (t : TimeUnit) : Option Nat :=
  t.curtail.bind (fun c => if c.started then none else some (c.t0 + 12))

/-- Swallowing starts on every plate of each partition at S (R194, R195). -/
def Block.doSwallowStart (b : Block) : Block :=
  match b.tim.curtail with
  | some c =>
    if c.started then b
    else
      let b := b.modTim (fun t => { t with curtail := some { c with started := true } })
      (List.range 8).foldl (fun b p =>
        let x := b.partPower p
        match x.ratio with
        | some n => (b.setPartPower p { x with ratio := none }).setSwallow p n
        | none => b) b
  | none => b

/-- Whether every standby PLL of a partition is READY at the frequency of an operating point. -/
def Block.standbyReady (b : Block) (p fstep : Nat) : Bool :=
  (b.platesOf p).all (fun k =>
    let x := mget ({} : Pll) b.clk.plls (b.standby k)
    x.ready && decide (x.mhz = fstepMhz fstep))

/-- The default programmed frequency of a PLL (R358). -/
def pllMhz (n : Nat) : Nat := if n < 16 then 400 else if n < 24 then 4000 else if n = 24 || n = 26 then 2000 else 3125

/-- A PLL raises LOCK and, 20 µs later, READY (R362). The controller's switch is then due at the next tick (R194). -/
def Block.doPllLock (b : Block) (e : Env) (n : Nat) : Block :=
  let x := mget {} b.clk.plls n
  let b := b.setPll n { x with lock := true, ready := true, mhz := if x.mhz = 0 then pllMhz n else x.mhz }
  if n < 16 then
    let p := b.partOfPlate (n / 2)
    let y := b.partPower p
    if p < 8 && y.busy && !y.switched && !y.retry && b.standbyReady p y.target && (mget none b.clk.switches p).isNone then
      let run : SwitchRun := { fstep := y.target, tick := e.clk.now + 1, pf0 := false }
      b.setClk { b.clk with switches := mset none b.clk.switches p (some run) }
    else b
  else b

/-- Why a partition's plates cannot switch now (R362). -/
def Block.switchFault (b : Block) (p fstep : Nat) : Option Nat :=
  if (b.platesOf p).any (fun k => decide ((b.dom (6 * k + 5)).state ≠ 0)) then some 3
  else if !b.standbyReady p fstep then some 1 else none

/-- DVFS has settled (R194). -/
def Block.settled (b : Block) (e : Env) (p : Nat) : Block :=
  let b := b.setPartPower p { b.partPower p with busy := false, rising := false, switched := false, retry := false }
  let k := (b.platesOf p).headD 0
  b.timEvent e 8 0 [(28, 1, p), (29, 1, (b.platePower k).fstep), (30, 1, (b.platePower k).swallow)]

/-- Records a refused switch (R362). -/
def Block.refuseSwitch (b : Block) (e : Env) (p code : Nat) : Block :=
  let b := b.setClk { b.clk with switchPart := p, switchRes := code }
  (b.bumpClk 0x228 1).clkEvent e 7 1 15 0xFF 0 0xFFFF [(28, 1, code), (29, 1, p)]

/-- Every plate of a partition takes its standby PLL (R196). -/
def Block.flipPlls (b : Block) (p fstep : Nat) : Block :=
  (b.platesOf p).foldl (fun b k =>
    let x := b.platePower k
    let old := if x.pll then 2 * k + 1 else 2 * k
    let new := b.standby k
    let b := b.setPll old { mget {} b.clk.plls old with active := false }
    let b := b.setPll new { mget {} b.clk.plls new with active := true }
    b.setPlatePower k { x with pll := !x.pll, fstep := fstep, cyc := 0 }) b

/-- A switch at a campus tick; `need` is the partition's demand at the new clock. A refused switch keeps the PLLs, raises
the swallow ratio as far as the budget needs and is tried again at the next millisecond (R196). -/
def Block.doPllSwitch (b : Block) (e : Env) (p need : Nat) : Block :=
  let y := b.partPower p
  let run := mget none b.clk.switches p
  if run.isNone && !(y.busy && !y.switched) then b
  else
    let pf0 := match run with | some r => r.pf0 | none => false
    let fstep := match run with | some r => r.fstep | none => y.target
    let b := b.setClk { b.clk with switches := mset none b.clk.switches p none }
    match b.switchFault p fstep with
    | some c =>
      let b := b.refuseSwitch e p c
      if pf0 then b
      else
        let n := (b.platePower ((b.platesOf p).headD 0)).swallow
        (b.setSwallow p (max n (b.ratioNow p))).setPartPower p { y with retry := true }
    | none =>
      let b := b.setClk { b.clk with switchPart := p, switchRes := 0 }
      let b := b.flipPlls p fstep
      let b := b.setPartPower p { y with need := need, switched := true, retry := false }
      let b := if pf0 then b else b.setSwallow p (b.ratioNow p)
      if y.rising then b.settled e p else b

/-- Another try of a refused switch (R196). -/
def Block.doPllSwitchRetry (b : Block) (e : Env) (p need : Nat) : Block :=
  if (b.partPower p).retry then b.doPllSwitch e p need else b

/-- The core voltage of an operating point (R193). -/
def Block.voltOf (b : Block) (fstep : Nat) : Nat := b.boot.profile.volts.getD fstep 0

/-- One step of at most 5 mV. -/
def stepVolt (v target : Nat) : Nat := if v < target then min target (v + 5) else max target (v - 5)

/-- A millisecond's voltage step (R194): downwards after the switch, upwards before it. At the target voltage a rise
retunes its standby PLLs and a fall has settled. -/
def Block.doVoltageStep (b : Block) (e : Env) (p need : Nat) : Block :=
  let y := b.partPower p
  if !y.busy || y.rising = y.switched then b
  else
    let t := b.voltOf y.target
    let b := (b.platesOf p).foldl (fun b k =>
      let x := b.platePower k
      b.setPlatePower k { x with volt := stepVolt x.volt t }) b
    let b := b.setPartPower p { y with need := need }
    let b := if y.rising then b else b.setSwallow p (b.ratioNow p)
    if (b.platesOf p).all (fun k => decide ((b.platePower k).volt = t)) then
      if y.rising then b.retune p y.target else b.settled e p
    else b

/-- When the 1,000-tick bound ends (R194). -/
def TimeUnit.missDue (t : TimeUnit) : Option Nat := t.curtail.bind (fun c => if c.missed then none else some (c.t0 + 1000))

/-- The bound passes with the 100 µs mean not below L: 63/64 until it is met (R194). -/
def Block.doCurtailMiss (b : Block) (e : Env) : Block :=
  match b.tim.curtail with
  | some c =>
    if c.missed || b.tim.mean100 < b.tim.limit then b
    else
      let b := b.modTim (fun t => { t with curtail := some { c with missed := true } })
      let b := b.powered.foldl (fun (b : Block) p => b.setSwallow p 63) b
      b.timEvent e 9 3 [(32, 8, c.t0)]
  | none => b

/-! ## Measurement (R188, R191, R192) -/

/-- The next multiple of `period` that is not before `now` and after `last`. -/
def nextSlot (period last now : Nat) : Nat :=
  let c := (now + period - 1) / period * period
  if last = c && c ≠ 0 then c + period else c

/-- A 10 µs sample, in 10 mV and 10 mA (R188). -/
def Block.doPowerSample (b : Block) (e : Env) (v i : Nat) : Block :=
  let b := b.modTim (fun t => { t with
    samples := ((v, i) :: t.samples).take 100, sampleAt := e.clk.now
    cycSum := t.cycSum + wattsOf (v, i), cycN := t.cycN + 1 })
  let b := match b.tim.curtail with
    | some c =>
      if c.started && b.tim.mean100 < b.tim.limit then
        let b := b.modTim (fun t => { t with curtail := none })
        if c.missed then b.powered.foldl (fun (b : Block) p => b.setSwallow p (b.ratioNow p)) b else b
      else b
    | none => b
  b.relimit e.clk.now

/-- The estimates scaled to the measured input (R188). -/
def scaled (est : List Nat) (w p : Nat) : Nat :=
  if est.sum = 0 then Config.unscalable p w else est.getD p 0 * w / est.sum

/-- Every millisecond: plate estimates `est`, and `shares`, what each partition causes in memory and link power (R188). -/
def Block.doEstimateScale (b : Block) (est shares : List Nat) : Block :=
  let w := b.tim.msW
  let part (i : Nat) : Nat := ((b.platesOf i).map (fun p => scaled est w p)).sum + shares.getD i 0
  b.modTim (fun t => { t with
    ppwr := (List.range 8).foldl (fun m i => mset 0 m i (part i)) t.ppwr
    msMeans := (w :: t.msMeans).take 1000 })

/-- Every 10 µs: the budget is divided (R200). `pdev` is the power that no partition causes, `needs` each partition's
demand at its present clock. -/
def Block.doBudgetDivision (b : Block) (pdev : Nat) (needs : List Nat) : Block :=
  let b := b.modTim (fun t => { t with pdev := pdev })
  let b := (List.range 8).foldl (fun b p => b.setPartPower p { b.partPower p with need := needs.getD p 0 }) b
  b.divide.foldl (fun b x =>
    let b := (b.setPartPower x.1 { b.partPower x.1 with budget := x.2 }).aim x.1
    let n := (b.platePower ((b.platesOf x.1).headD 0)).swallow
    if (b.partPower x.1).ratio.isSome then b else b.setSwallow x.1 (max n (b.ratioNow x.1))) b

/-- The effective floor (R192). -/
def TimeUnit.effFloor (t : TimeUnit) : Nat := min t.floorNow (t.limit - 200)

/-- Whether the floor applies (R192): Active, with no other state asked for, and a job in STATE 1–5. -/
def Block.floorApplies (b : Block) : Bool := decide (b.clk.pstate = 0) && b.clk.moving.isNone && !b.powered.isEmpty

/-- Moves the floor by one mains cycle (R192). -/
def Block.moveFloor (b : Block) : Block :=
  let t := b.tim
  let goal := if b.floorApplies then t.floor else 0
  let next := if goal < t.floorNow then max goal (t.floorNow - t.slew)
    else if t.floorClimb then min goal (t.floorNow + t.slew) else goal
  b.setTim { t with floorNow := next, floorClimb := t.floorClimb && decide (next ≠ goal) }

/-- The lowering of the swallow ratios that SLEW allows in one mains cycle (R191, R194). -/
def Block.easeSwallow (b : Block) : Block :=
  if b.tim.curtail.isSome then b
  else b.powered.foldl (fun (b : Block) p =>
    let n := (b.platePower ((b.platesOf p).headD 0)).swallow
    let down := 64 * b.tim.slew / max 1 (b.partPower p).need
    b.setSwallow p (max (b.ratioNow p) (n - down))) b

/-- A mains cycle ends (R186, R187, R191, R192): the mean is taken, misses are counted, the floor and the ratios move.
A cycle without a sample has no mean and is not judged. -/
def Block.endCycle (b : Block) (e : Env) : Block :=
  let t := b.tim
  let b :=
    if t.cycN = 0 then b
    else
      let m := t.cycSum / t.cycN
      let b := b.setTim { t with cycW := m, cycSum := 0, cycN := 0, limitFell := false }
      let b := if m + t.slew < t.cycW && !t.limitFell then
          (b.bumpTim 0x100 1).timEvent e 0xA 1 [(28, 2, twos 16 ((m : Int) - t.cycW))]
        else b
      if m < t.effFloor then (b.bumpTim 0x108 1).timRare e 1000000 0xB 1 [(28, 2, t.effFloor)] else b
  ((b.modTim (fun t => { t with cycleAt := e.clk.now })).moveFloor).easeSwallow

/-- The mean of the last accepted periods (R186). -/
def TimeUnit.period (t : TimeUnit) : Nat := mean t.periods

/-- The grid-phase angle at a time (R186). -/
def TimeUnit.angle (t : TimeUnit) (now : Nat) : Nat :=
  match t.gridLast with
  | some a => if t.period = 0 then 0 else min 65535 ((now - a) * 65536 / t.period)
  | none => 0

/-- The nominal mains period of the profile in µs. -/
def Block.nominalPeriod (b : Block) : Nat := if b.boot.profile.mains60 then 16667 else 20000

/-- A rising edge of GRID_SYNC (R186): accepted 14.0 to 24.0 ms after the last accepted edge, as the first after a loss. -/
def Block.doGridSyncEdge (b : Block) (e : Env) : Block :=
  let t := b.tim
  let now := e.clk.now
  let gap := match t.gridLast with | some a => some (now - a) | none => none
  match gap with
  | none => b.setTim { t with gridLast := some now, gridRun := 1, periods := [] }
  | some g =>
    if g < 14000 || 24000 < g then (b.setTim { t with gridRun := 0 }).bumpTim 0x130 1
    else
      let run := t.gridRun + 1
      let b := b.setTim { t with gridLast := some now, gridRun := run, periods := (g :: t.periods).take 8 }
      if t.grid then b.endCycle e
      else if 8 ≤ run then
        let b := b.modTim (fun t => { t with grid := true })
        b.timEvent e 6 0 [(28, 2, b.tim.period)]
      else b

/-- When the grid counts as lost (R187). -/
def Block.gridLostDue (b : Block) : Option Nat := b.tim.gridLast.map (fun a => a + 3 * b.nominalPeriod)

/-- No edge for three nominal periods (R187). -/
def Block.doGridLost (b : Block) (e : Env) : Block :=
  let was := b.tim.grid
  let b := b.modTim (fun t => { t with grid := false, gridLast := none, gridRun := 0, cycleAt := e.clk.now })
  if was then b.timEvent e 5 1 [] else b

/-- A generated mains cycle ends (R187); none is generated while the grid is valid. -/
def Block.doGeneratedCycle (b : Block) (e : Env) : Block := if b.tim.grid then b else b.endCycle e

/-! ## Flat-field work (R201) -/

/-- The plates that hold no job, or one that is stopped or rewinding. -/
def Block.freePlates (b : Block) : List Nat :=
  (List.range 8).filter (fun p =>
    let q := b.partOfPlate p
    let s := (b.gen q).regs.state
    decide (8 ≤ q) || s = 0 || s = 5 || s = 6)

/-- Offers flat-field work when the projected draw falls below the floor or too far below the last cycle's mean, and
stops offering when it does not (R201). -/
def Block.doFlatFieldOffer (b : Block) (proj : Nat) : Block :=
  let t := b.tim
  let want := decide (proj < t.effFloor) || decide (proj + t.slew < t.cycW)
  let b := b.setTim { t with offering := want, free := if want then b.freePlates else [] }
  { b with plates := { b.plates with images := b.plates.images.map (fun i =>
      (i.1, { i.2 with regions := i.2.regions.map (fun r => (r.1, { r.2 with flatField := want && r.2.window.isSome })) })) } }

/-! ## Directives and host settings (R198, R199) -/

/-- Whether TARGET matches this device. -/
def Block.targets (b : Block) (t : Nat) : Bool :=
  bits t 13 10 = 0 &&
    (match bits t 15 14 with
     | 0 => true
     | 1 => decide (bits t 9 0 = b.topo.self)
     | 2 => decide (b.boot.profile.group = some (bits t 9 0))
     | _ => false)

/-- Why a message is not accepted, as the reason of R204; the payload is judged by its TYPE. -/
def Block.directiveFault (b : Block) (e : Env) (m : PowerMsg) (type : Nat) (vals : List Nat) : Option Nat :=
  let v := vals.headD 0
  if m.magic ≠ 0x44475044 || m.ver ≠ 1 || !m.spare || 4 ≤ m.key || type = 0x81 then some 3
  else if !m.mac then some 0
  else if m.seq + 1 ≤ mget 0 b.tim.seqs m.key then some 1
  else if b.tim.tstate < 2 || e.clk.now + 1000000 < m.issue || m.issue + 1000000 < e.clk.now then some 2
  else if !b.targets m.target then some 4
  else if type = 2 && vals.any (fun w => w = 0) then some 3
  else if type = 3 && (v < 50 || 6900 < v) then some 3
  else none

/-- Puts a setting in force (R198, R199): `t0` is when it applies. -/
def Block.applySetting (b : Block) (type : Nat) (vals : List Nat) (t0 : Nat) : Block :=
  let v := vals.headD 0
  match type with
  | 1 => (b.modTim (fun t => { t with cap := if v = 0 then 0 else max v (t.levels.headD 0) })).relimit t0
  | 2 => b.modTim (fun t => { t with
      shares := (vals.zip (List.range 8)).foldl (fun m x => mset 0 m x.2 x.1) [] })
  | 3 => b.modTim (fun t => { t with slew := v })
  | 4 => b.modTim (fun t => { t with floor := min v 6900 })
  | _ => b

/-- A setting takes effect: it replaces the one in force and the time at which that one lapses. -/
def Block.startSetting (b : Block) (e : Env) (s : Setting) : Block :=
  let b := b.applySetting s.type s.vals e.clk.now
  let b := b.modTim (fun t => { t with
    lapses := (t.lapses.filter (fun x => x.type ≠ s.type)) ++ (if s.expire = 0 then [] else [s]) })
  b.timEvent e 0xC 0 [(28, 1, s.type), (32, 4, s.seq)]

/-- The 40 payload bytes of a REPORT (R198). -/
def Block.reportBytes (b : Block) : List Byte :=
  let t := b.tim
  let busy := t.parts.any (fun p => p.2.busy)
  padTo 40 (leBytes 2 t.limit ++ leBytes 1 t.source ++ leBytes 1 t.pinLevel ++ leBytes 2 t.msW ++ leBytes 2 t.cycW
    ++ (List.range 8).flatMap (fun i => leBytes 2 (mget 0 t.ppwr i)) ++ leBytes 1 t.tstate
    ++ leBytes 1 (b2n t.grid + 2 * b2n busy))

/-- A directive arrives (R198, R199). -/
def Block.doDirective (b : Block) (e : Env) (type : Nat) (m : PowerMsg) (vals : List Nat) : Block :=
  match b.directiveFault e m type vals with
  | some r => (b.bumpTim 0x120 1).timRare e 1000 0xD 1 [(28, 1, r), (32, 4, m.seq)]
  | none =>
    let b := (b.modTim (fun t => { t with seqs := mset 0 t.seqs m.key (m.seq + 1) })).bumpTim 0x118 1
    let s : Setting := { type := type, vals := vals, seq := m.seq, effect := m.effect, expire := m.expire }
    if type = 5 then b.emit (.report m.key b.reportBytes)
    else if m.effect = 0 || m.effect ≤ e.clk.now then b.startSetting e s
    else b.modTim (fun t => { t with waiting := t.waiting ++ [s] })

/-- The setting of a list that comes first by a key. -/
def firstBy (key : Setting → Nat) : List Setting → Option Setting
  | [] => none
  | x :: xs =>
    match firstBy key xs with
    | some y => if key y < key x then some y else some x
    | none => some x

def TimeUnit.effectDue (t : TimeUnit) : Option Nat := (firstBy Setting.effect t.waiting).map Setting.effect
def TimeUnit.expireDue (t : TimeUnit) : Option Nat := (firstBy Setting.expire t.lapses).map Setting.expire

/-- The next directive takes effect (R199). -/
def Block.doDirectiveEffect (b : Block) (e : Env) : Block :=
  match firstBy Setting.effect b.tim.waiting with
  | some s => (b.modTim (fun t => { t with waiting := t.waiting.erase s })).startSetting e s
  | none => b

/-- The next setting lapses (R199): no cap, or the profile's value. -/
def Block.doDirectiveExpire (b : Block) (e : Env) : Block :=
  match firstBy Setting.expire b.tim.lapses with
  | some s =>
    let b := b.modTim (fun t => { t with lapses := t.lapses.erase s })
    let f := b.boot.profile
    match s.type with
    | 1 => b.applySetting 1 [0] e.clk.now
    | 2 => b.modTim (fun t => { t with shares := [] })
    | 3 => b.modTim (fun t => { t with slew := f.slew })
    | _ => b.modTim (fun t => { t with floor := f.floor })
  | none => b

/-- A write of TIM_HOST_CAP (R199, R203): 0, or the nearest value from level 0 to 6,900 W. -/
def Block.doTimHostCap (b : Block) (e : Env) (w : Nat) : Block :=
  (b.modTim (fun t => { t with
    hostCap := if w % 65536 = 0 then 0 else min 6900 (max (w % 65536) (t.levels.headD 0)) })).relimit e.clk.now

/-- A write of TIM_FLOOR (R192, R203). -/
def Block.doTimFloor (b : Block) (w : Nat) : Block := b.modTim (fun t => { t with floor := min (w % 65536) 6900 })

end Sys2Proof.Machine
end

