-- ==== Sys2Proof/Machine/Profile.lean ====
section
/-! DEFINITION. Signature blocks and profiles (R342 to R348). -/
namespace Sys2Proof.Machine

/-! ## Signature blocks (R342, R343) -/

/-- The 512 B block at the end of an image. -/
structure SigBlock where
  key : Nat
  svn : Nat
  commit : Bool
  len : Nat
  ver : Nat
  pub : List Byte
  sig : List Byte
  head : List Byte
deriving DecidableEq, Repr

/-- The block of an image that is `n` bytes long before it, when its MAGIC and IMAGE_LEN are right. -/
def sigBlock (bs : List Byte) (n : Nat) : Option SigBlock :=
  let k := (bs.drop n).take 512
  if bs.length < n + 512 || leAt k 0 4 ≠ 0x53474E31 || leAt k 8 4 ≠ n || leAt k 5 1 > 63 || leAt k 6 1 > 1 || leAt k 7 1 ≠ 0 then
    none
  else some { key := leAt k 4 1, svn := leAt k 5 1, commit := decide (leAt k 6 1 = 1), len := n, ver := leAt k 12 4
              pub := (k.drop 16).take 96, sig := (k.drop 112).take 96, head := k.take 112 }

/-- The fuse hash of a key slot; none where the slot is blank. -/
def Flash.keyHash (f : Flash) (k : Nat) : Option (List Byte) :=
  if !bit f.programmed k || 4 ≤ k then none
  else if k < 2 then some (Config.vendorKeyHash k) else some (mget [] f.owners k)

/-- Whether a block signs the image before it under a slot that is neither blank nor revoked (R342). -/
def Flash.signs (f : Flash) (image : List Byte) (k : SigBlock) : Bool :=
  match f.keyHash k.key with
  | none => false
  | some h => !bit f.revoked k.key && decide (Config.sha384 k.pub = h)
      && Config.ecdsaValid k.pub (Config.sha384 (image ++ k.head)) k.sig

/-- Both owner slots are blank: unsigned profiles are accepted (R343). -/
def Flash.isOpen (f : Flash) : Bool := bits f.programmed 3 2 = 0

/-! ## Records (R346, R347) -/

/-- The bytes of one record of a type: its payload. -/
structure Record where
  type : Nat
  payload : List Byte
deriving DecidableEq, Repr

/-- Splits a record area: the records before the end record, or the type of the first that is malformed. -/
def splitRecords : Nat → List Byte → Except Nat (List Record)
  | 0, _ => .error 0xFFFF
  | f + 1, bs =>
    let ty := leAt bs 0 2
    let n := leAt bs 2 2
    let w := (4 + n + 3) / 4 * 4
    let bad := decide (bs.length < w + 4) || decide (leAt bs w 4 ≠ crc32c (bs.take w))
      || ((bs.take w).drop (4 + n)).any (fun x => x ≠ 0)
    if bad then .error ty
    else if ty = 0 then (if n = 0 && bs.length = w + 4 then .ok [] else .error 0)
    else (splitRecords f (bs.drop (w + 4))).map (fun rs => { type := ty, payload := (bs.drop 4).take n } :: rs)

/-- LENGTH of a known type. -/
def recordLen : Nat → Option Nat
  | 1 => some 2056 | 2 => some 8 | 3 => some 8 | 4 => some 1 | 5 => some 8 | 6 => some 16 | 7 => some 8 | 8 => some 36
  | 9 => some 8 | 10 => some 8 | 11 => some 16 | 12 => some 36 | 13 => some 2 | 14 => some 16 | 15 => some 1
  | _ => none

def inRange (lo hi v : Nat) : Bool := decide (lo ≤ v) && decide (v ≤ hi)

/-- The coordinate codes of a TOPOLOGY payload. -/
def topoCoords (p : List Byte) : SMap Nat :=
  (List.range 1024).foldl (fun m i =>
    let v := leAt p (8 + 2 * i) 2
    if bit v 15 then mset 0 m i (coordCode (bits v 9 6) (bits v 5 3) (bits v 2 0)) else m) []

/-- Whether a partition layout, eight FE_PARTi bytes with bit 3 as VALID, keeps R303. -/
def partsOk (l : List Nat) : Bool :=
  let span (v : Nat) : List Nat := if bit v 3 then (List.range (2 ^ (v % 4))).map (· + v / 16) else []
  l.all (fun v => decide (v / 16 % 2 ^ (v % 4) = 0) && decide (v / 16 + 2 ^ (v % 4) ≤ 8) || !bit v 3) &&
    decide ((l.flatMap span).eraseDups.length = (l.flatMap span).length) && l.all (fun v => !bit v 2)

/-- Whether a payload of the right length holds only permitted values (R347). -/
def Record.ok (r : Record) : Bool :=
  let p := r.payload
  let u16s (n : Nat) : List Nat := (List.range n).map (fun i => leAt p (2 * i) 2)
  match r.type with
  | 1 =>
    let sx := leAt p 2 1
    let sy := leAt p 3 1
    let sz := leAt p 4 1
    let m := topoCoords p
    let codes := m.map Prod.snd
    inRange 1 16 sx && inRange 1 8 sy && inRange 1 8 sz && decide (leAt p 5 3 = 0) && decide (mget 0 m (leAt p 0 2) ≠ 0)
      && decide (codes.eraseDups.length = codes.length)
      && codes.all (fun c => decide ((c - 1) % 16 < sx) && decide ((c - 1) / 16 % 8 < sy) && decide ((c - 1) / 128 < sz))
      && (List.range 1024).all (fun i => decide (bits (leAt p (8 + 2 * i) 2) 14 10 = 0))
  | 4 => inRange 0 1 (leAt p 0 1)
  | 5 => inRange 8 64 (leAt p 0 1) && inRange 16 64 (leAt p 1 1) && inRange 24 1024 (leAt p 2 2) && inRange 1 168 (leAt p 4 1)
      && inRange 1 65535 (leAt p 5 2) && decide (leAt p 7 1 = 0)
  | 6 => (u16s 8).all (fun v => decide (v ≤ 6900)) && ((u16s 8).zip ((u16s 8).drop 1)).all (fun x => decide (x.1 < x.2))
  | 7 => inRange 50 6900 (leAt p 0 2) && inRange 0 6900 (leAt p 2 2) && inRange 1 3600 (leAt p 4 2)
      && (leAt p 6 1 = 50 || leAt p 6 1 = 60) && decide (leAt p 7 1 = 0)
  | 9 => (List.range 8).all (fun i => decide (leAt p i 1 ≠ 0))
  | 10 => partsOk ((List.range 8).map (fun i => leAt p i 1))
  | 11 => inRange 0 32 (leAt p 4 1) && inRange 0 127 (leAt p 5 1) && inRange 0 1 (leAt p 6 1) && decide (leAt p 7 1 = 0)
      && inRange 0 4094 (leAt p 14 2)
  | 12 => inRange 0 3 (leAt p 0 1) && decide (leAt p 1 3 = 0)
  | 13 => inRange 0 1023 (leAt p 0 2)
  | 14 => decide (bits (leAt p 0 5) 39 36 = 0) && inRange 1 255 (leAt p 5 1) && inRange 1 255 (leAt p 6 1)
      && decide (leAt p 7 1 = 0) && inRange 1 10000 (leAt p 10 2) && inRange 1 (2 ^ 32 - 1) (leAt p 12 4)
  | 15 => inRange 0 127 (leAt p 0 1)
  | _ => true

/-- What a record sets. -/
def Profile.take (f : Profile) (r : Record) : Profile :=
  let p := r.payload
  match r.type with
  | 1 => { f with myId := leAt p 0 2, sx := leAt p 2 1, sy := leAt p 3 1, sz := leAt p 4 1, coords := topoCoords p }
  | 2 => { f with epoch := leAt p 0 8 }
  | 3 => { f with hashKey := leAt p 0 8 }
  | 4 => { f with memMode := leAt p 0 1 }
  | 5 => { f with actMax := leAt p 0 1, raaimt := leAt p 1 1, skewLimit := leAt p 2 2, scrubPeriod := leAt p 4 1
                  laneLimit := leAt p 5 2 }
  | 6 => { f with levels := (List.range 8).map (fun i => leAt p (2 * i) 2) }
  | 7 => { f with slew := leAt p 0 2, floor := leAt p 2 2, hold := leAt p 4 2, mains60 := decide (leAt p 6 1 = 60) }
  | 8 => { f with volts := (List.range 18).map (fun i => leAt p (2 * i) 2) }
  | 9 => { f with shares := (List.range 8).map (fun i => leAt p i 1) }
  | 10 => { f with parts := (List.range 8).map (fun i => leAt p i 1) }
  | 11 => { f with ip := leAt p 0 4, subnet := leAt p 4 1, ptpDomain := leAt p 5 1, ptpUdp := decide (leAt p 6 1 = 1)
                   gateway := leAt p 8 4, port := leAt p 12 2, vlan := leAt p 14 2 }
  | 12 => { f with keys := mset none f.keys (leAt p 0 1) (some ((p.drop 4).take 32)) }
  | 13 => { f with group := some (leAt p 0 2) }
  | 14 => { f with portEnable := leAt p 0 5, wCol := leAt p 5 1, wPipe := leAt p 6 1, upHold := leAt p 8 2
                   peerHold := leAt p 10 2, clLaneLimit := leAt p 12 4 }
  | 15 => { f with smbus := leAt p 0 1 }
  | _ => f

/-- What makes two records duplicates (R347). -/
def Record.slot (r : Record) : Nat := if r.type = 12 then 65536 + leAt r.payload 0 1 else r.type

/-- The type of the first record that fails: critical reserved, wrong length or value, or a duplicate. -/
def badRecord : List Nat → List Record → Option Nat
  | _, [] => none
  | seen, r :: rs =>
    if 0x8000 ≤ r.type then some r.type
    else match recordLen r.type with
      | none => badRecord seen rs
      | some n =>
        if r.payload.length ≠ n || !r.ok || seen.contains r.slot then some r.type else badRecord (r.slot :: seen) rs

/-- The profile that a record area gives, with the types skipped, or the first failing TYPE (R347, R348). -/
def readRecords (bs : List Byte) : Except Nat (Profile × List Nat) :=
  match splitRecords (bs.length / 8 + 1) bs with
  | .error t => .error t
  | .ok rs =>
    match badRecord [] rs with
    | some t => .error t
    | none =>
      match [1, 2, 3].find? (fun t => !rs.any (fun r => decide (r.type = t))) with
      | some t => .error t
      | none =>
        .ok (rs.foldl Profile.take {}, (rs.filter (fun r => (recordLen r.type).isNone)).map (fun r => r.type))

/-! ## Halves (R345, R348) -/

/-- How a half reads: missing, corrupt with its failing TYPE, unsigned, or valid. -/
inductive HalfRead where
  | missing
  | corrupt (type : Nat)
  | unsigned
  | valid (profile : Profile) (skipped : List Nat)
deriving DecidableEq, Repr

/-- A name of ASCII bytes padded with 0. -/
def nameOk : List Byte → Bool
  | [] => true
  | x :: xs => if x = 0 then xs.all (· = 0) else decide (x.toNat < 128) && nameOk xs

/-- Whether the 64 B profile header is well formed for its bytes. -/
def halfHeader (bs : List Byte) : Bool :=
  decide (64 ≤ bs.length) && decide (leAt bs 0 4 = 0x50524631) && decide (leAt bs 4 1 < 4)
    && decide (64 + leAt bs 12 4 + 512 ≤ bs.length) && nameOk ((bs.drop 32).take 32)

def halfSeq (bs : List Byte) : Nat := leAt bs 8 4

/-- Reads a half of profile `n`. -/
def Flash.readHalf (f : Flash) (n : Nat) (bs : List Byte) : HalfRead :=
  if !halfHeader bs then .missing
  else
    let len := 64 + leAt bs 12 4
    if leAt bs 4 1 ≠ n then .corrupt 0xFFFF
    else
      match sigBlock bs len with
      | none => .corrupt 0xFFFF
      | some k =>
        let signed := if k.key = 0xFF then f.isOpen else (k.key = 2 || k.key = 3) && f.signs (bs.take len) k
        if !signed then .unsigned
        else
          match readRecords ((bs.take len).drop 64) with
          | .error t => .corrupt t
          | .ok (p, skipped) => .valid p skipped

/-- The half that rules a profile slot: the valid one with the higher SEQ, otherwise the better reading. The number is the
half. -/
def Flash.readProfile (f : Flash) (bad : Nat → Bool) (n : Nat) : HalfRead × Nat :=
  let bs (h : Nat) : List Byte := if bad (2 * n + h) then [] else mget [] f.halves (2 * n + h)
  let a := f.readHalf n (bs 0)
  let b := f.readHalf n (bs 1)
  let later := decide (halfSeq (bs 0) < halfSeq (bs 1))
  match a, b with
  | .valid .., .valid .. => if later then (b, 1) else (a, 0)
  | .valid .., _ => (a, 0)
  | _, .valid .. => (b, 1)
  | .missing, _ => (b, 2)
  | _, .missing => (a, 2)
  | _, _ => if later then (b, 2) else (a, 2)

/-- The code of CFG_PSTATUS [1:0] and the failing TYPE of CFG_FAILn. -/
def HalfRead.code : HalfRead → Nat × Nat
  | .valid .. => (0, 0)
  | .missing => (1, 0xFFFF)
  | .corrupt t => (2, t)
  | .unsigned => (3, 0xFFFF)

/-- The safe configuration (R348). -/
def Profile.safe : Profile := { hashKey := Config.safeHashKey, portEnable := 0 }

end Sys2Proof.Machine
end

