-- ==== Sys2Proof/Machine/Setup.lean ====
section
/-! DEFINITION. What a profile loads into the registers (R347, R350). -/
namespace Sys2Proof.Machine

/-- A class-8 record of the management core (R357). -/
def Block.bootEvent (b : Block) (e : Env) (code sev profile : Nat) (more : List (Nat × Nat × Nat)) : Block :=
  b.post e { cls := 8, sev := sev, code := code, part := 15, source := 0x1E, payload := (24, 1, profile) :: more }

/-- The TIM block as a profile loads it (R203). -/
def TimeUnit.ofProfile (f : Profile) : TimeUnit where
  tstate := 1
  holdLimit := f.hold
  levels := f.levels
  limit := f.levels.headD 0
  slew := f.slew
  floor := f.floor

/-- The topology of a profile. -/
def Profile.topology (f : Profile) : Topology := { self := f.myId, sx := f.sx, sy := f.sy, sz := f.sz, coords := f.coords }

/-- FE_PARTi from a PARTITIONS byte (R347). -/
def partOfByte (v : Nat) : Part := { valid := bit v 3, first := v / 16, size := v % 4 }

/-- The registers of the R records (R347). -/
def Block.loadProfile (b : Block) (f : Profile) : Block :=
  { b with
    topo := f.topology
    mem := { b.mem with actMax := f.actMax, raaimt := f.raaimt, skewLimit := f.skewLimit, scrubPeriod := f.scrubPeriod
                        laneLimit := f.laneLimit }
    tim := { b.tim with levels := f.levels, slew := f.slew, floor := f.floor, holdLimit := f.hold, shares := [] }
    fe := { b.fe with parts := (f.parts.zip (List.range 8)).foldl (fun m x => mset {} m x.2 (partOfByte x.1)) [] }
    link := { b.link with
      wCol := f.wCol, wPipe := f.wPipe, peerHold := f.peerHold
      ports := (List.range 36).foldl (fun m n =>
        let p := mget ({} : Port) m n
        let on := bit f.portEnable n
        let st := if !on then 0 else if p.state = 0 then 1 else p.state
        mset {} m n { p with enable := on, state := st, upHold := f.upHold, laneLimit := f.clLaneLimit }) b.link.ports }
    boot := { b.boot with profile := f } }

/-- An override in force at a retained reset (R350): applied, or discarded whole when it would change the topology under a
job. -/
def Block.applyOverride (b : Block) (e : Env) : Block :=
  match b.boot.override with
  | none => b
  | some n =>
    match mget none b.boot.verified n with
    | none => b
    | some f =>
      let jobs := (List.range 8).any (fun p => b.holdsJob p)
      if jobs && decide (f.topology ≠ b.boot.profile.topology) then
        let b : Block := { b with boot := { b.boot with override := none } }
        b.bootEvent e 0x107 1 n []
      else
        let b := b.loadProfile f
        let b : Block := { b with boot := { b.boot with active := n } }
        (b.relimit e.clk.now).bootEvent e 0x106 0 n []

end Sys2Proof.Machine
end

