-- ==== Sys2Proof/Machine/Clock.lean ====
section
/-! DEFINITION. Clocks, resets and power states (R358 to R374). -/
namespace Sys2Proof.Machine

/-! ## Sources and domains (R358) -/

/-- The gate parent of a domain; 127: none. -/
def domParent (d : Nat) : Nat :=
  if d < 48 then (if d % 6 < 4 then d / 6 * 6 + 4 else if d % 6 = 4 then d + 1 else 97)
  else if d < 64 then d + 16
  else if d < 80 then 97
  else if d < 83 then 86
  else if d < 86 then 87
  else if d = 86 || d = 88 then 92
  else if d = 87 || d = 90 then 93
  else if d = 89 then 88
  else if d = 91 then 90
  else if d = 97 || 99 ≤ d then 127
  else 97

/-- The host may gate and reset it. -/
def hostDom (d : Nat) : Bool := decide (d < 48) || (decide (80 ≤ d) && decide (d ≤ 87))

/-- The index of a domain's source: a PLL (0–27) or a reference (28–32). The TCK pin has none. -/
def Block.domSource (b : Block) (d : Nat) : Option Nat :=
  if d < 48 then some (if (b.platePower (d / 6)).pll then 2 * (d / 6) + 1 else 2 * (d / 6))
  else if d < 64 then some (16 + (d - 48) / 2)
  else if d < 80 then some (16 + (d - 64) / 2)
  else if d ≤ 82 || d = 86 then some 25
  else if d ≤ 85 || d = 87 then some 27
  else if d = 88 then some 30
  else if d = 90 then some 31
  else if d = 89 || d = 92 || d = 95 || d = 98 then some 24
  else if d = 94 then some (if b.clk.mgmtH1 then 26 else 24)
  else if d = 91 || d = 93 || d = 96 then some 26
  else if d = 97 then some 32
  else none

/-- READY of a source; a reference also needs PRESENT (R364). -/
def Block.sourceReady (b : Block) (n : Nat) : Bool :=
  if n < 28 then (mget ({} : Pll) b.clk.plls n).ready
  else let r := mget ({} : Ref) b.clk.refs (n - 28); r.present && r.ready

def Block.domRuns (b : Block) (d : Nat) : Bool := decide (d = 127) || decide ((b.dom d).state = 0)

/-- Whether a partition's queues have a command active. -/
def Block.commandActive (b : Block) (p : Nat) : Bool :=
  b.fe.queues.any (fun q => decide (q.2.part = p) && q.2.active.isSome)

/-- The quadrant domain that holds cell (x, y). -/
def quadDom (x y : Nat) : Nat := 6 * plateOf x y + 2 * (y % 256 / 128) + x % 160 / 80

/-- A plate domain is in use: its quadrant runs a region or flat-field work, or its partition holds a job or has a command
active; a Ciosh domain, when one of its ports is not disabled (R360). -/
def Block.domInUse (b : Block) (d : Nat) : Bool :=
  if d < 48 then
    let p := b.partOfPlate (d / 6)
    let runs := (b.liveRegions p).any (fun i =>
      let r := mget ({} : Region) (b.image p).regions i
      r.state ≠ .idle && r.state ≠ .halted &&
        r.clusters.any (fun c => decide (d % 6 < 4) && decide (quadDom (8 * c.1) (8 * c.2) = d)))
    b.holdsJob p || b.commandActive p || runs || (b.tim.offering && b.tim.free.contains (d / 6) && decide (d % 6 < 4))
  else
    let dirs := if d < 86 then [d - 80] else if d = 86 then [0, 1, 2] else [3, 4, 5]
    decide (80 ≤ d) && decide (d ≤ 87) && (dirs.flatMap dirPorts).any (fun n => decide ((b.port n).state ≠ 0))

/-! ## Gating (R360) -/

/-- A change to a domain is already in progress: a reset, a rejoin, a lost clock, a power-state transition. -/
def Block.domBusy (b : Block) (d : Nat) : Bool :=
  let s := (b.dom d).state
  decide (2 ≤ s) || b.clk.ret.isSome || (b.clk.moving.isSome && decide (d < 88))

/-- The answer to a request to gate. -/
def Block.gateCode (b : Block) (d : Nat) : Nat :=
  if 100 ≤ d then 6
  else if !hostDom d then 4
  else if b.domBusy d then 7
  else if (List.range 100).any (fun c => decide (domParent c = d) && decide ((b.dom c).state = 0)) then 1
  else if b.domInUse d then 3
  else 0

/-- The answer to a request to ungate. -/
def Block.ungateCode (b : Block) (d : Nat) : Nat :=
  if 100 ≤ d then 6
  else if !hostDom d then 4
  else if b.domBusy d then 7
  else if !b.domRuns (domParent d) then 2
  else if !((b.domSource d).map b.sourceReady).getD true then 5
  else 0

/-- GATE_REFUSED. -/
def Block.gateRefused (b : Block) (e : Env) (d code : Nat) : Block :=
  (b.bumpClk 0x220 1).clkEvent e 6 1 15 0xFF 0xFF d [(28, 1, code)]

def Block.doGate (b : Block) (e : Env) (d : Nat) : Block :=
  let c := b.gateCode d
  let b := b.setClk { b.clk with gateDom := d, gateRes := c }
  if c = 0 then b.setDom d { b.dom d with state := 1 } else b.gateRefused e d c

def Block.doUngate (b : Block) (e : Env) (d : Nat) : Block :=
  let c := b.ungateCode d
  let b := b.setClk { b.clk with gateDom := d, gateRes := c }
  if c = 0 then b.setDom d { b.dom d with state := 0 } else b.gateRefused e d c

/-- Gates the quadrants of free plates that run no flat-field work and no command, ungates those that do (R361). -/
def Block.gateFree (b : Block) : Block :=
  (List.range 8).foldl (fun b p =>
    let q := b.partOfPlate p
    let idle := b.freePlates.contains p && !b.commandActive q && !(b.tim.offering && b.tim.free.contains p)
    (List.range 4).foldl (fun b i =>
      let x := b.dom (6 * p + i)
      if idle && x.state = 0 then b.setDom (6 * p + i) { x with state := 1 }
      else if !idle && x.state = 1 && b.clk.pstate = 0 then b.setDom (6 * p + i) { x with state := 0 }
      else b) b) b

/-! ## Domain resets (R367, R368, R370) -/

/-- The directions of a Ciosh domain. -/
def domDirs (d : Nat) : List Nat :=
  if 80 ≤ d && d < 86 then [d - 80] else if d = 86 then [0, 1, 2] else if d = 87 then [3, 4, 5] else []

/-- Loses what a quadrant holds: local stores, accumulators, vector registers, op tables, sequencer state. -/
def Block.wipeQuad (b : Block) (d : Nat) : Block :=
  { b with plates := { b.plates with
      cells := (b.plates.cells.map (fun p => (p.1, if quadDom (p.1 % 640) (p.1 / 640) = d then p.2.wiped else p.2))).filter
        (fun p => decide (p.2 ≠ {}))
      clusters := b.plates.clusters.filter (fun p => quadDom (8 * (p.1 % 80)) (8 * (p.1 / 80)) ≠ d) } }

/-- The pairs that a domain reset restores (R5): the PLT pairs of a quadrant, the TIM counters. -/
def domPairs (d a : Nat) : Bool :=
  (match pltPlate a with
    | some p =>
      let c := pltCluster a
      decide (quadDom (8 * (20 * (p % 4) + c % 20)) (8 * (32 * (p / 4) + c / 20)) = d)
    | none => false) || (decide (d = 95) && decide (0x300100 ≤ a) && decide (a < 0x300180))

/-- The start of a domain reset; GUARD_REJOINED ends it. During a retained reset it is absorbed (R370). -/
def Block.domainReset (b : Block) (e : Env) (d trigger : Nat) : Block :=
  if b.clk.ret.isSome then b
  else
    let b := ((b.dropLatches (domPairs d)).bumpClk 0x210 1).clkEvent e 4 1 15 0xFF 3 d [(28, 1, trigger)]
    let b := b.setDom d { b.dom d with state := 2, since := e.clk.now + 1 }
    let b := if d < 48 && d % 6 < 4 then b.wipeQuad d else b
    let b := if d < 48 && d % 6 = 5 then
        (b.fe.queues.filter (fun q => decide (q.2.engine = d / 6))).foldl (fun b q => b.abandonQueue e q.1) b
      else b
    let b := b.resetPorts e (domDirs d)
    if d = 95 then
      let t := b.tim
      b.setTim { TimeUnit.ofProfile b.boot.profile with plates := t.plates, parts := t.parts, seqs := t.seqs }
    else b

/-- The answer to CLK_DRST_REQ (R370). -/
def Block.drstCode (b : Block) (d : Nat) : Nat :=
  if 100 ≤ d then 6
  else if d = 95 || (48 ≤ d && d ≤ 79) || (88 ≤ d && d ≤ 91) then 3
  else if !hostDom d then 4
  else if b.clk.ret.isSome then 0
  else if b.domBusy d then 7
  else if b.domInUse d || (d < 48 && b.holdsJob (b.partOfPlate (d / 6))) then 3
  else 0

def Block.doDomainReset (b : Block) (e : Env) (d : Nat) : Block :=
  let c := b.drstCode d
  let b := b.setClk { b.clk with drstRes := c }
  if c = 0 then b.domainReset e d 9 else b

/-- The crossings of a domain rejoin (R366): it must be out of reset, clocked and ungated, as its parent. A domain reset
ends here, RESET_DONE with its duration. -/
def Block.doGuardRejoined (b : Block) (e : Env) (d : Nat) : Block :=
  let x := b.dom d
  let ends := decide (x.state = 2) && decide (0 < x.since)
  if b.clk.ret.isSome || !b.domRuns (domParent d) || !((b.domSource d).map b.sourceReady).getD true ||
      !(ends || x.state = 4) then b
  else
    let b := b.setDom d { x with state := 0, since := 0, dropsNew := 0, synthNew := 0 }
    let b := if ends then b.clkEvent e 5 0 15 0xFF 3 d [(28, 4, e.clk.now + 1 - x.since)] else b
    if x.dropsNew = 0 && x.synthNew = 0 then b
    else b.clkEvent e 8 0 15 0xFF 0xFF d [(32, 8, x.dropsNew), (40, 8, x.synthNew)]

/-! ## Switching plate sources from PF0 (R362) -/

def Block.switchReqCode (b : Block) (p fstep : Nat) : Nat :=
  if 18 ≤ fstep then 5
  else if 8 ≤ p || (b.platesOf p).isEmpty then 2
  else if b.holdsJob p then 6
  else if (b.platesOf p).any (fun k => (plateDoms k).any (fun d => decide ((b.dom d).state ≠ 0))) then 3
  else if (mget none b.clk.switches p).isSome then 4
  else 0

/-- CLK_SWITCH_REQ: an accepted request retunes the standby PLLs and takes place at the next campus-millisecond tick. -/
def Block.doSwitch (b : Block) (e : Env) (p fstep : Nat) : Block :=
  let c := b.switchReqCode p fstep
  if c ≠ 0 then b.refuseSwitch e p c
  else
    let run : SwitchRun := { fstep := fstep, tick := (e.clk.now / 1000 + 1) * 1000, pf0 := true }
    (b.retune p fstep).setClk { (b.retune p fstep).clk with switches := mset none b.clk.switches p (some run) }

/-! ## Power states (R371, R372) -/

/-- The answer to CLK_PSTATE_REQ for a target (3 is Off). -/
def Block.pstateCode (b : Block) (target : Nat) : Nat :=
  let jobs (lo : Nat) : Bool := (List.range 8).any (fun p =>
    let s := (b.gen p).regs.state; decide (lo ≤ s) && decide (s ≤ 5))
  if b.clk.ret.isSome then 4
  else if b.clk.moving.isSome then 3
  else if b.clk.pstate = target then 2
  else if (target = 1 || target = 2) && jobs 2 then 1
  else if target = 3 && jobs 1 then 1
  else 0

/-- A request for a power state. Its entry takes place at PSTATE_ENTERED, after the ramp. -/
def Block.doPstate (b : Block) (e : Env) (target : Nat) (slLs : Bool) : Block :=
  let c := b.pstateCode target
  let b := b.setClk { b.clk with pstateRes := c }
  if c = 0 then b.setClk { b.clk with moving := some { target := target, slLs := slLs } }
  else b.clkEvent e 10 1 15 0xFF target 0xFFFF [(28, 1, c)]

def Block.setDoms (b : Block) (ds : List Nat) (from_ dst : Nat) : Block :=
  ds.foldl (fun b d => if (b.dom d).state = from_ then b.setDom d { b.dom d with state := dst } else b) b

def Block.setRefresh (b : Block) (on : Bool) : Block :=
  { b with mem := { b.mem with hbm := b.mem.hbm.map (fun s => (s.1, { s.2 with selfRefresh := on })) } }

/-- What a cell keeps in Safelight. -/
def Cell.safelit (keep : Bool) (c : Cell) : Cell :=
  let c := { c with acc := [], groups := [], spills := [] }
  if keep then c else { c with ls := [], lsPoison := [] }

/-- The PLLs of the plates, the stacks and the links. -/
def lowPlls : List Nat := (List.range 24).append [25, 27]

def Block.enterHold (b : Block) : Block := b.setDoms (List.range 48) 0 1

def Block.enterSafelight (b : Block) (e : Env) (slLs : Bool) : Block :=
  let b := (b.resetPorts e [0, 1, 2, 3, 4, 5]).flushCache.setRefresh true
  let b := b.setDoms (List.range 88) 0 1
  let b := lowPlls.foldl (fun b n => b.setPll n { mget {} b.clk.plls n with lock := false, ready := false }) b
  let b : Block := { b with plates := { b.plates with
      cells := (b.plates.cells.map (fun c => (c.1, c.2.safelit slLs))).filter (fun c => decide (c.2 ≠ {})) } }
  b.setClk { b.clk with slLs := slLs, slFrom := e.clk.now }

/-- Deadlines do not run while commands wait in Safelight (R372). -/
def Block.pauseDeadlines (b : Block) (d : Nat) : Block :=
  { b with fe := { b.fe with queues := b.fe.queues.map (fun q =>
      (q.1, { q.2 with running := q.2.running.map (fun r => if r.due = 0 then r else { r with due := r.due + d }) })) } }

def Block.enterActive (b : Block) (e : Env) : Block :=
  if b.clk.pstate = 2 then
    let b := (b.pauseDeadlines (e.clk.now - b.clk.slFrom)).setRefresh false
    let b := lowPlls.foldl (fun b n =>
      let x := mget {} b.clk.plls n
      b.setPll n { x with lock := true, ready := true, mhz := if x.mhz = 0 then pllMhz n else x.mhz }) b
    (b.setDoms (List.range 88) 1 0).setClk { (b.setDoms (List.range 88) 1 0).clk with slLs := false }
  else b.setDoms (List.range 48) 1 0

/-- Sets the state and writes PSTATE_ENTERED. -/
def Block.pstateDone (b : Block) (e : Env) (target : Nat) : Block :=
  (b.setClk { b.clk with pstate := target % 3, moving := none, off := decide (target = 3) }).clkEvent e 9 0 15 0xFF target 0xFFFF []

/-- The entry completes (R371). Off leaves only the always-on logic; a cold start ends it. -/
def Block.doPstateEntered (b : Block) (e : Env) : Block :=
  match b.clk.moving with
  | none => b
  | some m =>
    match m.target with
    | 0 => (b.enterActive e).pstateDone e 0
    | 1 => (if b.clk.pstate = 2 then (b.enterActive e).enterHold else b.enterHold).pstateDone e 1
    | 2 => (b.enterSafelight e m.slLs).pstateDone e 2
    | _ =>
      let b := b.pstateDone e 3
      { b with module := { b.module with up := false } }

/-- A command that reaches a plate engine in Hold returns the device to Active first (R372). -/
def Block.leaveHold (b : Block) (e : Env) : Block :=
  if b.clk.pstate = 1 then (b.enterActive e).pstateDone e 0 else b

/-! ## Clock failure (R363, R364) -/

def lostSource (b : Block) (n : Nat) (missing : Bool) : Block :=
  if n < 28 then b.setPll n { mget {} b.clk.plls n with lock := false, ready := false, lost := true }
  else
    let r := mget {} b.clk.refs (n - 28)
    let r : Ref := { r with present := r.present && !missing, ready := false, lost := true }
    b.setClk { b.clk with refs := mset {} b.clk.refs (n - 28) r }

/-- The domains whose clock a source's failure takes away. -/
def Block.lostDoms (b : Block) (n : Nat) : List Nat :=
  if n < 16 then
    let k := n / 2
    if b.standby k = n then []
    else
      let p := b.partOfPlate k
      (if p < 8 then b.platesOf p else [k]).flatMap plateDoms
  else if n < 24 then
    let s := 2 * (n - 16)
    [48 + s, 49 + s, 64 + s, 65 + s]
  else if n = 28 then (List.range 80).append [89, 91, 92, 93, 94, 95, 96, 98]
  else if n = 29 then (List.range 8).map (· + 80)
  else if n = 30 then [88, 89]
  else if n = 31 then [90, 91]
  else if n = 32 then []
  else (List.range 100).filter (fun d => decide (48 ≤ d) && decide (b.domSource d = some n))

/-- The directions whose transmitters fall to electrical idle. -/
def lostDirs (n : Nat) : List Nat :=
  if n = 28 || n = 29 then [0, 1, 2, 3, 4, 5] else if n = 24 || n = 25 then [0, 1, 2]
  else if n = 26 || n = 27 then [3, 4, 5] else []

/-- The stacks that go into self-refresh. -/
def lostStacks (n : Nat) : List Nat :=
  if n = 24 || n = 26 || n = 28 then List.range 16
  else if 16 ≤ n && n < 24 then [2 * (n - 16), 2 * (n - 16) + 1] else []

/-- The standby core takes over (R352). -/
def Block.mgmtTakeover (b : Block) (e : Env) : Block :=
  if b.clk.mgmtH1 then b
  else (b.setClk { b.clk with mgmtH1 := true }).clkEvent e 11 3 15 0xFF 0xFF 0xFFFF []

/-- A PCIe port's link goes down or comes up (R299). -/
def Block.setPcie (b : Block) (portB up : Bool) : Block :=
  { b with fe := if portB then { b.fe with linkUpB := up } else { b.fe with linkUpA := up } }

/-- A monitor finds a source missing (`missing`) or off frequency: safe states, CLOCK_LOST, ALERT_N. A standby PLL forces
nothing. -/
def Block.doClockLost (b : Block) (e : Env) (n : Nat) (missing : Bool) : Block :=
  let standby := decide (n < 16) && decide (b.standby (n / 2) = n)
  let ds := b.lostDoms n
  let b := (lostSource b n missing).bumpClk 0x218 1
  let b := ds.foldl (fun b d => if (b.dom d).state = 2 then b else b.setDom d { b.dom d with state := 3 }) b
  let b : Block := { b with mem := { b.mem with hbm := b.mem.hbm.map (fun s =>
    (s.1, if (lostStacks n).contains s.1 then { s.2 with selfRefresh := true } else s.2)) } }
  let b := b.resetPorts e (lostDirs n)
  let b := if n = 30 then b.setPcie false false else if n = 31 then b.setPcie true false else b
  let b := b.setClk { b.clk with lost := b.clk.lost.filter (· ≠ n) ++ [n], alert := b.clk.alert || decide (n ≠ 32) }
  let b := b.clkEvent e 1 3 15 n 0xFF 0xFFFF [(28, 1, b2n (!missing))]
  let b := if standby then b.clkEvent e 3 1 15 n 0xFF 0xFFFF [] else b
  if n = 24 then b.mgmtTakeover e else b

/-- Domains that lost their clock and that no reset takes run again, isolated until they rejoin. -/
def Block.clocksBack (b : Block) : Block :=
  (List.range 100).foldl (fun b d =>
    if (b.dom d).state = 3 && ((b.domSource d).map b.sourceReady).getD true then b.setDom d { b.dom d with state := 4 } else b) b

/-- The domains that a failed source's recovery resets one by one. -/
def recoveryDoms (n : Nat) : List Nat :=
  if n = 24 || n = 28 then [95]
  else if n = 25 then [80, 81, 82, 86]
  else if n = 27 then [83, 84, 85, 87]
  else if n = 29 then [80, 81, 82, 83, 84, 85, 86, 87]
  else if n = 30 then [88, 89]
  else if n = 31 then [90, 91]
  else []

/-- The recovery of R364: 0 none, 1 domain reset, 2 partition reset, 3 retained reset (R374). -/
def Block.recoveryOf (b : Block) (n : Nat) : Nat :=
  if n < 16 then (if b.standby (n / 2) ≠ n && b.partOfPlate (n / 2) < 8 then 2 else 0)
  else if n = 24 || n = 26 || n = 28 || n < 24 then 3
  else if n = 32 then 0
  else 1

/-- A partition reset that a job did not cause is the job fault "device reset with HBM kept" (R22, R168). -/
def Block.resetWithFault (b : Block) (e : Env) (p trigger : Nat) : Block :=
  if b.clk.ret.isSome then b else (b.partitionReset e p trigger).jobFaultWith e p 5 false

/-- The failed source is READY again: its recovery reset runs. -/
def Block.doClockRecovery (b : Block) (e : Env) (n : Nat) : Block :=
  if !b.clk.lost.contains n then b
  else
    let r := b.recoveryOf n
    let b := if n < 28 then b.setPll n { mget {} b.clk.plls n with lock := true, ready := true }
      else
        let r : Ref := { mget {} b.clk.refs (n - 28) with present := true, ready := true }
        b.setClk { b.clk with refs := mset {} b.clk.refs (n - 28) r }
    let rest := b.clk.lost.filter (· ≠ n)
    let b := b.setClk { b.clk with lost := rest, alert := rest.any (· ≠ 32) }
    let b := b.clkEvent e 2 0 15 n 0xFF 0xFFFF [(28, 1, r)]
    let b := (recoveryDoms n).foldl (fun b d => b.domainReset e d 4) b
    let b := if r = 2 then b.resetWithFault e (b.partOfPlate (n / 2)) 4 else if r = 3 then b.retainedReset e 4 else b
    b.clocksBack

/-! ## The end of resets -/

/-- A partition reset finishes (R367): its plate domains run, its queues are ready. -/
def Block.endPartReset (b : Block) (e : Env) (p : Nat) : Block :=
  match mget none b.clk.parts p with
  | none => b
  | some run =>
    if (b.platesOf p).any (fun k => b.clk.lost.any (fun n => decide (n / 2 = k) && decide (n < 16) && decide (b.standby k ≠ n))) then b
    else
      let b := b.setClk { b.clk with parts := mset none b.clk.parts p none }
      let b := b.setDoms ((b.platesOf p).flatMap plateDoms) 2 0
      b.clkEvent e 5 0 p 0xFF 2 0xFFFF [(28, 4, e.clk.now - run.since)]

/-- PARTITION_RESET_DONE: a rewinding device may then send its REWOUND. The second result is the generation that becomes
current. -/
def Block.doPartResetDone (b : Block) (e : Env) (p : Nat) : Block × Nat := (b.endPartReset e p).progressRewound e p

/-- The spare-row map takes in the rows that have failed (R393): ROW_MAPPED where it changes. -/
def Block.applyRowMap (b : Block) (e : Env) (plate : Nat) : Block :=
  let rows := b.failedRows plate
  if bit b.int.plateFailed plate || rows = mget [] b.plates.rowMaps plate then b
  else
    let b := rows.foldl (fun b r => b.setRow plate r { b.rowHealth plate r with state := 3 }) b
    let b : Block := { b with
      plates := { b.plates with rowMaps := mset [] b.plates.rowMaps plate rows }
      int := { b.int with unmapped := b.int.unmapped &&& (255 - 2 ^ plate) } }
    b.intEvent e 14 0 (b.partOfPlate plate) plate 0xFFFF 0xFFFF [(32, 2, rows.getD 0 0x1FF), (34, 2, rows.getD 1 0x1FF)]

/-- Sources whose loss holds a retained reset (R364). -/
def holdsRetained (b : Block) : Bool :=
  b.clk.lost.any (fun n => (decide (16 ≤ n) && decide (n < 30)) || (decide (n < 16) && decide (b.standby (n / 2) ≠ n)))

/-- The rest of a retained reset (R368, R369): stacks and ports back, row maps applied, queues ready. -/
def Block.endRetained (b : Block) (e : Env) (since : Nat) : Block :=
  let b := (b.resetPorts e [0, 1, 2, 3, 4, 5]).setRefresh false
  let b : Block := { b with mem := { b.mem with hbm := b.mem.hbm.map (fun s => (s.1, { s.2 with trained := true })) } }
  let b := ((List.range 8).foldl (fun b p => b.applyRowMap e p) b).applyOverride e
  let b := lowPlls.foldl (fun b n =>
    let x := mget {} b.clk.plls n
    b.setPll n { x with lock := true, ready := true, mhz := if x.mhz = 0 then pllMhz n else x.mhz }) b
  let b := ((List.range 88).append [92, 93]).foldl (fun b d => b.setDom d { b.dom d with state := 0, since := 0 }) b
  let b := b.setClk { b.clk with
    ret := none, pstate := 0, moving := none, slLs := false, retMs := (e.clk.now - since) / 1000 }
  let b : Block := { b with fe := { b.fe with ready := true } }
  b.clkEvent e 5 0 15 0xFF 1 0xFFFF [(28, 4, e.clk.now - since)]

/-- RETAINED_RESET_SEQUENCE: its jobs fault with cause 5 (R24, R376) and may then send their REWOUND. The map holds the
generation that becomes current in each partition. -/
def Block.doRetainedSequence (b : Block) (e : Env) : Block × SMap Nat :=
  match b.clk.ret with
  | none => (b, e.cur)
  | some run =>
    if holdsRetained b then (b, e.cur)
    else
      let b := b.endRetained e run.since
      (List.range 8).foldl (fun (acc : Block × SMap Nat) p =>
        if acc.1.holdsJob p then
          let r := (acc.1.jobFaultWith e p 5 false).progressRewound e p
          (r.1, mset 0 acc.2 p r.2)
        else acc) (b, e.cur)

/-- A retained reset that a pin or a function asks for: before step 6 of a cold start it waits until that step is over
(R339). -/
def Block.askRetained (b : Block) (e : Env) (trigger : Nat) : Block :=
  if b.boot.stage = 6 then b.retainedReset e trigger
  else { b with boot := { b.boot with retainedAsked := some trigger } }

/-- A low pulse on WARM_RESET_N (R367). -/
def Block.doWarmReset (b : Block) (e : Env) : Block := b.askRetained e 0

end Sys2Proof.Machine
end

