-- ==== Sys2Proof/Machine/Seq.lean ====
section
/-! DEFINITION. What each sequencer instruction does to the block (R92 to R112), and the events of regions and streams. -/
namespace Sys2Proof.Machine

def Block.doNop (b : Block) (e : Env) (r : RegionId) : Block := b.seqPlain e r Region.next

/-- WAIT N: the region holds for N plate cycles; WAIT_END ends it. -/
def Block.doWait (b : Block) (e : Env) (r : RegionId) (n : Nat) : Block :=
  b.seqPlain e r (fun x => { x with waitLeft := n })

/-- The N cycles of a WAIT or IDLEW are over. -/
def Block.doWaitEnd (b : Block) (r : RegionId) : Block :=
  let x := b.region r
  if x.waitLeft = 0 || x.state ≠ .running then b
  else b.setRegion r { x with pc := (x.pc + 1) % 2048, cycle := x.cycle + x.waitLeft, waitLeft := 0, window := none, flatField := false }

/-- IDLEW F, N: as WAIT, with an idle window that names free-range entry F (R20). -/
def Block.doIdlew (b : Block) (e : Env) (r : RegionId) (f n : Nat) : Block :=
  b.seqPlain e r (fun x => { x with waitLeft := n, window := some f })

/-- The window ends; unfinished flat-field work in it is abandoned (R20). -/
def Block.doIdleWindowEnd (b : Block) (r : RegionId) : Block :=
  b.modRegion r (fun x => { x with window := none, flatField := false })

def Block.doHalt (b : Block) (e : Env) (r : RegionId) : Block := b.seqStep e r (fun _ => b.haltRegion r)

/-- DRAINPT (R98): stops the region where a drain request is pending. -/
def Block.doDrainpt (b : Block) (e : Env) (r : RegionId) : Block :=
  b.seqStep e r (fun x =>
    if x.drain then (b.setRegion r x.next).stopRegion e r else b.setRegion r x.next)

def Block.doBr (b : Block) (e : Env) (r : RegionId) (t : Nat) : Block := b.seqPlain e r (fun x => x.goto t)

def Block.doBrc (b : Block) (e : Env) (r : RegionId) (k : Nat) (neg : Bool) (t : Nat) : Block :=
  b.seqPlain e r (fun x => if xor (x.cmp k) neg then x.goto t else x.next)

def Block.doLoop (b : Block) (e : Env) (r : RegionId) (c t : Nat) : Block :=
  b.seqPlain e r (fun x =>
    let v := mget 0 x.ctrs c
    if v ≠ 0 then { x with ctrs := mset 0 x.ctrs c (v - 1) }.goto t else x.next)

def Block.doLdc (b : Block) (e : Env) (r : RegionId) (c v : Nat) : Block :=
  b.seqPlain e r (fun x => { x with ctrs := mset 0 x.ctrs c v }.next)

def Block.doCmp (b : Block) (e : Env) (r : RegionId) (k c rel v : Nat) : Block :=
  b.seqPlain e r (fun x => { x with cmps := mset {} x.cmps k { ctr := c, rel := rel, val := v } }.next)

/-- An instruction on the address registers of every cluster of the region. -/
def Block.seqRegs (b : Block) (e : Env) (r : RegionId) (f : SMap Nat → SMap Nat) : Block :=
  b.seqStep e r (fun x => (b.modClusters r (fun c => { c with areg := f c.areg })).setRegion r x.next)

def Block.doLda (b : Block) (e : Env) (r : RegionId) (a v : Nat) : Block :=
  b.seqRegs e r (fun m => mset 0 m a (v % 2 ^ 40))

def Block.doAddi (b : Block) (e : Env) (r : RegionId) (a v : Nat) : Block :=
  b.seqRegs e r (fun m => mset 0 m a ((mget 0 m a + v) % 2 ^ 40))

def Block.doAdda (b : Block) (e : Env) (r : RegionId) (a c : Nat) : Block :=
  b.seqRegs e r (fun m => mset 0 m a ((mget 0 m a + mget 0 m c) % 2 ^ 40))

/-- STRM (R99 to R102): refuses the command on a bad descriptor, freezes under cause 7 while some queue holds four, and
otherwise queues one flow in each cluster. -/
def Block.doStrm (b : Block) (e : Env) (r : RegionId) (ch a rb : Nat) : Block :=
  b.seqStep e r (fun x =>
    let cs := x.clusters
    match cs.findSome? (fun p => b.streamFault r.part (mget 0 (b.cluster p.1 p.2).areg a) ch) with
    | some reason => b.refuseRun e r.part reason
    | none =>
      if cs.any (fun p => 4 ≤ ((b.cluster p.1 p.2).chan ch).queue.length) then b.freeze e r 7
      else
        let b := cs.foldl (fun b p => b.strmCluster e r.part p.1 p.2 ch a rb) b
        b.setRegion r x.next)

/-- SYNCSIG (R112): the lead's signal, applied once every write accepted before it is visible. -/
def Block.doSyncsig (b : Block) (e : Env) (r : RegionId) (o : Nat) : Block :=
  b.seqStep e r (fun x => (b.setRegion r { x.next with signals := x.signals ++ [o] }).settleSignals e r)

/-- SYNCWT (R112): freezes the region under cause 5 until the object reaches A(A) of the lead. -/
def Block.doSyncwt (b : Block) (e : Env) (r : RegionId) (a o : Nat) : Block :=
  b.seqStep e r (fun x =>
    let v := mget 0 (b.cluster x.lead.1 x.lead.2).areg a
    if !b.syncUsable r.part o then (b.syncModeError e r o).modRegion r Region.next
    else if v ≤ (b.obj o).val then b.setRegion r x.next
    else (b.freeze e r 5).modRegion r (fun y => { y with syncWait := some (o, v) }))

/-- Whether some region of a freeze group still waits for a sync object, or has stopped for good (R375). -/
def Block.groupWaits (b : Block) (r : RegionId) : Bool :=
  (b.freezeGroup r).any (fun q => (b.region q).syncWait.isSome || decide ((b.region q).frozenCause = 9))

/-- The awaited value is there: the region goes on with the instruction after the SYNCWT, and the group runs once no other
region of it waits. -/
def Block.doSyncwtSatisfied (b : Block) (e : Env) (r : RegionId) (cycles : Nat) : Block :=
  match (b.region r).syncWait with
  | none => b
  | some (o, v) =>
    if v ≤ (b.obj o).val || !b.syncUsable r.part o then
      let b := b.modRegion r (fun x => { x.next with syncWait := none })
      if b.groupWaits r then b else b.thaw e r cycles
    else b

/-- First-pass mark of an issue (R93, R74). -/
def Region.firstMark (x : Region) (c : Nat) : Bool := if c = 0 then false else if c = 1 then true else x.cmp (c - 2)

/-- What a check of a cell finds at an issue of its region (R375): a corrected error is counted; an op-table entry makes the
issue a NOP (R88); a local-store word becomes poison; a vector register's parity is fog and its lanes are poisoned. -/
def Block.foundAtIssue (b : Block) (e : Env) (x : Region) (err : IssueError) : Block :=
  let here (px py : Nat) (f : Block → Block) : Block := if x.covers (px / 8) (py / 8) then f b else b
  match err with
  | .corrected => b.bumpInt 0x100 1
  | .table px py => here px py (fun b => (b.setCell px py { b.cell px py with issue := none }).fogResidue e px py 4)
  | .store px py w => here px py (fun b =>
      let c := b.cell px py
      (b.setCell px py { c with
        ls := putBytes c.ls (32 * (w % 512)) (zeros 32), lsPoison := mset false c.lsPoison (w % 512) true }).bumpInt 0x108 1)
  | .vector px py r => here px py (fun b =>
      let c := b.cell px py
      let lanes := (List.range 16).map (fun l => 16 * (r % 16) + l)
      (b.setCell px py { c with vPoison := lanes.foldl (fun m l => mset false m l true) c.vPoison }).fogResidue e px py
        (Config.vectorParityKind r % 256))
  | _ => b

/-- What the selected cells of cluster `p` demand of its channels in an issue, and how many they are. -/
def Block.issueDemand (b : Block) (w : IssueWord) (p : Nat × Nat) : Demand × Nat :=
  let cells := selected p.1 p.2 w.rowMask w.colMask
  (match cells.head? with
    | some q => ((b.cell q.1 q.2).op w.entry).demand
    | none => ⟨0, 0, 0⟩, cells.length)

/-- Why a region cannot run an issue in this cycle (R104): the cause of its first cluster that cannot. -/
def Block.issueBlocked (b : Block) (e : Env) (part : Nat) (x : Region) (w : IssueWord) : Option Nat :=
  x.clusters.findSome? (fun p => b.issueStall e part p.1 p.2 (b.issueDemand w p).1 (b.issueDemand w p).2)

/-- The issue word reaches every cluster of a region; at a first pass the state that a replay returns to is kept (R77). -/
def Block.issueAll (b : Block) (e : Env) (r : RegionId) (x : Region) (w : IssueWord) : Block :=
  let first := x.firstMark w.firstC
  let b := if first then b.takeSnap r w.entry else b
  x.clusters.foldl (fun b p => b.issueCluster e r.part p.1 p.2 w first) b

/-- ISSUE (R93, R95, R101, R104): under a false predicate a NOP; otherwise freezes the group while a cluster lacks bytes
or credit, or delivers the issue word to every cluster. With `err` a cell's op-table entry fails its parity (R88): its
issue is a NOP and a fog event; or the sequencer finds an error in its own memory or registers (R375): the region freezes
for good, with a fog event charged to the cluster's top row (R391). -/
def Block.doIssue (b : Block) (e : Env) (r : RegionId) (w : IssueWord) (err : IssueError) : Block :=
  b.seqStep e r (fun x =>
    if err = .sequencer then
      let l := x.lead
      (b.setRegion r { x with state := .frozen, frozenCause := 9 }).fogAt e 3 0x138 (8 * l.1) (8 * l.2)
        (plateOf (8 * l.1) (8 * l.2)) (b.physOf (8 * l.1) (8 * l.2)) [(32, 2, x.pc)]
    else if w.pred ≠ 0 && !x.cmp (w.pred - 1) then b.setRegion r x.next
    else
      match b.issueBlocked e r.part x w with
      | some cause => b.freeze e r cause
      | none => ((b.issueAll e r x w).modRegion r Region.next).foundAtIssue e x err)

/-! ## Events of streams, freezes, stops and stages -/

/-- A beat, a list entry or write credit reaches a channel (R96, R101); signals that waited for it follow. -/
def Block.doBeat (b : Block) (e : Env) (cx cy ch net : Nat) : Block :=
  let part := b.partOfPlate (plateOf (8 * cx) (8 * cy))
  let b := b.beat e part cx cy ch net
  match b.regionAt (8 * cx) (8 * cy) with
  | some r => b.settleSignals e r
  | none => b

/-- Both stream conditions hold again after `cycles` frozen cycles; the frozen instruction executes next (R104). -/
def Block.doResume (b : Block) (e : Env) (r : RegionId) (cycles : Nat) : Block :=
  let x := b.region r
  if x.state = .frozen && !b.groupWaits r then b.thaw e r cycles else b

/-- The descriptor at the head of a channel's queue has moved its last byte and frees its entry (R101). -/
def Block.doRetire (b : Block) (cx cy ch : Nat) : Block :=
  let c := b.cluster cx cy
  let x := c.chan ch
  match x.queue with
  | [] => b
  | f :: fs =>
    let n := b.flowBytes f
    let moved := decide (n ≤ f.served) && (ch = 3 || decide (n ≤ x.taken))
    if moved then b.setCluster cx cy (c.setChan ch { x with queue := fs, taken := x.taken - n }) else b

/-- A stage's regions start together at its offset (R15, R95, R110): cycle 0 of their count, registers at their presets. -/
def Block.doStageStart (b : Block) (part : Fin 8) (stage : Nat) : Block :=
  (b.liveRegions part).foldl (fun b i =>
    let r : RegionId := ⟨part, i⟩
    let x := b.region r
    if x.stage = stage && x.state = .idle && !x.done then b.setRegion r { x with state := .running, cycle := 0 } else b) b

/-- Whether every write channel of a cluster has handed its last beat to the plate memory network. -/
def Block.writesHanded (b : Block) (cx cy : Nat) : Bool :=
  let c := b.cluster cx cy
  (c.chan 2).held.isEmpty && c.outs.isEmpty && (c.chan 10).held.isEmpty && (c.chan 11).held.isEmpty
    && (c.chan 3).queue.all (fun f => !(b.flowDescs f).1.dir || decide (b.flowBytes f ≤ f.served))

/-- A cluster reports complete once its region has halted and its write channels have handed on their last beat; the
region is complete with its last cluster (R113). -/
def Block.doClusterComplete (b : Block) (cx cy : Nat) : Block :=
  match b.regionAt (8 * cx) (8 * cy) with
  | none => b
  | some r =>
    let x := b.region r
    let c := b.cluster cx cy
    if x.state = .halted && b.writesHanded cx cy then
      let b := b.setCluster cx cy { c with complete := true }
      if x.clusters.all (fun p => (b.cluster p.1 p.2).complete) then b.setRegion r { x with done := true } else b
    else b

/-- The combining tree reports the whole command: every region of every stage is complete (R113). The plate engine's
command has nothing more to execute. -/
def Block.doDeviceCompletion (b : Block) (part : Fin 8) : Block :=
  let live := b.liveRegions part
  if (b.image part).runCmd.isNone || !live.all (fun i => (b.region ⟨part, i⟩).done) then b
  else
    match b.runQueue part with
    | none => b
    | some q =>
      let b := b.setImage part { b.image part with runCmd := none }
      match (b.queue q).active with
      | some r => b.setQueue q ((b.queue q).update r.seq (fun r => { r with phase := .retired }))
      | none => b

/-- Resumes a stopped region with the instruction after its drain point (R98, R136). -/
def Block.doRegionResume (b : Block) (r : RegionId) (cycles : Nat) : Block :=
  let x := b.region r
  if x.state = .stopped || x.state = .breakpoint then
    (b.countStall [r] 8 cycles).modRegion r (fun x => { x with state := .running })
  else b

/-- 32 executed cycles after an overflow every region of the group restarts its current group (R77). -/
def Block.doReplayRestart (b : Block) (r : RegionId) : Block :=
  if (b.region r).state ≠ .replayWait then b
  else
    let rs := (b.freezeGroup r).filter (fun q => decide ((b.region q).state = .replayWait))
    rs.foldl (fun b q => b.restartRegion q) (b.countStall rs 1 32)

end Sys2Proof.Machine
end

