-- ==== Sys2Proof/Machine/CellOps.lean ====
section
/-! DEFINITION. What the cell operations do (R67 to R86, R437): a cell executes the op-table entry that its last issue word
named. -/
namespace Sys2Proof.Machine

/-- The exposure of slot `slot` in the current RNG bank (R72). -/
def Block.slotExposure (b : Block) (e : Env) (part slot : Nat) : Int :=
  match (b.gen part).regs.withRole 1 with
  | some r => sext 10 (leNat (b.peek (r.at (e.bank part) (64 + 2 * slot)) 2))
  | none => 0

/-- The job seed: SEED of the current RNG bank (R150), or the load block's where the job declares no RNG region. -/
def Block.jobSeed (b : Block) (e : Env) (part : Nat) : Nat :=
  match (b.gen part).regs.withRole 1 with
  | some r => leNat (b.peek (r.at (e.bank part) 0) 8)
  | none => (b.gen part).job.seed

/-- What an operation of cell (x, y) reads from its job. -/
def Block.cellCtx (b : Block) (e : Env) (x y : Nat) (o : OpEntry) : CellCtx :=
  let part := b.partOfPlate (plateOf x y)
  { exposure := if o.autoExp then b.slotExposure e part o.expSlot else o.exp
    key := { seed := b.jobSeed e part, tensor := o.tensor
             gen := if b.holdsJob part then (e.curGen part + 1) % 2 ^ 32 else 0 }
    seed := Config.lfsrSeed x (b.physOf x y) }

/-- The sampling interval of bracketing, where it is on (R385, R397). -/
def Block.brk (b : Block) : Option Nat := if b.int.brkEn then some b.int.brkN else none

/-- The latched issue of a cell, where its entry is valid and holds operation `opc`. -/
def Block.issued (b : Block) (x y opc : Nat) : Option (Issue × OpEntry) :=
  match (b.cell x y).issue with
  | none => none
  | some i =>
    let o := (b.cell x y).op i.entry
    if o.valid && o.opc = opc then some (i, o) else none

/-- Stores the outcome of an operation: the cell with its issue consumed, overflow records, consumed poison, and the
start of a replay. -/
def Block.finishOp (b : Block) (e : Env) (x y : Nat) (r : CellRun) : Block :=
  let b := b.setCell x y { r.cell with issue := none }
  let b := b.overflowEvent e x y r.overs
  let b := if r.replay then
      match b.regionAt x y with
      | some q => b.startReplay q
      | none => b
    else b
  if r.poisoned then b.consumePoison e x y else b

/-- Runs `f` on the cell where its issue holds operation `opc`; otherwise the cell receives a NOP. -/
def Block.cellOp (b : Block) (e : Env) (x y opc : Nat) (f : Issue → OpEntry → CellCtx → Cell → CellRun) : Block :=
  match b.issued x y opc with
  | none => b
  | some (i, o) => b.finishOp e x y (f i o (b.cellCtx e x y o) (b.cell x y))

/-- `n` bytes from a source of R68: local store, a mesh side, or the stream port. -/
def Cell.source (c : Cell) (src ls n : Nat) (port : List (Byte × Bool)) : Cell × List (Byte × Bool) :=
  if src = 0 then (c, c.lsRead ls n) else if src = 5 then (c, port) else c.meshTake src n

/-- Writes an operation's output to its destination (R68, R103). -/
def Block.output (b : Block) (x y dst ls : Nat) (bs : List (Byte × Bool)) : Block :=
  if dst = 0 then b.setCell x y ((b.cell x y).lsWrite ls bs)
  else if dst = 5 then b.toS2 x y bs
  else b.meshOut (b.partOfPlate (plateOf x y)) x y dst bs

/-- OP_NOP: an entry with OPC 0 or with VALID clear (R67). -/
def Block.doOpNop (b : Block) (x y : Nat) : Block :=
  match (b.cell x y).issue with
  | none => b
  | some i =>
    let o := (b.cell x y).op i.entry
    if o.valid && o.opc ≠ 0 then b else b.setCell x y { b.cell x y with issue := none }

/-- Poisons the entries of an operation's group (R88). -/
def Cell.poisonGroup (c : Cell) (o : OpEntry) : Cell :=
  (List.range (8 * o.mc)).foldl (fun c m => c.setAcc (o.accBase + m) { c.accAt (o.accBase + m) with poison := true }) c

/-- A mesh parity error at a consuming cell (R375, R383): charged to the cell that drove the word. -/
def Block.fogMesh (b : Block) (e : Env) (x y dir : Nat) : Block :=
  let d := (neighbour x y dir).getD (x, y)
  b.fogAt e 2 0x130 x y (plateOf d.1 d.2) (b.physOf d.1 d.2) [(32, 2, d.1), (34, 2, d.2)]

/-- The mesh side that an entry reads from; 0: none. -/
def OpEntry.meshSide (o : OpEntry) : Nat :=
  if 1 ≤ o.aSrc && o.aSrc ≤ 4 then o.aSrc else if 1 ≤ o.bSrc && o.bSrc ≤ 4 then o.bSrc else 0

/-- The fog event of a mismatch found in an operation that read entry `o` (R88): kind 5 is the parity of a mesh word. -/
def Block.fogIn (b : Block) (e : Env) (x y kind : Nat) (o : OpEntry) : Block :=
  if kind = 5 && o.meshSide ≠ 0 then b.fogMesh e x y o.meshSide else b.fogResidue e x y kind

/-- A cell whose op-table entry fails its parity (R88): the issue becomes a NOP. -/
def Block.fogEntry (b : Block) (e : Env) (x y : Nat) : Block :=
  (b.setCell x y { b.cell x y with issue := none }).fogResidue e x y 4

/-- MMA (R70): one pass. -/
def Block.mmaRun (b : Block) (e : Env) (x y : Nat) (i : Issue) (o : OpEntry) : CellRun :=
  let fa := fmtOf o.fmtA
  let fb := fmtOf o.fmtB
  let kt := kTile fa fb
  let (c, ta) := (b.cell x y).source o.aSrc o.lsA (o.mc * rowBytesA fa kt) i.a
  let (c, tb) := c.source o.bSrc o.lsB (tileBytesB fb kt) i.b
  c.mmaPass (b.cellCtx e x y o) o i.entry i.first ta tb

/-- A mismatch poisons the entries, wins over an overflow (R79), and is a fog event. -/
def Block.doMma (b : Block) (e : Env) (x y : Nat) (fog : Option Nat) : Block :=
  match b.issued x y 1 with
  | none => b
  | some (i, o) =>
    let r := b.mmaRun e x y i o
    match fog with
    | none => b.finishOp e x y r
    | some 4 => b.fogEntry e x y
    | some k => (b.finishOp e x y { r with cell := r.cell.poisonGroup o, replay := false }).fogIn e x y k o

/-- The end of spill drain `p` of a cell, with `ps` still to come: its adds, checked (R77, R78). -/
def Block.spillRun (b : Block) (e : Env) (x y : Nat) (p : SpillRun) (ps : List SpillRun) : CellRun :=
  let c := b.cell x y
  let entry := ((c.group p.base).map (fun g => g.entry)).getD 0
  let ex := (b.cellCtx e x y (c.op entry)).exposure
  let r : CellRun := ({ cell := { c with spills := ps } } : CellRun).commit ex p
  let c' := match r.cell.group p.base with
    | some g => r.cell.setGroup p.base (some { g with final := g.final || r.overs ≠ 0 })
    | none => r.cell
  { r with cell := c' }

/-- SPILL_COMPLETE (R76): the oldest spill drain of the cell ends; its issue stays. -/
def Block.doSpillComplete (b : Block) (e : Env) (x y : Nat) : Block :=
  match (b.cell x y).spills with
  | [] => b
  | p :: ps =>
    let b' := b.finishOp e x y (b.spillRun e x y p ps)
    b'.setCell x y { b'.cell x y with issue := (b.cell x y).issue }

/-- The sums of a CHAIN leave through CHAIN_OUT to the neighbour's CHAIN_IN side, within the partition. -/
def Block.sendSums (b : Block) (x y dir : Nat) (sums : List ChainSum) : Block :=
  match neighbour x y dir with
  | some q =>
    if b.partOfPlate (plateOf q.1 q.2) = b.partOfPlate (plateOf x y) then
      let d := b.cell q.1 q.2
      b.setCell q.1 q.2 { d with chain := mmod [] d.chain (opposite dir) (· ++ sums) }
    else b
  | none => b

/-- The cell as a CHAIN or DRAIN reads it: a mismatch of its residues poisons the entries first (R88). -/
def Block.readsEntries (b : Block) (x y : Nat) (o : OpEntry) (fog : Option Nat) : Cell :=
  if fog.isSome then (b.cell x y).poisonGroup o else b.cell x y

/-- CHAIN (R80). -/
def Block.doChain (b : Block) (e : Env) (x y : Nat) (fog : Option Nat) : Block :=
  match b.issued x y 3 with
  | none => b
  | some (_, o) =>
    if fog = some 4 then b.fogEntry e x y
    else
      let (r, sums) := (b.readsEntries x y o fog).chainOp (b.cellCtx e x y o) o b.brk
      let b := (b.sendSums x y o.chainOut sums).finishOp e x y r
      match fog with
      | none => b
      | some k => b.fogIn e x y k o

/-- Bytes of a DRAIN's epilogue tensor: Mc rows of its columns (R81). -/
def OpEntry.epiBytes (o : OpEntry) : Nat := o.mc * storedBytes (fmtOf o.fmtEpi) (8 * drainTiles (fmtOf o.fmtOut))

/-- DRAIN (R81, R82). With `crowded` set the local store serves neither the epilogue read nor the write in this cycle: the
read repeats its port's last bytes, the write is dropped, and each counts (R85). -/
def Block.doDrain (b : Block) (e : Env) (x y : Nat) (fog : Option Nat) (crowded : Bool) : Block :=
  match b.issued x y 2 with
  | none => b
  | some (i, o) =>
    if fog = some 4 then b.fogEntry e x y
    else
      let wide := { o with mc := o.mc * drainTiles (fmtOf o.fmtOut) }
      let c := b.readsEntries x y wide fog
      let reads := decide (o.epiOp ≠ 0)
      let epi := if crowded then padTo' o.epiBytes (mget [] c.lastRead 0) else c.lsRead o.lsEpi o.epiBytes
      let c := if reads then { c with lastRead := mset [] c.lastRead 0 epi } else c
      let c := if crowded && reads then c.count 5 1 else c
      let (r, out) := c.drainOp (b.cellCtx e x y o) o b.brk i.idx i.pitch epi
      let b := if crowded && o.outDst = 0 then b.finishOp e x y { r with cell := r.cell.count 5 1 }
        else (b.finishOp e x y r).output x y o.outDst o.lsOut out
      match fog with
      | none => b
      | some k => b.fogIn e x y k o
where
  /-- The first `n` bytes, zero-filled. -/
  padTo' (n : Nat) (bs : List (Byte × Bool)) : List (Byte × Bool) := bs.take n ++ clean (zeros (n - bs.length))

/-- The record of a sampled group: a 64 B header (job, physical cell, entry, exposure), the operands, the totals and the
side states. -/
def Block.bracketBytes (b : Block) (x y : Nat) (s : Sampled) : List Byte :=
  let header := leBytes 2 (b.gen (b.partOfPlate (plateOf x y))).regs.jobId ++ leBytes 2 x ++ leBytes 2 (b.physOf x y)
    ++ leBytes 2 s.entry ++ leBytes 2 (twos 16 s.exposure)
  padTo 64 header ++ s.log ++ s.totals

/-- Up to `n` frames for partition 0xF, in the name of the integrity unit. -/
def Block.allocMany (b : Block) (n : Nat) : Block × List Nat :=
  (List.range n).foldl (fun (acc : Block × List Nat) _ =>
    match acc.1.allocNow (5 * 8192 + 2) 15 with
    | (b, some f) => (b, acc.2 ++ [f])
    | (b, none) => (b, acc.2)) (b, [])

/-- Writes a bracket record into its frames and keeps it for its comparison. -/
def Block.keepBracket (b : Block) (e : Env) (x y : Nat) (bytes : List Byte) (fs : List Nat) : Block :=
  let b := (bytes.zip (List.range bytes.length)).foldl
    (fun b p => b.writeGranule e (frameAddr (fs.getD (p.2 / 0x4000) 0) + p.2 % 0x4000) [p.1] false false) b
  let key := (b.int.brackets.foldl (fun m r => max m (r.1 + 1)) 0)
  let rec_ : Bracket := { part := b.partOfPlate (plateOf x y), x := x, y := y, other := none, frames := fs }
  { (b.bumpInt 0x178 1) with int := { (b.bumpInt 0x178 1).int with brackets := mset none b.int.brackets key (some rec_) } }

/-- BRACKET_RECORD_WRITE (R386): the sampled group's record goes into frames of partition 0xF, or is skipped when the port
has no free cycle, when it needs more than 4 frames, or when none can be granted. -/
def Block.doBracketRecord (b : Block) (e : Env) (x y : Nat) (free : Bool) : Block :=
  let c := b.cell x y
  match c.sampled with
  | [] => b
  | s :: more =>
    let bytes := b.bracketBytes x y s
    let b := b.setCell x y { c with sampled := more }
    let n := ceilDiv bytes.length 0x4000
    if !free || 4 < n then b.bumpInt 0x180 1
    else
      let r := b.allocMany n
      if r.2.length < n then (r.2.foldl (fun b f => b.freeFrame e (5 * 8192 + 2) 15 f) r.1).bumpInt 0x180 1
      else r.1.keepBracket e x y bytes r.2

/-! ## Saving and restoring (R86) -/

/-- Where the record of a cell lies in its plate's context-save area. -/
def saveAddr (x y : Nat) : Nat :=
  windowBase + plateOf x y * 0x40000000 + 21120 * (160 * (y % 256) + x % 160)

/-- Whether a cell's region stands at a drain point. -/
def Block.atDrain (b : Block) (x y : Nat) : Bool :=
  match b.regionAt x y with
  | some r => (b.region r).state = .stopped || (b.region r).state = .breakpoint
  | none => true

/-- The requester of a cell's stream port, working for the device in the save area. -/
def Block.saveReq (b : Block) (x y : Nat) : Req :=
  { b.clusterReq (b.partOfPlate (plateOf x y)) (x / 8) (y / 8) 0 with own := true }

def Block.doSave (b : Block) (e : Env) (x y : Nat) : Block :=
  if !b.atDrain x y then b
  else
    let c := b.cell x y
    let b := b.writeMem e (b.saveReq x y) false (saveAddr x y) c.saveBytes
    b.setCell x y { c with issue := none, savedGroups := c.groups }

def Block.doRestore (b : Block) (e : Env) (x y : Nat) : Block :=
  if !b.atDrain x y then b
  else
    let r := b.readMem e (b.saveReq x y) (saveAddr x y) 21120
    r.1.setCell x y { (r.1.cell x y).restoreBytes r.2 with issue := none }

/-- ACLR (R67, R75). -/
def Block.doAclr (b : Block) (e : Env) (x y : Nat) : Block :=
  b.cellOp e x y 6 (fun _ o _ c => { cell := c.aclr o })

/-! ## The vector unit (R83, R437) -/

/-- VLD. With `crowded` set the local store repeats its port's last bytes (R85). -/
def Block.doVld (b : Block) (e : Env) (x y : Nat) (crowded : Bool) : Block :=
  b.cellOp e x y 0x10 (fun i o k c =>
    let n := vldBytes (fmtOf o.fmtA)
    if o.aSrc = 0 then
      let bs := if crowded then mget [] c.lastRead 1 else c.lsRead o.lsA n
      let c := { c with lastRead := mset [] c.lastRead 1 bs }
      (if crowded then c.count 5 1 else c).vld k o bs
    else
      let (c, bs) := c.source o.aSrc o.lsA n i.a
      c.vld k o bs)

/-- VST. With `crowded` set a local-store write is dropped (R85). -/
def Block.doVst (b : Block) (e : Env) (x y : Nat) (crowded : Bool) : Block :=
  match b.issued x y 0x11 with
  | none => b
  | some (i, o) =>
    let (r, out) := (b.cell x y).vst (b.cellCtx e x y o) o i.idx
    if crowded && o.outDst = 0 then b.finishOp e x y { r with cell := r.cell.count 5 1 }
    else (b.finishOp e x y r).output x y o.outDst o.lsOut out

/-- The two-source operations. -/
def Block.vec2 (b : Block) (e : Env) (x y opc : Nat) (f : Nat → Nat → Nat) : Block :=
  b.cellOp e x y opc (fun _ o _ c => c.lanewise o [o.va, o.vb] (fun l => f (l.getD 0 0) (l.getD 1 0)))

/-- The functions of R60. -/
def Block.vec1 (b : Block) (e : Env) (x y opc : Nat) (f : Nat → Nat) : Block :=
  b.cellOp e x y opc (fun _ o _ c => c.lanewise o [o.va] (fun l => f (l.getD 0 0)))

def Block.doVadd (b : Block) (e : Env) (x y : Nat) : Block := b.vec2 e x y 0x12 fadd32
def Block.doVsub (b : Block) (e : Env) (x y : Nat) : Block := b.vec2 e x y 0x13 fsub32
def Block.doVmul (b : Block) (e : Env) (x y : Nat) : Block := b.vec2 e x y 0x14 fmul32
def Block.doVfma (b : Block) (e : Env) (x y : Nat) : Block :=
  b.cellOp e x y 0x15 (fun _ o _ c =>
    c.lanewise o [o.va, o.vb, o.vc] (fun l => ffma32 (l.getD 0 0) (l.getD 1 0) (l.getD 2 0)))
def Block.doVmax (b : Block) (e : Env) (x y : Nat) : Block := b.vec2 e x y 0x16 (fmaxCode fp32Fmt)
def Block.doVmin (b : Block) (e : Env) (x y : Nat) : Block := b.vec2 e x y 0x17 (fminCode fp32Fmt)
def Block.doVcmpgt (b : Block) (e : Env) (x y : Nat) : Block := b.vec2 e x y 0x18 cmpgt32
def Block.doVcvt (b : Block) (e : Env) (x y : Nat) : Block :=
  b.cellOp e x y 0x19 (fun i o k c => c.vcvt k o i.idx)
def Block.doVexp2 (b : Block) (e : Env) (x y : Nat) : Block := b.vec1 e x y 0x1A vexp2
def Block.doVlog2 (b : Block) (e : Env) (x y : Nat) : Block := b.vec1 e x y 0x1B vlog2
def Block.doVrcp (b : Block) (e : Env) (x y : Nat) : Block := b.vec1 e x y 0x1C vrcp
def Block.doVrsqrt (b : Block) (e : Env) (x y : Nat) : Block := b.vec1 e x y 0x1D vrsqrt
def Block.doVtanh (b : Block) (e : Env) (x y : Nat) : Block := b.vec1 e x y 0x1E vtanh
def Block.doVsigm (b : Block) (e : Env) (x y : Nat) : Block := b.vec1 e x y 0x1F vsigm
def Block.doVerf (b : Block) (e : Env) (x y : Nat) : Block := b.vec1 e x y 0x20 verf
def Block.doVsumw (b : Block) (e : Env) (x y : Nat) : Block := b.cellOp e x y 0x21 (fun _ o k c => c.vsumw k o)
def Block.doVmaxr (b : Block) (e : Env) (x y : Nat) : Block := b.cellOp e x y 0x22 (fun _ o _ c => c.vmaxr o)
def Block.doVacc (b : Block) (e : Env) (x y : Nat) : Block := b.cellOp e x y 0x23 (fun _ o k c => c.vacc k o)

end Sys2Proof.Machine
end

