-- ==== Sys2Proof/Machine/Collective.lean ====
section
/-! DEFINITION. Collective exchange (R281 to R297): blocks, rings, chains, pieces, credits. -/
namespace Sys2Proof.Machine

/-! ## The collective block (R282, R283) -/

def CollBlock.ofBytes (bs : List Byte) : CollBlock where
  op := leAt bs 0 1
  mode := leAt bs 1 1
  dims := ((List.range 3).map (fun i => bits (leAt bs 2 1) (2 * i + 1) (2 * i)))
  flags := leAt bs 3 1
  expSlot := leAt bs 4 2 % 2048
  fmtIn := leAt bs 6 1
  fmtOut := leAt bs 7 1
  rop := leAt bs 8 1 % 16
  queue := leAt bs 9 1 % 64
  peer := leAt bs 10 2 % 1024
  elems := leAt bs 12 4
  src := leAt bs 16 6
  dst := leAt bs 24 6
  scratch := leAt bs 32 6
  signal := leAt bs 40 2 % 8192
  signalEn := bit (leAt bs 40 2) 15
  reserved := decide (6 < leAt bs 0 1) || decide (2 < leAt bs 1 1) || decide (leAt bs 2 1 / 64 ≠ 0)
    || decide (bits (leAt bs 3 1) 3 2 = 3) || decide (bits (leAt bs 3 1) 5 4 = 3) || decide (leAt bs 3 1 / 64 ≠ 0)
    || decide (leAt bs 4 2 / 2048 ≠ 0) || (Fmt.ofCode (leAt bs 6 1)).isNone || (Fmt.ofCode (leAt bs 7 1)).isNone
    || decide (12 < leAt bs 8 1) || decide (leAt bs 9 1 / 64 ≠ 0) || decide (leAt bs 10 2 / 1024 ≠ 0)
    || decide (leAt bs 22 2 ≠ 0) || decide (leAt bs 30 2 ≠ 0) || decide (leAt bs 38 2 ≠ 0)
    || decide (bits (leAt bs 40 2) 14 13 ≠ 0) || (bs.drop 42).any (fun x => x ≠ 0)
  sig := crc32c (bs.take 8 ++ (bs.drop 12).take 4)

def CollBlock.bidir (k : CollBlock) : Bool := bit k.flags 0
def CollBlock.cmpr (k : CollBlock) : Bool := bit k.flags 1
def CollBlock.srcClass (k : CollBlock) : Nat := bits k.flags 3 2
def CollBlock.dstClass (k : CollBlock) : Nat := bits k.flags 5 4
def CollBlock.fin (k : CollBlock) : Fmt := fmtOf k.fmtIn
def CollBlock.fout (k : CollBlock) : Fmt := fmtOf k.fmtOut

/-- The dimensions of the phases in order, with their phase numbers. -/
def CollBlock.phases (k : CollBlock) : List (Nat × Nat) :=
  ((List.range 3).zip k.dims).filter (fun p => p.2 ≠ 3)

/-- Torus size in a dimension, and a coordinate in it. -/
def Topology.size (t : Topology) (d : Nat) : Nat := max 1 (if d = 0 then t.sx else if d = 1 then t.sy else t.sz)
def coordIn (c : Nat × Nat × Nat) (d : Nat) : Nat := if d = 0 then c.1 else if d = 1 then c.2.1 else c.2.2
def Topology.here (t : Topology) : Nat × Nat × Nat := (t.coord t.self).getD (0, 0, 0)

/-- D of R284. -/
def CollBlock.total (k : CollBlock) (t : Topology) : Nat := (k.phases.map (fun p => t.size p.2)).foldl (· * ·) 1

/-! ## Phases (R284 to R286) -/

/-- One phase that takes hops: kind 0 reduce-scatter, 1 all-gather, 2 broadcast, 3 all-to-all; its PHASE number; its
dimension, ring size and this device's coordinate; the elements each member holds at its start; where they begin, in
elements, in SRC (`first`), SCRATCH or DST; the origin's coordinate for a broadcast; and whether it is the last
reduce-scatter phase. -/
structure CollStep where
  kind : Nat
  idx : Nat
  dim : Nat
  s : Nat
  c : Nat
  n : Nat
  base : Nat := 0
  origin : Nat := 0
  first : Bool := false
  last : Bool := false
deriving DecidableEq, Repr

/-- Reduce-scatter phases from the list of phase number and dimension. -/
def scatterSteps (t : Topology) (here : Nat × Nat × Nat) : List (Nat × Nat) → Nat → Nat → Bool → List CollStep
  | [], _, _, _ => []
  | (i, d) :: ps, n, base, first =>
    let s := t.size d
    if s ≤ 1 then scatterSteps t here ps n base first
    else
      let c := coordIn here d
      let m := n / s
      { kind := 0, idx := i, dim := d, s := s, c := c, n := n, base := base, first := first
        last := ps.all (fun q => t.size q.2 ≤ 1) }
        :: scatterSteps t here ps m (if first then 0 else base + c * m) false

/-- All-gather phases: blocks of `h` elements, the held block beginning at `start`. -/
def gatherSteps (t : Topology) (here : Nat × Nat × Nat) : List (Nat × Nat) → Nat → Nat → List CollStep
  | [], _, _ => []
  | (i, d) :: ps, h, start =>
    let s := t.size d
    if s ≤ 1 then gatherSteps t here ps h start
    else
      let c := coordIn here d
      { kind := 1, idx := i, dim := d, s := s, c := c, n := h, base := start - c * h }
        :: gatherSteps t here ps (h * s) (start - c * h)

/-- Broadcast phases: a device takes part once every later and unnamed dimension agrees with the root's. -/
def bcastSteps (t : Topology) (here root : Nat × Nat × Nat) (n : Nat) : List (Nat × Nat) → List CollStep
  | [] => []
  | (i, d) :: ps =>
    let rest := bcastSteps t here root n ps
    let s := t.size d
    if s ≤ 1 then rest
    else if ps.all (fun q => decide (coordIn here q.2 = coordIn root q.2)) then
      { kind := 2, idx := i, dim := d, s := s, c := coordIn here d, n := n, origin := coordIn root d } :: rest
    else rest

/-- The shard index σ (R284): the listed phases, the first most significant. -/
def shardOf (t : Topology) (here : Nat × Nat × Nat) (ps : List (Nat × Nat)) : Nat :=
  ps.foldl (fun n p => n * t.size p.2 + coordIn here p.2) 0

/-- The phases of an operation that take hops, in order. -/
def CollBlock.plan (k : CollBlock) (t : Topology) : List CollStep :=
  let here := t.here
  let ps := k.phases
  let d := k.total t
  let back := ((List.range ps.length).zip (ps.reverse.map Prod.snd))
  match k.op with
  | 0 => scatterSteps t here ps k.elems 0 true
  | 1 => gatherSteps t here ps (k.elems / d) (shardOf t here ps.reverse * (k.elems / d))
  | 2 => scatterSteps t here ps k.elems 0 true ++ gatherSteps t here back (k.elems / d) (shardOf t here ps * (k.elems / d))
  | 3 =>
    let root := (t.coord k.peer).getD (0, 0, 0)
    let out := [0, 1, 2].filter (fun x => !(ps.map Prod.snd).contains x)
    if out.all (fun x => decide (coordIn here x = coordIn root x)) then bcastSteps t here root k.elems ps else []
  | 4 => (ps.take 1).flatMap (fun p =>
      if t.size p.2 ≤ 1 then []
      else [{ kind := 3, idx := p.1, dim := p.2, s := t.size p.2, c := coordIn here p.2, n := k.elems }])
  | _ => []

/-- Why a part's start refuses the command, as the number of the condition of R283. -/
def CollBlock.fault (k : CollBlock) (t : Topology) (job : List Nat) : Option Nat :=
  let ds := k.phases.map Prod.snd
  let d := k.total t
  let unit := if k.fin = .g16 then 1024 * d else d
  let group := if k.fin.block = 1 then 1 else k.fin.groupElems
  let here := t.here
  let ring := t.coords.map Prod.fst |>.filter (fun i =>
    match t.coord i with
    | some c => [0, 1, 2].all (fun x => ds.contains x || decide (coordIn c x = coordIn here x))
    | none => false)
  if k.reserved then some 0
  else if ds.isEmpty || ds.eraseDups.length ≠ ds.length then some 1
  else if (k.mode = 1 && k.fin ≠ .g16) || (k.mode = 0 && k.fin ≠ .acc96) || (k.mode = 2 && (k.op = 0 || k.op = 2)) then some 2
  else if (k.op = 0 || k.op = 2) && k.elems % unit ≠ 0 then some 3
  else if k.op = 1 && (k.elems % d ≠ 0 || k.elems / d % group ≠ 0) then some 3
  else if 3 ≤ k.op && k.elems % group ≠ 0 then some 3
  else if ring.any (fun i => !job.contains i) then some 4
  else if k.scratch = 0 && 2 ≤ ((k.plan t).filter (fun s => s.kind = 0)).length then some 5
  else none

/-! ## Engines -/

def Block.ce (b : Block) (x : Nat) : CollEngine := mget {} b.coll.engines x
def Block.setCe (b : Block) (x : Nat) (c : CollEngine) : Block :=
  { b with coll := { b.coll with engines := mset {} b.coll.engines x c } }
def Block.bumpCe (b : Block) (x off n : Nat) : Block :=
  b.setCe x { b.ce x with counters := bump (b.ce x).counters off n }

/-- The command of a part. -/
def Block.collCmd (b : Block) (q s : Nat) : Option CollCmd :=
  b.coll.cmds.find? (fun c => decide (c.queue = q) && decide (c.seq = s))
def Block.setCmd (b : Block) (c : CollCmd) : Block :=
  { b with coll := { b.coll with cmds := b.coll.cmds.map (fun x => if x.queue = c.queue && x.seq = c.seq then c else x) } }

/-- Active part `i` of a partition on an engine. -/
def Block.collPart (b : Block) (x p i : Nat) : Option CollPart := (mget [] (b.ce x).active p)[i]?
def Block.setCollPart (b : Block) (x p i : Nat) (c : CollPart) : Block :=
  let ce := b.ce x
  b.setCe x { ce with active := mset [] ce.active p ((mget [] ce.active p).set i c) }

/-- A class-1 record of an engine (R297). -/
def Block.collEvent (b : Block) (e : Env) (x p code phase num sig : Nat) (more : List (Nat × Nat × Nat)) : Block :=
  b.post e { cls := 1, sev := 1, code := code, part := p, source := 0x48 + x
             payload := [(24, 1, x), (25, 1, phase), (28, 4, num), (32, 4, sig)] ++ more }

/-- A record limited to one per campus millisecond per engine. -/
def Block.collRare (b : Block) (e : Env) (x p code phase num sig : Nat) (more : List (Nat × Nat × Nat)) : Block :=
  let ce := b.ce x
  if limited ce.lastEvt e code then b
  else (b.setCe x { ce with lastEvt := mset 0 ce.lastEvt code (e.ms + 1) }).collEvent e x p code phase num sig more

def ceReq (b : Block) (x p gclass : Nat) : Req :=
  { id := 2 * 8192 + x, part := p, job := b.holdsJob p, gclass := gclass }

/-! ## Elements (R52, R289, R294) -/

/-- An element in an engine: its window value, side state, poison, and whether it was rounded on entry. -/
structure CollElem where
  val : Int
  side : Side
  poison : Bool
  rounded : Bool
deriving DecidableEq, Repr

/-- Byte offset of element `i` of a dense area (R38). -/
def Fmt.offsetOf (f : Fmt) (i : Nat) : Nat := if f.block = 1 then f.packed i else i / f.groupElems * f.groupBytes

/-- An exact value entering the window. -/
def enter (e : Int) (v : Num) (poison : Bool) : CollElem :=
  let w := if v.isFinite then toWindow e v else 0
  let back := ofWindow e w
  { val := w, side := Side.ofNum v, poison := poison, rounded := v.isFinite && (back.lt v || v.lt back) }

/-- Decodes `n` G16 or ACC96 elements. -/
def decodeWire (f : Fmt) (e : Int) (n : Nat) (bs : List (Byte × Bool)) : List CollElem :=
  let raw := bs.map Prod.fst
  let bad (i k : Nat) : Bool := ((bs.drop i).take k).any Prod.snd
  (List.range n).map (fun i =>
    if f = .g16 then
      let g := 2064 * (i / 1024)
      let j := i % 1024
      enter e (elemValue .g16 (leAt raw (g + j / 64) 1) (leAt raw (g + 16 + 2 * j) 2)).1
        (bad (g + j / 64) 1 || bad (g + 16 + 2 * j) 2)
    else
      let v := acc96Of (leAt raw (12 * i) 12)
      { val := v.1, side := v.2, poison := bad (12 * i) 12, rounded := false })

/-- The sum of two elements, wrapped modulo 2^96, and whether it wrapped (R294). -/
def addElem (x y : CollElem) : CollElem × Bool :=
  let t := x.val + y.val
  ({ val := sext 96 (twos 96 t), side := x.side.merge y.side, poison := x.poison || y.poison, rounded := false },
   x.side = .finite && y.side = .finite && overflow96 t)

def addElems (xs ys : List CollElem) : List CollElem × Nat :=
  let l := (xs.zip ys).map (fun p => addElem p.1 p.2)
  (l.map Prod.fst, (l.filter (fun r => r.2)).length)

/-- What an element is to a conversion. -/
def CollElem.src (e : Int) (x : CollElem) : Src := .num (if x.side = .finite then ofWindow e x.val else .nan)

/-- Elements as one dense area of a format, every byte of a poisoned element (and its block's scale) marked; and the
blocks that range forced to scale 0xFF (R41, R54, R57, R294). -/
def encodeWire (f : Fmt) (e : Int) (xs : List CollElem) : List (Byte × Bool) × Nat :=
  if f = .acc96 || f = .acc64 then
    let w := if f = .acc96 then 96 else 64
    (xs.flatMap (fun x => (leBytes (w / 8) (accRaw w x.val x.side)).map (fun y => (y, x.poison))), 0)
  else if f.block = 1 then
    let bs := packRaw f (xs.map (fun x => (encodeElem f .rne false (x.src e)).1))
    ((bs.zip (List.range bs.length)).map (fun p =>
      (p.1, (xs.drop (8 * p.2 / f.elemBits)).headD ⟨0, .finite, false, false⟩ |>.poison)), 0)
  else
    let groups := chunksOf f.groupElems xs
    let coded := groups.map (fun g =>
      let blocks := (chunksOf f.block g).map (fun k =>
        let c := encodeBlock f false false (fun _ => .rne) (k.map (fun x => x.src e))
        let pz := k.any (fun x => x.poison)
        let ovfl := f = .g16 && c.scale = 0xFF && k.all (fun x => x.side = .finite)
        ((leBytes f.scaleBytes c.scale).map (fun y => (y, pz)), (packRaw f c.elems).map (fun y => (y, pz)), ovfl))
      (blocks.flatMap (fun k => k.1) ++ blocks.flatMap (fun k => k.2.1), (blocks.filter (fun k => k.2.2)).length))
    (coded.flatMap Prod.fst, (coded.map Prod.snd).sum)

/-! ## Chains (R285, R286) -/

/-- Elements of one segment of a phase. -/
def CollStep.segLen (st : CollStep) : Nat := if st.kind = 0 then st.n / st.s else st.n

/-- The start and length of a half-segment (R285). -/
def halfRange (f : Fmt) (bidir : Bool) (len half : Nat) : Nat × Nat :=
  let u := if f.block = 1 then 1 else f.groupElems
  let h := (len / u + 1) / 2 * u
  if !bidir then (0, if half = 0 then len else 0) else if half = 0 then (0, h) else (h, len - h)

/-- The format on the wire in a phase. -/
def CollBlock.wire (k : CollBlock) (st : CollStep) : Fmt :=
  if st.kind = 0 then (if k.mode = 1 then .g16 else .acc96) else if st.kind = 1 && k.op = 2 then k.fout else k.fin

/-- The half that an engine of sign `m` (0 for +) handles; none where it handles nothing. -/
def CollBlock.half (k : CollBlock) (st : CollStep) (m : Nat) : Option Nat :=
  if st.kind = 3 then some 0 else if k.bidir then some m else if m = 0 then some 0 else none

/-- This device's position in the chain of segment `j` in direction `m` (R285, R286). -/
def CollStep.pos (st : CollStep) (m j : Nat) : Nat :=
  let d (a c : Nat) : Nat := (a + st.s - c) % st.s
  match st.kind with
  | 0 => if m = 0 then d st.c ((j + 1) % st.s) else d ((j + st.s - 1) % st.s) st.c
  | 1 => if m = 0 then d st.c j else d j st.c
  | _ => if m = 0 then d st.c st.origin else d st.origin st.c

/-- The segments of a phase. -/
def CollStep.segs (st : CollStep) : List Nat := if st.kind = 2 then [0] else List.range st.s

/-- The key of a chain. -/
def chainKey (i half seg : Nat) : Nat := (2 * i + half) * 1024 + seg

/-- Whether a hop over `d` of a ring of `s` goes in the + direction (R267). -/
def goesPlus (s d : Nat) : Bool := decide (2 * d ≤ s)

/-- The device at ring coordinate `c` of a dimension. -/
def Topology.onRing (t : Topology) (dim c : Nat) : Option Nat :=
  let h := t.here
  if dim = 0 then t.idAt c h.2.1 h.2.2 else if dim = 1 then t.idAt h.1 c h.2.2 else t.idAt h.1 h.2.1 c

/-- The coordinate of the next device of a chain, and of the one before. -/
def CollStep.nextC (st : CollStep) (m : Nat) : Nat := if m = 0 then (st.c + 1) % st.s else (st.c + st.s - 1) % st.s
def CollStep.prevC (st : CollStep) (m : Nat) : Nat := st.nextC (1 - m)

/-! ## Segments on the wire (R287) -/

def Segment.ofMsg (m : Msg) : Segment :=
  let h := (m.data.take 32).map Prod.fst
  { num := leAt h 0 4, sig := leAt h 4 4, phase := leAt h 8 1, half := leAt h 9 1, kind := leAt h 10 1
    credits := leAt h 11 1, seg := leAt h 12 4, off := leAt h 16 4, count := leAt h 20 4, data := m.data.drop 32 }

def Segment.header (s : Segment) : List Byte :=
  leBytes 4 s.num ++ leBytes 4 s.sig ++ leBytes 1 s.phase ++ leBytes 1 s.half ++ leBytes 1 s.kind ++ leBytes 1 s.credits
    ++ leBytes 4 s.seg ++ leBytes 4 s.off ++ leBytes 4 s.count ++ zeros 8

/-- Sends a segment to a device. -/
def Block.sendSeg (b : Block) (e : Env) (x p dst : Nat) (cmpr : Bool) (ex : Int) (f : Fmt) (s : Segment) : Block :=
  let g := (b.gen p).regs
  let data := clean s.header ++ s.data
  b.sendMsg e { mtype := 3, flags := b2n cmpr, src := 0, dst := dst, parts := 17 * p, rop := 0, job := g.jobId
                epoch := g.epoch, mid := 0, length := data.length, addr := x, signal := 0
                expfmt := twos 10 ex + 1024 * f.code, qseq := 0, data := data }

/-- Grants credits to the device before this one in a chain (R288); it receives them on the same engine. -/
def Block.grantCredit (b : Block) (e : Env) (x p : Nat) (k : CollBlock) (num : Nat) (st : CollStep) (i m half seg n : Nat) : Block :=
  let c := if st.kind = 3 then seg else st.prevC m
  match b.topo.onRing st.dim c with
  | none => b
  | some d => b.sendSeg e x p d false 0 (k.wire st)
      { num := num, sig := k.sig, phase := st.idx, half := half, kind := 1, credits := n, seg := seg, off := i, count := 0, data := [] }

/-! ## Data of this device -/

/-- What this device sends at the head of a chain: elements [off, off + n) of its half-segment. -/
def Block.ownWire (b : Block) (e : Env) (x p : Nat) (k : CollBlock) (ex : Int) (st : CollStep) (seg start n : Nat) :
    Block × List (Byte × Bool) × Nat :=
  let f := k.wire st
  if st.kind = 0 then
    let a := seg * st.segLen + start
    if st.first then
      let r := b.readMem e (ceReq b x p k.srcClass) (k.src + f.offsetOf a) (f.offsetOf n)
      (r.1, r.2, 0)
    else
      let r := b.readMem e (ceReq b x p 0) (k.scratch + 12 * (st.base + a)) (12 * n)
      let w := encodeWire f ex (decodeWire .acc96 ex n r.2)
      (r.1, w.1, w.2)
  else
    let r :=
      if st.kind = 3 then b.readMem e (ceReq b x p k.srcClass) (k.src + f.offsetOf (seg * st.n + start)) (f.offsetOf n)
      else if st.kind = 2 then b.readMem e (ceReq b x p k.srcClass) (k.src + f.offsetOf start) (f.offsetOf n)
      else b.readMem e (ceReq b x p k.dstClass) (k.dst + f.offsetOf (st.base + seg * st.n + start)) (f.offsetOf n)
    (r.1, r.2, 0)

/-- This device's own elements at a reduce-scatter position. -/
def Block.ownElems (b : Block) (e : Env) (x p : Nat) (k : CollBlock) (ex : Int) (st : CollStep) (seg start n : Nat) :
    Block × List CollElem :=
  let a := seg * st.segLen + start
  let r := if st.first then b.readMem e (ceReq b x p k.srcClass) (k.src + k.fin.offsetOf a) (k.fin.offsetOf n)
    else b.readMem e (ceReq b x p 0) (k.scratch + 12 * (st.base + a)) (12 * n)
  (r.1, decodeWire (if st.first then k.fin else .acc96) ex n r.2)

/-- Writes into DST under DELIV_ROP (R282). -/
def Block.deliver (b : Block) (e : Env) (x p : Nat) (k : CollBlock) (ex : Int) (f : Fmt) (at_ : Nat) (bs : List (Byte × Bool)) :
    Block :=
  b.reduceMem e (ceReq b x p k.dstClass) k.rop f ex k.cmpr (k.dst + f.offsetOf at_) bs

/-- Keeps the result of a chain that ends here (R285, R286): at SCRATCH for a later phase, else in DST. -/
def Block.keepResult (b : Block) (e : Env) (x p : Nat) (k : CollBlock) (ex : Int) (st : CollStep) (start : Nat) (xs : List CollElem) :
    Block × Nat :=
  if !st.last then
    let at_ := (if st.first then 0 else st.base + st.c * st.segLen) + start
    (b.writeMem e (ceReq b x p 0) false (k.scratch + 12 * at_) (encodeWire .acc96 ex xs).1, 0)
  else if k.op = 0 then (b.deliver e x p k ex .acc96 start (encodeWire .acc96 ex xs).1, 0)
  else
    let w := encodeWire k.fout ex xs
    let sh := shardOf b.topo b.topo.here k.phases * (k.elems / k.total b.topo)
    (b.deliver e x p k ex k.fout (sh + start) w.1, w.2)

/-! ## Progress of a part -/

/-- Pieces of `len` elements (R287). -/
def pieces (len : Nat) : Nat := (len + 32767) / 32768

/-- Elements of piece `i`. -/
def pieceLen (len i : Nat) : Nat := min 32768 (len - 32768 * i)

/-- Sends the next piece of a chain that starts here, while credits last (R285, R288). -/
def Block.sendOwnFuel (e : Env) (x p i : Nat) (k : CollBlock) (ex : Int) (st : CollStep) (si half seg dst : Nat) : Nat → Block → Block
  | 0, b => b
  | fuel + 1, b =>
    match b.collPart x p i with
    | none => b
    | some c =>
      let key := chainKey si half seg
      let f := k.wire st
      let r := halfRange f (k.bidir && st.kind ≠ 3) st.segLen half
      let n := mget 0 c.sent key
      if pieces r.2 ≤ n || mget 0 c.credits key = 0 then b
      else
        let cnt := pieceLen r.2 n
        let w := b.ownWire e x p k ex st seg (r.1 + 32768 * n) cnt
        let b := w.1
        let b := b.setCollPart x p i { c with
          sent := mset 0 c.sent key (n + 1), credits := mmod 0 c.credits key (· - 1) }
        let b := (b.bumpCe x 0x108 w.2.1.length)
        let b := if st.kind = 0 && !st.first && f = .g16 then b.bumpCe x 0x118 (cnt / 64) else b
        let b := if w.2.2 = 0 then b
          else (b.bumpCe x 0x130 w.2.2).collRare e x p 0x203 st.idx (c.num.getD 0) k.sig [(36, 4, seg)]
        let out := if st.kind = 3 then st.c else seg
        let b := b.sendSeg e x p dst k.cmpr ex f
          { num := c.num.getD 0, sig := k.sig, phase := st.idx, half := half, kind := 0, credits := 0, seg := out
            off := 32768 * n, count := cnt, data := w.2.1 }
        Block.sendOwnFuel e x p i k ex st si half seg dst fuel b

/-- Sends what one engine may send of one phase: the chains that begin at this device. -/
def Block.sendStep (b : Block) (e : Env) (x p i : Nat) (k : CollBlock) (ex : Int) (si : Nat) (st : CollStep) : Block :=
  if st.dim ≠ x / 2 then b
  else
    let m := x % 2
    match k.half st m with
    | none => b
    | some half =>
      let fuel := pieces st.segLen + 1
      if st.kind = 3 then
        st.segs.foldl (fun b j =>
          let d := (j + st.s - st.c) % st.s
          if d ≠ 0 && goesPlus st.s d = decide (m = 0) then
            match b.topo.onRing st.dim j with
            | some dst => Block.sendOwnFuel e x p i k ex st si half j dst fuel b
            | none => b
          else b) b
      else
        match b.topo.onRing st.dim (st.nextC m) with
        | none => b
        | some dst => st.segs.foldl (fun b j =>
            if st.pos m j = 0 then Block.sendOwnFuel e x p i k ex st si half j dst fuel b else b) b

/-- Whether a piece is what its phase expects (R293). -/
def CollBlock.expects (k : CollBlock) (st : CollStep) (s : Segment) : Bool :=
  let r := halfRange (k.wire st) (k.bidir && st.kind ≠ 3) st.segLen s.half
  decide (s.seg < max 1 (if st.kind = 2 then 1 else st.s)) && decide (s.off % 32768 = 0) && decide (s.off < r.2)
    && decide (s.count = pieceLen r.2 (s.off / 32768))

/-- The step of a plan that a segment belongs to on an engine: its place and itself. Of an ALL_REDUCE's two phases with one
number and dimension the data length tells which. -/
def CollBlock.stepOf (k : CollBlock) (t : Topology) (x : Nat) (s : Segment) (data : Bool) : Option (Nat × CollStep) :=
  let ps := k.plan t
  ((List.range ps.length).zip ps).find? (fun q =>
    decide (q.2.idx = s.phase) && decide (q.2.dim = x / 2) &&
      (if data then k.expects q.2 s && decide (s.data.length = (k.wire q.2).offsetOf s.count) else decide (s.off = q.1)))

/-- Elements that the phase `st` brings to this device. -/
def CollStep.incoming (st : CollStep) : Nat :=
  match st.kind with
  | 0 => st.segLen
  | 1 => (st.s - 1) * st.n
  | 2 => if st.c = st.origin then 0 else st.n
  | _ => (st.s - 1) * st.n

/-- Where an incoming piece stands: whether its chain goes on from here. -/
def CollStep.goesOn (st : CollStep) (m seg : Nat) : Bool :=
  if st.kind = 3 then false else decide (st.pos m seg + 1 < st.s)

/-- The address in DST, in elements, of a piece that is copied there. -/
def CollStep.copyAt (st : CollStep) (seg start : Nat) : Nat :=
  match st.kind with
  | 1 => st.base + seg * st.n + start
  | 3 => seg * st.n + start
  | _ => start

/-- Handles one staged piece (R285, R286, R291, R294): added or copied, passed on, kept. None when it must wait for a
credit or for the latent bank. -/
def Block.takePiece (b : Block) (e : Env) (x p i : Nat) (cmd : CollCmd) (si : Nat) (st : CollStep) (s : Segment) : Option Block :=
  let k := cmd.block
  let ex := cmd.exposure
  let m := x % 2
  let f := k.wire st
  let key := chainKey si s.half s.seg
  let start := (halfRange f (k.bidir && st.kind ≠ 3) st.segLen s.half).1 + s.off
  let on := st.goesOn m s.seg
  match b.collPart x p i with
  | none => none
  | some c =>
    if on && mget 0 c.credits key = 0 then none
    else if !on && b.writeWaits e (ceReq b x p k.dstClass) k.dst then none
    else
      let c := { c with
        stage := c.stage.erase s
        credits := if on then mmod 0 c.credits key (· - 1) else c.credits
        sent := if on then mmod 0 c.sent key (· + 1) else c.sent }
      let b := b.setCollPart x p i c
      let pass (b : Block) (data : List (Byte × Bool)) : Block :=
        match b.topo.onRing st.dim (st.nextC m) with
        | none => b
        | some d => (b.bumpCe x 0x108 data.length).sendSeg e x p d k.cmpr ex f { s with data := data }
      let b : Block :=
        if st.kind = 0 then
          let inc := decodeWire f ex s.count s.data
          let own := b.ownElems e x p k ex st s.seg start s.count
          let b := own.1
          let rounded := ((inc.append own.2).filter (fun y => y.rounded)).length
          let sum := addElems inc own.2
          let b := (b.bumpCe x 0x120 rounded).bumpCe x 0x128 sum.2
          let b := if sum.2 = 0 then b else b.windowWrap e p k.dst (0x48 + x)
          let ovf (b : Block) (n : Nat) : Block := if n = 0 then b
            else (b.bumpCe x 0x130 n).collRare e x p 0x203 st.idx s.num k.sig [(36, 4, s.seg)]
          if on then
            let w := encodeWire f ex sum.1
            let b := if f = .g16 then b.bumpCe x 0x118 (s.count / 64) else b
            pass (ovf b w.2) w.1
          else
            let r := b.keepResult e x p k ex st start sum.1
            let b := ovf r.1 r.2
            let pz := if st.last then (sum.1.filter (fun y => y.poison)).length else 0
            let b := if pz = 0 then b else b.bumpCe x 0x138 pz
            b.setCmd { cmd with todo := cmd.todo - s.count, poisoned := cmd.poisoned + pz }
        else
          let w := st.copyAt s.seg start
          let b := b.deliver e x p k ex f w s.data
          let pz := if s.data.any Prod.snd then
              let unit := if f.block = 1 then max 1 (f.elemBits / 8) else f.groupBytes
              ((chunksOf unit s.data).filter (fun g => g.any Prod.snd)).length * (if f.block = 1 then 1 else f.groupElems)
            else 0
          let b := if pz = 0 then b else b.bumpCe x 0x138 pz
          let b := b.setCmd { cmd with todo := cmd.todo - s.count, poisoned := cmd.poisoned + pz }
          if on then pass b s.data else b
      some (b.grantCredit e x p k s.num st si m s.half s.seg 1)

/-- Handles every staged piece of the phases up to the one in progress. -/
def Block.takeStaged (b : Block) (e : Env) (x p i : Nat) : Block :=
  match b.collPart x p i with
  | none => b
  | some c => c.stage.foldl (fun b s =>
      match b.collCmd c.queue c.seq with
      | none => b
      | some cmd =>
        match cmd.block.stepOf b.topo x s true with
        | some (si, st) => if si ≤ cmd.phase then (b.takePiece e x p i cmd si st s).getD b else b
        | none => b) b

/-- Whether a part has sent its last piece (R281). -/
def Block.partSpent (b : Block) (x : Nat) (c : CollPart) : Bool :=
  match b.collCmd c.queue c.seq with
  | none => true
  | some cmd =>
    let k := cmd.block
    let ps := k.plan b.topo
    let m := x % 2
    cmd.started && ((List.range ps.length).zip ps).all (fun q =>
      let st := q.2
      if st.dim ≠ x / 2 then true
      else match k.half st m with
        | none => true
        | some half =>
          let n := pieces (halfRange (k.wire st) (k.bidir && st.kind ≠ 3) st.segLen half).2
          st.segs.all (fun j =>
            let out := if st.kind = 3 then
                let d := (j + st.s - st.c) % st.s
                d ≠ 0 && goesPlus st.s d = decide (m = 0)
              else decide (st.pos m j + 1 < st.s)
            !out || decide (n ≤ mget 0 c.sent (chainKey q.1 half j))))

/-- Every active part of a command. -/
def Block.partsOf (b : Block) (q s : Nat) : List (Nat × Nat × Nat × CollPart) :=
  b.coll.engines.flatMap (fun x => x.2.active.flatMap (fun a =>
    ((List.range a.2.length).zip a.2).filterMap (fun c =>
      if c.2.queue = q && c.2.seq = s then some (x.1, a.1, c.1, c.2) else none)))

/-- Moves a command to its next phase while the one in progress has brought everything (R285, R286). -/
def Block.nextPhase (q s : Nat) : Nat → Block → Block
  | 0, b => b
  | n + 1, b =>
    match b.collCmd q s with
    | none => b
    | some cmd =>
      let ps := cmd.block.plan b.topo
      if cmd.started && cmd.todo = 0 && cmd.phase < ps.length then
        let todo := match ps[cmd.phase + 1]? with | some st => st.incoming | none => 0
        Block.nextPhase q s n (b.setCmd { cmd with phase := cmd.phase + 1, todo := todo })
      else b

/-- A command whose last phase is through and whose parts have sent everything: SIGNAL, the poison record, its parts
leave their engines and the queue's command may complete (R281, R282, R291). -/
def Block.finishColl (b : Block) (e : Env) (q s : Nat) : Block :=
  match b.collCmd q s with
  | none => b
  | some cmd =>
    let parts := b.partsOf q s
    let waits := b.coll.engines.any (fun x => x.2.queued.any (fun a => a.2.any (fun c => c.queue = q && c.seq = s)))
    let spent := !waits && parts.all (fun r => b.partSpent r.1 r.2.2.2)
    let all := cmd.started && decide ((cmd.block.plan b.topo).length ≤ cmd.phase) && (cmd.block.op < 5 || cmd.finished)
    let b := if spent then
        b.setQueue q ((b.queue q).update s (fun r => if r.phase = .executing then { r with phase := .retired } else r))
      else b
    if !(spent && all) then b
    else
      let b := parts.foldl (fun b r =>
        let ce := b.ce r.1
        let l := (mget [] ce.active r.2.1).filter (fun c => !(c.queue = q && c.seq = s))
        (b.setCe r.1 { ce with active := mset [] ce.active r.2.1 l }).bumpCe r.1 0x100 1) b
      let x := ((parts.head?).map Prod.fst).getD 0
      let b := if cmd.poisoned = 0 then b
        else b.collEvent e x cmd.part 0x204 0 (((parts.head?).bind (fun r => r.2.2.2.num)).getD 0) cmd.block.sig [(36, 8, cmd.poisoned)]
      let b := if cmd.block.signalEn then b.syncAdd e (2 * 8192 + x) cmd.part cmd.block.signal 1 else b
      { b with coll := { b.coll with cmds := b.coll.cmds.filter (fun c => !(c.queue = q && c.seq = s)) } }

/-- What every engine that works on a command may do now. -/
def Block.collRound (b : Block) (e : Env) (q s : Nat) : Block :=
  (b.partsOf q s).foldl (fun b r =>
    match b.collCmd q s with
    | none => b
    | some cmd =>
      let ps := cmd.block.plan b.topo
      let b := b.takeStaged e r.1 r.2.1 r.2.2.1
      (((List.range ps.length).zip ps).take (cmd.phase + 1)).foldl
        (fun b st => b.sendStep e r.1 r.2.1 r.2.2.1 cmd.block cmd.exposure st.1 st.2) b) b

/-- Rounds until every phase that can end has ended. -/
def Block.collFuel (e : Env) (q s : Nat) : Nat → Block → Block
  | 0, b => b
  | n + 1, b =>
    let b' := Block.nextPhase q s 8 (b.collRound e q s)
    let moved := decide ((b'.collCmd q s).map (fun c => c.phase) ≠ (b.collCmd q s).map (fun c => c.phase))
    if moved then Block.collFuel e q s n b' else b'

def Block.advanceColl (b : Block) (e : Env) (q s : Nat) : Block := (Block.collFuel e q s 8 b).finishColl e q s

/-! ## The commands -/

/-- The collective command that a queue executes. -/
def Block.activeColl (b : Block) (q : Nat) : Option Running :=
  match (b.queue q).active with
  | some r => if r.desc.opc = 5 then some r else none
  | none => none

/-- The engines that a command uses (R281, R286); the lead where it takes no hop. -/
def CollBlock.engines (k : CollBlock) (t : Topology) (lead : Nat) : List Nat :=
  let hop := if k.op = 5 then ((t.nextHop t.self k.peer).map (fun r => [r.2])).getD [lead] else []
  let ring := (k.plan t).flatMap (fun st =>
    if k.bidir || st.kind = 3 then [2 * st.dim, 2 * st.dim + 1] else [2 * st.dim])
  let l := (hop ++ ring).eraseDups
  if l.isEmpty then [lead] else l

/-- COLL (R281): the lead splits the queue's command into parts, one for each engine it uses. -/
def Block.doColl (b : Block) (e : Env) (q : Nat) : Block :=
  match b.activeColl q with
  | none => b
  | some r =>
    if (b.collCmd q r.seq).isSome then b
    else
      let lead := (b.queue q).engine - 40
      let bs := b.readArg e (2 * 8192 + lead) (b.queue q) r 64
      let b := bs.1
      let k := CollBlock.ofBytes bs.2
      let cmd : CollCmd := { queue := q, seq := r.seq, part := r.part, block := k }
      let b : Block := { b with coll := { b.coll with cmds := b.coll.cmds ++ [cmd] } }
      (k.engines b.topo lead).foldl (fun b x =>
        let ce := b.ce x
        let l := mget [] ce.queued r.part ++ [{ queue := q, seq := r.seq }]
        b.setCe x { ce with queued := mset [] ce.queued r.part l }) b

/-- What a command does with its own data when it begins: an all-gather places its shard, the root of a broadcast and the
members of an all-to-all their own block; an operation without hops delivers at once (R285, R286). -/
def Block.beginData (b : Block) (e : Env) (x p : Nat) (cmd : CollCmd) : Block :=
  let k := cmd.block
  let ex := cmd.exposure
  let t := b.topo
  let d := k.total t
  let copy (b : Block) (from_ dst n : Nat) : Block :=
    let r := b.readMem e (ceReq b x p k.srcClass) (k.src + k.fin.offsetOf from_) (k.fin.offsetOf n)
    r.1.deliver e x p k ex k.fin dst r.2
  match k.op with
  | 0 | 2 =>
    if ((k.plan t).filter (fun s => s.kind = 0)).isEmpty then
      let r := b.readMem e (ceReq b x p k.srcClass) k.src (k.fin.offsetOf k.elems)
      let f := if k.op = 0 then Fmt.acc96 else k.fout
      r.1.deliver e x p k ex f 0 (encodeWire f ex (decodeWire k.fin ex k.elems r.2)).1
    else b
  | 1 => copy b 0 (shardOf t t.here k.phases.reverse * (k.elems / d)) (k.elems / d)
  | 3 => if t.self = k.peer then copy b 0 0 k.elems else b
  | 4 =>
    let c := (k.phases.head?).map (fun q => coordIn t.here q.2) |>.getD 0
    copy b (c * k.elems) (c * k.elems) k.elems
  | _ => b

/-- COLL_REFUSED and the refusal of the command (R283, R297). The reason code is 0 for a reserved code, 3 for a format
that does not fit, 6 for a ring or an address. -/
def Block.refuseColl (b : Block) (e : Env) (x p : Nat) (c : CollPart) (sig cond : Nat) : Block :=
  let b := (b.dropColl c.queue c.seq).collEvent e x p 0x201 0 (mget 0 (b.ce x).seqs p) sig [(36, 1, cond)]
  b.refuseCmd e c.queue c.seq (if cond = 0 then 0 else if cond ≤ 3 then 1 else 6) 52

/-- COLLECTIVE_PART_START (R281, R283, R288): the first queued part of a partition starts when at most one is active and
that one has sent its last piece. -/
def Block.doPartStart (b : Block) (e : Env) (x p : Nat) : Block :=
  let ce := b.ce x
  let act := mget [] ce.active p
  match mget [] ce.queued p with
  | [] => b
  | c :: rest =>
    if 2 ≤ act.length || !act.all (fun a => b.partSpent x a) then b
    else
      match b.collCmd c.queue c.seq with
      | none => b.setCe x { ce with queued := mset [] ce.queued p rest }
      | some cmd =>
        match cmd.block.fault b.topo (b.gen p).job.devices with
        | some n => b.refuseColl e x p c cmd.block.sig n
        | none =>
          let k := cmd.block
          let num := mget 0 ce.seqs p
          let b := b.setCe x { ce with
            queued := mset [] ce.queued p rest, active := mset [] ce.active p (act ++ [{ c with num := some num }])
            seqs := mset 0 ce.seqs p ((num + 1) % 2 ^ 32) }
          let ps := k.plan b.topo
          let cmd' : CollCmd := if cmd.started then cmd else
            { cmd with started := true, exposure := b.slotExposure e p k.expSlot, phase := 0
                       todo := (ps.head?.map CollStep.incoming).getD 0 }
          let b := b.setCmd cmd'
          let b := if cmd.started then b else b.beginData e x p cmd'
          let m := x % 2
          ((List.range ps.length).zip ps).foldl (fun b q =>
            let st := q.2
            if st.dim ≠ x / 2 then b
            else match k.half st m with
              | none => b
              | some half =>
                if st.kind = 3 then
                  st.segs.foldl (fun b j =>
                    let d := (st.c + st.s - j) % st.s
                    if d ≠ 0 && goesPlus st.s d = decide (m = 0) then b.grantCredit e x p k num st q.1 m half j 8 else b) b
                else
                  st.segs.foldl (fun b j => if st.pos m j ≠ 0 then b.grantCredit e x p k num st q.1 m half j 8 else b) b) b

/-- Places of the active parts of a partition whose command has operation `op`. -/
def Block.partsWithOp (b : Block) (x p op : Nat) : List CollPart :=
  (mget [] (b.ce x).active p).filter (fun c =>
    match b.collCmd c.queue c.seq with | some cmd => decide (cmd.block.op = op) | none => false)

/-- REDUCE_SCATTER, ALL_GATHER, ALL_REDUCE, BROADCAST, ALL_TO_ALL: an engine does what it may of the active parts of that
operation: it sends its own pieces and handles those that wait (R285, R286). -/
def Block.doCollOp (b : Block) (e : Env) (x p op : Nat) : Block :=
  (b.partsWithOp x p op).foldl (fun b c => b.advanceColl e c.queue c.seq) b

/-- SEND (R286): ORDERED PUTs of at most 1 MiB to the queue of PEER. -/
def Block.doSend (b : Block) (e : Env) (x p : Nat) : Block :=
  (b.partsWithOp x p 5).foldl (fun b c =>
    match b.collCmd c.queue c.seq with
    | none => b
    | some cmd =>
      let k := cmd.block
      if cmd.finished then b.advanceColl e c.queue c.seq
      else
        let r := b.readMem e (ceReq b x p k.srcClass) k.src (k.fin.offsetOf k.elems)
        let g := (r.1.gen p).regs
        let key := ((k.peer * 16 + p) * 64 + k.queue) * 16 + p
        let b := (chunksOf 0x100000 r.2).foldl (fun b d =>
          let n := mget 0 b.msgs.sendSeq key
          let b : Block := { b with msgs := { b.msgs with sendSeq := mset 0 b.msgs.sendSeq key ((n + 1) % 65536) } }
          (b.bumpCe x 0x108 d.length).sendMsg e
            { mtype := 0, flags := 2 + b2n k.cmpr, src := 0, dst := k.peer, parts := 17 * p, rop := 0, job := g.jobId
              epoch := g.epoch, mid := 0, length := d.length, addr := k.queue, signal := 0, expfmt := 0, qseq := n, data := d }) r.1
      (b.setCmd { cmd with finished := true }).advanceColl e c.queue c.seq) b

/-- Takes `n` bytes from a receive queue. -/
def Block.rxTakeN (e : Env) (q : Req) (port key : Nat) : Nat → Block → List (Byte × Bool) → Block × List (Byte × Bool)
  | 0, b, acc => (b, acc.reverse)
  | n + 1, b, acc =>
    let r := b.rxTake e q port key
    Block.rxTakeN e q port key n r.1 (r.2 :: acc)

/-- RECV (R286): the elements leave the receive queue for DST once they have all come. -/
def Block.doRecv (b : Block) (e : Env) (x p : Nat) : Block :=
  (b.partsWithOp x p 6).foldl (fun b c =>
    match b.collCmd c.queue c.seq with
    | none => b
    | some cmd =>
      let k := cmd.block
      let key := 64 * p + k.queue
      let n := k.fin.offsetOf k.elems
      if cmd.finished || rxAvail (mget [] b.msgs.queues key) < n || b.writeWaits e (ceReq b x p k.dstClass) k.dst then
        (b.noteWait e (ceReq b x p k.dstClass) k.dst).advanceColl e c.queue c.seq
      else
        let r := Block.rxTakeN e (ceReq b x p k.dstClass) 0 key n b []
        let b := (r.1.bumpCe x 0x110 n).deliver e x p k cmd.exposure k.fin 0 r.2
        (b.setCmd { cmd with finished := true }).advanceColl e c.queue c.seq) b

/-- Whether the message that brings a segment is of this job and epoch; a stale one is counted (R292). -/
def Block.collStale (b : Block) (m : Msg) : Bool :=
  let g := (b.gen m.dpart).regs
  !(b.holdsJob m.dpart && decide (g.jobId = m.job) && decide (g.epoch = m.epoch))

/-- COLL_MISMATCH (R293). -/
def Block.collMismatch (b : Block) (e : Env) (x : Nat) (m : Msg) (s : Segment) : Block :=
  (b.bumpCe x 0x148 1).collRare e x m.dpart 0x202 s.phase s.num s.sig [(36, 4, s.sig), (40, 2, m.src)]

/-- The active part that a segment names by COLL_SEQ. -/
def Block.partByNum (b : Block) (x p num : Nat) : Option (Nat × CollPart) :=
  ((List.range 2).zip (mget [] (b.ce x).active p)).find? (fun c => decide (c.2.num = some num))

/-- A data segment arrives (R285 to R287, R291 to R294). -/
def Block.doCollData (b : Block) (e : Env) (x : Nat) (m : Msg) : Block :=
  let b := b.consume m
  let s := Segment.ofMsg m
  if b.collStale m then b.bumpCe x 0x140 1
  else if s.kind ≠ 0 then b.collMismatch e x m s
  else
    match b.partByNum x m.dpart s.num with
    | none => b.collMismatch e x m s
    | some (i, c) =>
      match b.collCmd c.queue c.seq with
      | none => b.collMismatch e x m s
      | some cmd =>
        if cmd.block.sig ≠ s.sig || (cmd.block.stepOf b.topo x s true).isNone then b.collMismatch e x m s
        else
          let b := (b.bumpCe x 0x110 s.data.length).setCollPart x m.dpart i { c with stage := c.stage ++ [s] }
          b.advanceColl e c.queue c.seq

/-- A credit segment arrives (R288). -/
def Block.doCollCredit (b : Block) (e : Env) (x : Nat) (m : Msg) : Block :=
  let b := b.consume m
  let s := Segment.ofMsg m
  if b.collStale m then b.bumpCe x 0x140 1
  else if s.kind ≠ 1 then b.collMismatch e x m s
  else
    match b.partByNum x m.dpart s.num with
    | none => b.collMismatch e x m s
    | some (i, c) =>
      match b.collCmd c.queue c.seq with
      | none => b.collMismatch e x m s
      | some cmd =>
        match cmd.block.stepOf b.topo x s false with
        | none => b.collMismatch e x m s
        | some (si, st) =>
          let seg := if st.kind = 3 then ((b.topo.coord m.src).map (fun c => coordIn c st.dim)).getD 0 else s.seg
          let c := { c with credits := mmod 0 c.credits (chainKey si s.half seg) (· + s.credits) }
          (b.setCollPart x m.dpart i c).advanceColl e c.queue c.seq

end Sys2Proof.Machine
end

