-- ==== Sys2Proof/Machine/GenOps.lean ====
section
/-! DEFINITION. The commands of the generation unit: control messages as they arrive (R159, R161), the fix tick (R164), step
and restart gates (R15, R149, R170), and the timeouts (R165, R167, R171). -/
namespace Sys2Proof.Machine

/-- Takes a control message off the link's inbox, where it came by a port (R161). -/
def Block.consumeGen (b : Block) (ctype : Nat) (m : GenMsg) : Block :=
  match b.link.inbox.find? (fun x =>
    let d := x.2.data.map Prod.fst
    decide (x.2.mtype = 4) && decide (leAt d 0 1 = ctype) && decide (GenMsg.ofBytes x.2.job x.2.epoch d = m)) with
  | some x => b.consume x.2
  | none => b

/-- A control message reaches the generation unit. -/
def Block.control (b : Block) (dpart ctype : Nat) (m : GenMsg) (f : Block → Nat → Block) : Block :=
  let b := b.consumeGen ctype m
  b.receive dpart ctype m (f b)

/-- The partition whose job a message reaches at once. -/
def Block.takes (b : Block) (dpart : Nat) (m : GenMsg) : Option Nat :=
  (b.jobPart dpart m.job).bind (fun p => if m.epoch = (b.gen p).regs.epoch then some p else none)

/-- A control message that may make another generation current: the block, and CUR_GEN of every partition. -/
def Block.controlCur (b : Block) (e : Env) (dpart ctype : Nat) (m : GenMsg) (f : Block → Nat → Block × Nat) :
    Block × SMap Nat :=
  let b := b.consumeGen ctype m
  match b.takes dpart m with
  | some p => ((f b p).1, mset 0 e.cur p (f b p).2)
  | none => (b.receive dpart ctype m (fun _ => b), e.cur)

def Block.doMaxima (b : Block) (e : Env) (dpart : Nat) (m : GenMsg) : Block :=
  b.control dpart 1 m (fun b p => b.onMaxima e p m)

def Block.doExpose (b : Block) (e : Env) (dpart : Nat) (m : GenMsg) : Block :=
  b.control dpart 2 m (fun b p => b.onExpose e p m)

def Block.doReady (b : Block) (e : Env) (dpart : Nat) (m : GenMsg) : Block :=
  b.control dpart 3 m (fun b p => b.onReady e p m)

/-- ORDER from the parent (R163, R165). -/
def Block.doOrder (b : Block) (e : Env) (dpart : Nat) (m : GenMsg) : Block :=
  b.control dpart 4 m (fun b p =>
    if (b.gen p).regs.state = 2 then b.takeOrder e p { tick := m.tick1, gate := m.tick2, orddep := bit m.flags 0 } else b)

def Block.doFixed (b : Block) (e : Env) (dpart : Nat) (m : GenMsg) : Block :=
  b.control dpart 5 m (fun b p => b.onFixed e p m)

/-- CONFIRM from the parent (R166). -/
def Block.doConfirm (b : Block) (e : Env) (dpart : Nat) (m : GenMsg) : Block :=
  b.control dpart 6 m (fun b p => if (b.gen p).aux.confirmed then b else (b.confirm e p).progress e p)

def Block.doAbort (b : Block) (e : Env) (dpart : Nat) (m : GenMsg) : Block :=
  b.control dpart 7 m (fun b p => b.onAbort e p m)

def Block.doRewound (b : Block) (e : Env) (dpart : Nat) (m : GenMsg) : Block × SMap Nat :=
  b.controlCur e dpart 8 m (fun b p => if (b.gen p).regs.state = 5 then b.onRewound e p m else (b, e.curGen p))

/-- RESTART from the parent (R167, R169, R170). -/
def Block.doRestart (b : Block) (e : Env) (dpart : Nat) (m : GenMsg) : Block × SMap Nat :=
  b.controlCur e dpart 9 m (fun b p =>
    let s := (b.gen p).regs.state
    if (s = 1 || s = 5) && (b.gen p).proto.restart.isNone then b.onRestart e p m.gen2 m.tick1 (bit m.flags 2)
    else (b, e.curGen p))

def Block.doLoaded (b : Block) (e : Env) (dpart : Nat) (m : GenMsg) : Block × SMap Nat :=
  b.controlCur e dpart 10 m (fun b p => if (b.gen p).regs.state = 1 then b.onLoaded e p m else (b, e.curGen p))

/-! ## The fix and the gates -/

/-- The tick of the fix that a partition has been ordered to make. -/
def Block.fixDue (b : Block) (p : Nat) : Option Nat := (b.gen p).proto.order.map (fun o => o.tick)

/-- The unit at its fix, `e` holding the generation that has become current: state 4 and unconfirmed, the ORDER taken, the
gate's tick noted. CURRENT_POISON clears PREV_INTACT and is cleared itself (R380). -/
def Block.fixNow (b : Block) (e : Env) (p : Nat) (o : Order) : Block :=
  let intact := !mget false b.int.currentPoison p
  let b := b.modGen p (fun g => { g with
    regs := { g.regs with
      state := 4, prevIntact := intact, orddep := g.regs.orddep || o.orddep, fixTick := e.clk.now }
    proto := { g.proto with order := none }
    aux := { g.aux with
      confirmed := false, gateTick := o.gate, fixAt := mset 0 g.aux.fixAt (e.bank p) e.clk.now
      ordAt := mset false g.aux.ordAt (e.bank p) (g.regs.orddep || o.orddep) } })
  { b with int := { b.int with
      currentPoison := mset false b.int.currentPoison p false
      tryLog := mset [] b.int.tryLog p [], faultLog := mset [] b.int.faultLog p [] } }

/-- FIX_TICK (R19, R164): every region of the job switches its bank in one hub cycle. The step lists of the next step are
appended (R321). -/
def Block.doFixTick (b : Block) (e : Env) (p : Nat) : Block × SMap Nat :=
  let g := b.gen p
  match g.proto.order with
  | none => (b, e.cur)
  | some o =>
    if g.regs.state ≠ 3 || !b.mayAgree e p || e.clk.now < o.tick then (b, e.cur)
    else
      let e' : Env := { e with cur := mset 0 e.cur p ((e.curGen p + 1) % 2 ^ 48) }
      let b := (b.fixNow e' p o).genEvent e' p 1 0 (e'.curGen p) [(32, 8, e.clk.now)]
      ((b.appendLists p o.gate).progressFixed e' p, e'.cur)

/-- The tick of the gate that a partition waits for. -/
def Block.gateDue (b : Block) (p : Nat) : Option Nat :=
  let t := (b.gen p).aux.gateTick
  if t = 0 then none else some t

/-- Whether a gate of a partition's job may open: agreed, due, and the timebase has locked (R184). -/
def Block.gateOpens (b : Block) (e : Env) (p : Nat) : Bool :=
  match b.gateDue p with
  | some t => decide (t ≤ e.clk.now) && b.mayAgree e p
  | none => false

/-- STEP_GATE (R15, R149). -/
def Block.doStepGate (b : Block) (e : Env) (p : Nat) : Block :=
  let g := b.gen p
  if !b.gateOpens e p || g.proto.restart.isSome || !(g.regs.state = 2 || g.regs.state = 4) then b else b.openGate e p

/-- RESTART_GATE (R167, R170): the gate confirms the target on this device and the job runs. -/
def Block.doRestartGate (b : Block) (e : Env) (p : Nat) : Block :=
  let g := b.gen p
  if !b.gateOpens e p || g.proto.restart.isNone || !(g.regs.state = 1 || g.regs.state = 5) then b
  else
    let b := b.modGen p (fun g => { g with
      regs := { g.regs with state := 2, visible := e.curGen p }
      proto := { g.proto with restart := none, fixedGot := [], sentFixed := false }
      aux := { g.aux with confirmed := true, waitFrom := none } })
    b.openGate e p

/-! ## Timeouts -/

/-- When LOADED is repeated (R167). -/
def Block.loadedDue (b : Block) (p : Nat) : Option Nat :=
  let g := b.gen p
  if g.regs.state = 1 && g.proto.sentLoaded && g.proto.restart.isNone && !g.regs.root then some (g.aux.loadedAt + 10000) else none

/-- LOADED_REPEAT: every 10 ms until RESTART arrives; in Safelight the transmitters are idle (R371). -/
def Block.doLoadedRepeat (b : Block) (e : Env) (p : Nat) : Block :=
  let g := b.gen p
  match b.loadedDue p with
  | none => b
  | some t =>
    if e.clk.now < t || b.clk.pstate = 2 || !b.mayAgree e p then b
    else
      let same := g.proto.loaded.all (fun r => decide (r.2.1 = g.job.g0) && r.2.2)
      (b.modAux p (fun a => { a with loadedAt := e.clk.now })).sendGen e p 10 (b.parent p).toList
        { GenMsg.blank with gen := g.job.g0, flags := 8 * b2n same }

def Block.orderDue (b : Block) (p : Nat) : Option Nat :=
  let t := (b.gen p).aux.orderBy
  if t = 0 then none else some t

/-- ORDER_TIMEOUT (R165). -/
def Block.doOrderTimeout (b : Block) (e : Env) (p : Nat) : Block :=
  match b.orderDue p with
  | some t => if t ≤ e.clk.now then b.jobFault e p 7 else b
  | none => b

def Block.exposeDue (b : Block) (p : Nat) : Option Nat :=
  let t := (b.gen p).aux.exposeBy
  if t = 0 then none else some t

/-- EXPOSE_TIMEOUT: the same timeout runs from MAXIMA to EXPOSE (R165). -/
def Block.doExposeTimeout (b : Block) (e : Env) (p : Nat) : Block :=
  match b.exposeDue p with
  | some t => if t ≤ e.clk.now then b.jobFault e p 7 else b
  | none => b

def Block.rejoinDue (b : Block) (p : Nat) : Option Nat :=
  let t := (b.gen p).aux.rejoinBy
  if t = 0 then none else some t

/-- REJOIN_TIMEOUT (R167, R171): no RESTART came in time after the ABORT or the LOAD. -/
def Block.doRejoinTimeout (b : Block) (e : Env) (p : Nat) : Block :=
  let g := b.gen p
  match b.rejoinDue p with
  | some t =>
    if t ≤ e.clk.now && (g.regs.state = 1 || g.regs.state = 5) && g.proto.restart.isNone then b.stopJob e p 0 true else b
  | none => b

/-! ## The timebase has locked (R184) -/

/-- One partition's job goes on: an ORDER whose fix tick has passed prevents the fix (R165), and what the timebase held back
is sent. -/
def Block.wakeJob (b : Block) (e : Env) (p : Nat) : Block × Nat :=
  let late := match (b.gen p).proto.order with
    | some o => decide ((b.gen p).regs.state = 3) && decide (o.tick < e.clk.now)
    | none => false
  if late then (b.jobFault e p 6, e.curGen p)
  else
    match (b.gen p).regs.state with
    | 1 => if (b.gen p).proto.sentLoaded then (b, e.curGen p) else b.progressLoaded e p
    | 5 => b.progressRewound e p
    | _ => (b.progress e p, e.curGen p)

/-- What follows a synchronisation that took the timebase out of TSTATE 0 or 1: `was` is the TSTATE before it. -/
def Block.wake (b : Block) (e : Env) (was : Nat) : Block × SMap Nat :=
  if 2 ≤ was || b.tim.tstate < 2 then (b, e.cur)
  else
    (List.range 8).foldl (fun (a : Block × SMap Nat) p =>
      let e : Env := { e with cur := a.2, tstate := b.tim.tstate }
      let r := a.1.wakeJob e p
      (r.1, mset 0 a.2 p r.2)) (b, e.cur)

end Sys2Proof.Machine
end

