-- ==== Sys2Proof/Machine/Walk.lean ====
section
/-! DEFINITION. The tile walker (R117 to R136): macro-instructions, the division of a product over a region's cells, its
passes, chains, drains and flushes, and its exact cycle count. -/
namespace Sys2Proof.Machine

/-- A macro-instruction, by the layout of R118. The entry lists hold even and odd groups. -/
structure Macro where
  magic : Nat
  ver : Nat
  op : Nat
  ta : Bool
  tb : Bool
  wres : Bool
  dbuf : Bool
  list : Bool
  m : Nat
  n : Nat
  k : Nat
  batch : Nat
  gk : Nat
  gnx : Nat
  gny : Nat
  gm : Nat
  mr : Nat
  mma : List Nat
  mmaLast : List Nat
  chn : List Nat
  chnLast : List Nat
  drn : List Nat
  drnLast : List Nat
  wls : Nat
  tda : Nat
  tdb : Nat
  tdc : Nat
  tde : Nat
  listp : Nat
  reserved : Bool
deriving DecidableEq, Repr

def Macro.ofBits (v : Nat) : Macro where
  magic := bits v 1023 1016
  ver := bits v 1015 1012
  op := bits v 1011 1008
  ta := bit v 1007
  tb := bit v 1006
  wres := bit v 1005
  dbuf := bit v 1004
  list := bit v 1003
  m := bits v 999 976
  n := bits v 975 952
  k := bits v 951 928
  batch := bits v 927 912
  gk := bits v 911 904
  gnx := bits v 903 896
  gny := bits v 895 888
  gm := bits v 887 880
  mr := bits v 879 874 + 1
  mma := [bits v 873 868, bits v 867 862]
  mmaLast := [bits v 861 856, bits v 855 850]
  chn := [bits v 849 844, bits v 843 838]
  chnLast := [bits v 837 832, bits v 831 826]
  drn := [bits v 825 820, bits v 819 814]
  drnLast := [bits v 813 808, bits v 807 802]
  wls := 16 * bits v 801 792
  tda := 64 * bits v 791 750
  tdb := 64 * bits v 749 708
  tdc := 64 * bits v 707 666
  tde := 64 * bits v 665 624
  listp := 64 * bits v 623 582
  reserved := decide (bits v 1002 1000 ≠ 0) || decide (bits v 581 0 ≠ 0)

/-- The entry for a group: full or last round, by the parity of the group; parity 0 only with DBUF = 0. -/
def Macro.pick (w : Macro) (full last : List Nat) (isLast : Bool) (group : Nat) : Nat :=
  (if isLast then last else full).getD (if w.dbuf then group % 2 else 0) 0

/-! ## The division of R122 -/

/-- The quantities of R122 for a macro-instruction run in a K tile of `kt` elements. -/
structure Split where
  kt : Nat
  kc : Nat
  nc : Nat
  mb : Nat
  nrnd : Nat
  nK : Nat
  nN : Nat
deriving DecidableEq, Repr

def Macro.split (w : Macro) (kt : Nat) : Split :=
  let kc := kt * ceilDiv (ceilDiv w.k kt) (max 1 w.gk)
  let nc := 8 * ceilDiv (ceilDiv w.n 8) (max 1 (w.gnx * w.gny))
  let mb := ceilDiv w.m (max 1 w.gm)
  { kt := kt, kc := kc, nc := nc, mb := mb, nrnd := ceilDiv mb w.mr, nK := kc / kt, nN := nc / 8 }

/-- Rows of round `r`. -/
def Macro.rows (w : Macro) (s : Split) (r : Nat) : Nat := min w.mr (s.mb - r * w.mr)

/-- A cell's place in the product: k_idx, n_idx, m_idx. -/
structure Share where
  k : Nat
  n : Nat
  m : Nat
deriving DecidableEq, Repr

def Macro.share (w : Macro) (cx cy : Nat) : Share :=
  ⟨cx % (max 1 w.gk), (cy % (max 1 w.gny)) * w.gnx + cx / (max 1 w.gk), cy / (max 1 w.gny)⟩

/-- Whether a share holds an in-bounds output in a round (R123). -/
def Macro.active (w : Macro) (s : Split) (h : Share) (r : Nat) : Bool :=
  decide (h.n * s.nc < w.n) && decide (h.m * s.mb + r * w.mr < min w.m ((h.m + 1) * s.mb))

/-! ## Elements of tensors (R119, R132) -/

/-- An element as a tile takes it: its bits, its block's scale, its poison, and whether it lies outside the bounds. -/
structure TileElem where
  raw : Nat
  scale : Nat
  poison : Bool
  padded : Bool
deriving DecidableEq, Repr

/-- Reads element `idx` of a tensor at byte offset `off`; `inside` is false for an index past the product's own extent. -/
def Block.readElem (b : Block) (e : Env) (q : Req) (t : Tensor) (off : Int) (idx : List Int) (inside : Bool) : Block × TileElem :=
  let f := fmtOf t.fmt
  let d0 := idx.getD 0 0
  let rest := (List.range 4).all (fun d => t.inDim (d + 1) (idx.getD (d + 1) 0))
  let inb := inside && rest && t.inDim 0 d0
  let row : Int := (t.base : Int) + off + (List.range 4).foldl (fun n d =>
    if d + 1 < t.ndim then n + idx.getD (d + 1) 0 * t.strides.getD (d + 1) 0 else n) 0
  let toAddr (i : Int) : Nat := (i % (2 ^ 48 : Nat)).toNat
  let g := d0 / (f.groupElems : Int)
  let inG := (d0 % (f.groupElems : Int)).toNat
  let gBase : Int := row + g * f.groupBytes
  let bitPos : Nat := if f.block = 1 then d0.toNat * f.elemBits else inG * f.elemBits
  let base : Int := if f.block = 1 then row else gBase + (16 * f.scaleBytes : Nat)
  let (b, raw, p1) :=
    if inb then
      let n := ceilDiv (bitPos % 8 + f.elemBits) 8
      let (b, bs) := b.readMem e q (toAddr (base + (bitPos / 8 : Nat))) n
      (b, bits (leNat (bs.map Prod.fst)) (bitPos % 8 + f.elemBits - 1) (bitPos % 8), bs.any Prod.snd)
    else (b, t.pad % 2 ^ f.elemBits, false)
  if f.block = 1 then (b, ⟨raw, 0, p1, !inb⟩)
  else
    let first : Int := d0 - ((inG % f.block : Nat) : Int)
    let some_ := inside && rest && (List.range f.block).any (fun k => t.inDim 0 (first + (k : Nat)))
    if some_ then
      let (b, bs) := b.readMem e q (toAddr (gBase + (inG / f.block * f.scaleBytes : Nat))) f.scaleBytes
      (b, ⟨raw, leNat (bs.map Prod.fst), p1 || bs.any Prod.snd, !inb⟩)
    else (b, ⟨raw, f.unusedScale, p1, !inb⟩)

/-- Reads a list of elements in order. -/
def Block.readElems (e : Env) (q : Req) (t : Tensor) (off : Int) : Block → List (List Int × Bool) → Block × List TileElem
  | b, [] => (b, [])
  | b, x :: xs =>
    let (b, v) := b.readElem e q t off x.1 x.2
    let (b, vs) := Block.readElems e q t off b xs
    (b, v :: vs)

/-- The bytes of packed elements with their poison marks: per element from 8 bits up, whole below. -/
def packElems (f : Fmt) (xs : List TileElem) : List (Byte × Bool) :=
  let bs := packRaw f (xs.map (fun x => x.raw))
  let any := xs.any (fun x => x.poison)
  let n := f.elemBits / 8
  (bs.zip (List.range bs.length)).map (fun p =>
    (p.1, if n = 0 then any else ((xs[p.2 / n]?).map (fun x => x.poison)).getD any))

/-- Dimension indices of matrix element (r, c) of a tensor whose dimension 0 is `c` when `plain`, with batch item `it`. -/
def tileIdx (r c it : Nat) (plain : Bool) : List Int := if plain then [c, r, it, 0, 0] else [r, c, it, 0, 0]

/-- One item of a batch: its number, its index along dimension 2 (0 with a pointer list), and the four offsets. -/
structure Item where
  num : Nat
  idx : Nat
  offA : Int
  offB : Int
  offC : Int
  offE : Int
deriving DecidableEq, Repr

/-- The A tile of a pass: Mc rows of Kt elements, each with its block's scale first; and which elements are padded. -/
def Block.tileA (b : Block) (e : Env) (q : Req) (w : Macro) (t : Tensor) (it : Item) (kt mc i0 k0 : Nat) :
    Block × List (Byte × Bool) × List (List Bool) :=
  (List.range mc).foldl (fun (acc : Block × List (Byte × Bool) × List (List Bool)) i =>
    let (b, xs) := Block.readElems e q t it.offA acc.1
      ((List.range kt).map (fun k => (tileIdx (i0 + i) (k0 + k) it.idx (!w.ta), decide (i0 + i < w.m) && decide (k0 + k < w.k))))
    let f := fmtOf t.fmt
    let sc := (xs.head?).map (fun x => (leBytes f.scaleBytes x.scale).map (fun y => (y, x.poison))) |>.getD []
    (b, acc.2.1 ++ sc ++ packElems f xs, acc.2.2 ++ [xs.map (fun x => x.padded)])) (b, [], [])

/-- The elements of the weight tile of a pass, by column. -/
def Block.tileB (b : Block) (e : Env) (q : Req) (w : Macro) (t : Tensor) (it : Item) (kt k0 j0 : Nat) : Block × List (List TileElem) :=
  (List.range 8).foldl (fun (acc : Block × List (List TileElem)) j =>
    let (b, c) := Block.readElems e q t it.offB acc.1
      ((List.range kt).map (fun k => (tileIdx (k0 + k) (j0 + j) it.idx (!w.tb), decide (k0 + k < w.k) && decide (j0 + j < w.n))))
    (b, acc.2 ++ [c])) (b, [])

/-- A weight tile's elements in the order of R71: k by k, or column by column with TB = 1. -/
def tileOrder (tb : Bool) (kt : Nat) (cols : List (List TileElem)) : List TileElem :=
  if tb then cols.flatMap id
  else (List.range kt).flatMap (fun k => cols.map (fun c => c.getD k ⟨0, 0, false, true⟩))

/-- The scales of a tile of a block format, one for each k: its 8 columns lie in one block along dimension 0. -/
def tileScales (f : Fmt) (kt : Nat) (cols : List (List TileElem)) : List (Byte × Bool) :=
  (List.range kt).flatMap (fun k =>
    let x := (cols.headD []).getD k ⟨0, 0, false, true⟩
    (leBytes f.scaleBytes x.scale).map (fun y => (y, x.poison)))

/-- A tile's columns as the matrix unit takes them: each element by its own block's scale (R37). -/
def tileCols (f : Fmt) (cols : List (List TileElem)) : List (List Elem) :=
  cols.map (fun c => c.map (fun x => let v := elemValue f x.scale x.raw; ⟨v.1, x.poison, v.2⟩))

/-! ## Running the walk -/

/-- What a walk carries from cell to cell: the block, entries given overflow results by cell, and the first cell that
consumed poison. -/
structure WalkRun where
  b : Block
  overs : List (Nat × Nat × Nat) := []
  poison : Option (Nat × Nat) := none
deriving DecidableEq, Repr

/-- Stores a cell after an operation of the walk. -/
def WalkRun.store (r : WalkRun) (x y : Nat) (c : CellRun) : WalkRun :=
  { b := r.b.setCell x y c.cell
    overs := if c.overs = 0 then r.overs else r.overs ++ [(x, y, c.overs)]
    poison := if c.poisoned then some (r.poison.getD (x, y)) else r.poison }

/-- A walk's fixed surroundings: its region, macro-instruction, split, tensors, and the cells with their shares. -/
structure WalkCtx where
  part : Nat
  x0 : Nat
  y0 : Nat
  w : Macro
  s : Split
  tA : Tensor
  tB : Tensor
  tC : Tensor
  tE : Option Tensor
  cells : List (Nat × Nat × Share)
deriving DecidableEq, Repr

def WalkCtx.req (k : WalkCtx) (b : Block) (x y : Nat) (t : Tensor) : Req := b.clusterReq k.part (x / 8) (y / 8) t.gclass

/-- The cells of a round, chains west to east. -/
def WalkCtx.activeCells (k : WalkCtx) (r : Nat) : List (Nat × Nat × Share) :=
  k.cells.filter (fun c => k.w.active k.s c.2.2 r)

/-- Bytes of a weight tile's elements. -/
def WalkCtx.tileBytes (k : WalkCtx) : Nat := (fmtOf k.tB.fmt).packed (8 * k.s.kt)

/-- Local-store address of the elements of the resident tile of pass (jt, kt) (R124). -/
def WalkCtx.tileAt (k : WalkCtx) (jt kt : Nat) : Nat := k.w.wls + k.tileBytes * (jt * k.s.nK + kt)

/-- Bytes of a tile's scales; they stand after the elements of every tile, in the order of the tiles (R124). -/
def WalkCtx.scaleBytes (k : WalkCtx) : Nat := (fmtOf k.tB.fmt).scaleBytes * k.s.kt
def WalkCtx.scalesAt (k : WalkCtx) (jt kt : Nat) : Nat :=
  k.w.wls + k.tileBytes * (k.s.nN * k.s.nK) + k.scaleBytes * (jt * k.s.nK + kt)

/-- Bytes of one cell's resident weights. -/
def WalkCtx.weightBytes (k : WalkCtx) : Nat := (k.tileBytes + k.scaleBytes) * (k.s.nN * k.s.nK)

/-- The columns of the resident tile of pass (jt, kt) as the local store holds them. -/
def WalkCtx.resident (k : WalkCtx) (c : Cell) (jt kt : Nat) : List (List Elem) :=
  let f := fmtOf k.tB.fmt
  let bs := c.lsRead (k.tileAt jt kt) k.tileBytes
  let sc := c.lsRead (k.scalesAt jt kt) k.scaleBytes
  (List.range 8).map (fun j => (List.range k.s.kt).map (fun q =>
    let n := if k.w.tb then j * k.s.kt + q else 8 * q + j
    let s := (sc.drop (q * f.scaleBytes)).take f.scaleBytes
    let v := elemValue f (leNat (s.map Prod.fst)) (elemRaw f (bs.map Prod.fst) n)
    ⟨v.1, s.any Prod.snd || ((bs.drop (n * f.elemBits / 8)).take (ceilDiv f.elemBits 8)).any Prod.snd, v.2⟩))

/-- The fill of R125: each active cell's share of B, padding included, into its local store. -/
def WalkRun.fill (r : WalkRun) (e : Env) (k : WalkCtx) (it : Item) : WalkRun :=
  let f := fmtOf k.tB.fmt
  (k.activeCells 0).foldl (fun r c =>
    (List.range (k.s.nN * k.s.nK)).foldl (fun r n =>
      let jt := n / (max 1 k.s.nK)
      let kt := n % (max 1 k.s.nK)
      let (b, cols) := r.b.tileB e (k.req r.b c.1 c.2.1 k.tB) k.w k.tB it k.s.kt
        (c.2.2.k * k.s.kc + kt * k.s.kt) (c.2.2.n * k.s.nc + 8 * jt)
      let cell := (b.cell c.1 c.2.1).lsWrite (k.tileAt jt kt) (packElems f (tileOrder k.w.tb k.s.kt cols))
      { r with b := b.setCell c.1 c.2.1 (cell.lsWrite (k.scalesAt jt kt) (tileScales f k.s.kt cols)) }) r) r

/-- Padded MACs of a pass (R133): A, B or the output outside the bounds. -/
def padCount (pa pb : List (List Bool)) (outside : Nat → Nat → Bool) : Nat :=
  (pa.zip (List.range pa.length)).foldl (fun n ra =>
    (pb.zip (List.range pb.length)).foldl (fun n cb =>
      n + ((ra.1.zip cb.1).filter (fun z => z.1 || z.2 || outside ra.2 cb.2)).length) n) 0

/-- One pass of a cell: the A rows arrive, the weight tile comes from the local store or with the stream. The base entry
moves by whole tiles where a DRAIN spans several (R82). -/
def WalkRun.pass (r : WalkRun) (e : Env) (k : WalkCtx) (it : Item) (rnd jt kt entry tile : Nat) (c : Nat × Nat × Share) :
    WalkRun × Bool :=
  let x := c.1
  let y := c.2.1
  let h := c.2.2
  let mc := k.w.rows k.s rnd
  let i0 := h.m * k.s.mb + rnd * k.w.mr
  let k0 := h.k * k.s.kc + kt * k.s.kt
  let j0 := h.n * k.s.nc + 8 * jt
  let (b, ta, pa) := r.b.tileA e (k.req r.b x y k.tA) k.w k.tA it k.s.kt mc i0 k0
  let (b, tile_) := b.tileB e (k.req b x y k.tB) k.w k.tB it k.s.kt k0 j0
  let pb := tile_.map (fun c => c.map (fun z => z.padded))
  let f := fmtOf k.tB.fmt
  let o := ((b.cell x y).op entry).tile tile
  let rows := (List.range mc).map (aRow (fmtOf k.tA.fmt) k.s.kt ta)
  let cols := if k.w.wres then k.resident (b.cell x y) jt kt else tileCols f tile_
  let taken := ta.map Prod.fst ++ (packElems f (tileOrder k.w.tb k.s.kt tile_) ++ tileScales f k.s.kt tile_).map Prod.fst
  let run := (b.cell x y).mmaElems (b.cellCtx e x y o) o entry (decide (kt = 0)) rows cols taken
  let outside (i j : Nat) : Bool :=
    !(decide (i0 + i < min k.w.m ((h.m + 1) * k.s.mb)) && decide (j0 + j < k.w.n)
      && k.tC.inDim 0 ((j0 + j : Nat) : Int) && k.tC.inDim 1 ((i0 + i : Nat) : Int))
  let run := { run with cell := run.cell.count 1 (padCount pa pb outside) }
  (({ r with b := b } : WalkRun).store x y run, run.replay)

/-- The passes of one group on every active cell; when some cell overflows, the group restarts at the raised exposure on
all of them (R77, R135), at most three times. -/
def WalkRun.group (e : Env) (k : WalkCtx) (it : Item) (rnd jt entry tile : Nat) : Nat → WalkRun → WalkRun
  | 0, r => r
  | f + 1, r =>
    let cs := k.activeCells rnd
    let (r', again) := (List.range k.s.nK).foldl (fun (acc : WalkRun × Bool) kt =>
      if acc.2 then acc
      else cs.foldl (fun acc c =>
        let (r, rep) := acc.1.pass e k it rnd jt kt entry tile c
        (r, acc.2 || rep)) acc) (r, false)
    let r' := cs.foldl (fun r c =>
      let cell := r.b.cell c.1 c.2.1
      let o := cell.op entry
      let x := (r.b.cellCtx e c.1 c.2.1 o).exposure
      if again then r else r.store c.1 c.2.1 (({ cell := cell } : CellRun).commitAll x)) r'
    if again then
      let b := cs.foldl (fun b c =>
        let cell := b.cell c.1 c.2.1
        let o := cell.op entry
        b.setCell c.1 c.2.1 (cell.replayGroup (o.tile tile))) r'.b
      WalkRun.group e k it rnd jt entry tile f { r' with b := b }
    else r'

/-- The chains of a group (R80, R122): west to east along each row of cells, tile by tile where a DRAIN spans several. -/
def WalkRun.chain (r : WalkRun) (e : Env) (k : WalkCtx) (rnd entry tiles : Nat) : WalkRun :=
  if k.w.gk ≤ 1 then r
  else (List.range tiles).foldl (fun r t => (k.activeCells rnd).foldl (fun r c =>
    let cell := r.b.cell c.1 c.2.1
    let o := (cell.op entry).tile t
    let (run, sums) := cell.chainOp (r.b.cellCtx e c.1 c.2.1 o) o r.b.brk
    let r := r.store c.1 c.2.1 run
    { r with b := r.b.sendSums c.1 c.2.1 o.chainOut sums }) r) r

/-- A row of elements as the cell stores it: each block's scale before its elements. -/
def storedRow (f : Fmt) (xs : List TileElem) : List (Byte × Bool) :=
  if f.block = 1 then packElems f xs
  else (List.range (ceilDiv xs.length f.block)).flatMap (fun n =>
    let part := (xs.drop (n * f.block)).take f.block
    ((part.head?).map (fun x => (leBytes f.scaleBytes x.scale).map (fun v => (v, x.poison)))).getD [] ++ packElems f part)

/-- Fetches the epilogue slice of a group into LS_EPI (R127, R134). -/
def WalkRun.fetchEpi (r : WalkRun) (e : Env) (k : WalkCtx) (it : Item) (x y i0 j0 cols : Nat) (o : OpEntry) : WalkRun :=
  match k.tE with
  | none => r
  | some t =>
    let f := fmtOf t.fmt
    let (b, bs) := (List.range o.mc).foldl (fun (acc : Block × List (Byte × Bool)) i =>
      let (b, xs) := Block.readElems e (k.req acc.1 x y t) t it.offE acc.1
        ((List.range cols).map (fun j => (tileIdx (i0 + i) (j0 + j) it.idx true, decide (i0 + i < k.w.m) && decide (j0 + j < k.w.n))))
      (b, acc.2 ++ storedRow f xs)) (r.b, [])
    { r with b := b.setCell x y ((b.cell x y).lsWrite o.lsEpi bs) }

/-- Writes one row of a group's output to C, in-bounds outputs only (R134). -/
def Block.flushRow (b : Block) (e : Env) (k : WalkCtx) (it : Item) (x y i j0 cols : Nat) (bs : List (Byte × Bool)) : Block :=
  let f := fmtOf k.tC.fmt
  let n := if f.block = 1 then min cols (k.w.n - j0) else cols
  let s : StreamDesc :=
    { tdesc := 0, dir := true, kind := 0, cmpr := false, deliv := 0, rows := 0, cols := 0, lsAddr := 0, run := n
      start := [(j0 : Nat), (i : Nat), (it.idx : Nat), 0, 0], levels := [], reserved := false }
  if k.w.m ≤ i then b
  else
    let q := k.req b x y k.tC
    (List.range (runBytes f n)).foldl (fun b j =>
      b.writeRunByte e q false k.tC s it.offC 0 j (bs.getD j (0, false))) b

/-- DRAIN and flush of a group on the cells that end a chain (R122, R126, R134). -/
def WalkRun.drain (r : WalkRun) (e : Env) (k : WalkCtx) (it : Item) (rnd jt entry : Nat) : WalkRun :=
  ((k.activeCells rnd).filter (fun c => decide (c.2.2.k + 1 = max 1 k.w.gk))).foldl (fun r c =>
    let x := c.1
    let y := c.2.1
    let h := c.2.2
    let o := (r.b.cell x y).op entry
    let f := fmtOf o.fmtOut
    let tiles := drainTiles f
    let cols := 8 * tiles
    let i0 := h.m * k.s.mb + rnd * k.w.mr
    let j0 := h.n * k.s.nc + 8 * (jt / tiles * tiles)
    let r := r.fetchEpi e k it x y i0 j0 cols o
    let cell := r.b.cell x y
    let first := (it.num * k.w.m * k.w.n + i0 * k.w.n + j0) % 2 ^ 40
    let (run, out) := cell.drainOp (r.b.cellCtx e x y o) o r.b.brk (first + 2 ^ 40 - cell.cellIdx % 2 ^ 40) k.w.n
      (cell.lsRead o.lsEpi (if o.epiOp = 0 then 0 else o.epiBytes))
    let r := r.store x y { run with cell := run.cell.lsWrite o.lsOut out }
    let width := storedBytes f cols
    { r with b := (List.range o.mc).foldl (fun b i =>
        if i0 + i < min k.w.m ((h.m + 1) * k.s.mb) then
          b.flushRow e k it x y (i0 + i) j0 cols ((out.drop (width * i)).take width)
        else b) r.b }) r

/-- One round of an item. Where a DRAIN spans several 8-column tiles (R82), the tail runs once for them, and the parity counts
them as one. -/
def WalkRun.round (r : WalkRun) (e : Env) (k : WalkCtx) (it : Item) (rnd : Nat) : WalkRun :=
  let last := decide (rnd + 1 = k.s.nrnd)
  let tiles := drainTiles (fmtOf k.tC.fmt)
  (List.range k.s.nN).foldl (fun r jt =>
    let g := rnd * ceilDiv k.s.nN tiles + jt / tiles
    let r := WalkRun.group e k it rnd jt (k.w.pick k.w.mma k.w.mmaLast last g) (jt % tiles) 4 r
    if (jt + 1) % tiles = 0 || jt + 1 = k.s.nN then
      (r.chain e k rnd (k.w.pick k.w.chn k.w.chnLast last g) tiles).drain e k it rnd jt (k.w.pick k.w.drn k.w.drnLast last g)
    else r) r

/-! ## The cycle count (R128) -/

/-- The length of a pass of `mc` rows (R64, R128). -/
def passCycles (fa fb : Fmt) (transB : Bool) (mc : Nat) : Nat :=
  let c := max fa.cls fb.cls
  if c ≤ 1 then mc + 2 else if c = 2 then (if transB then 8 * mc + 2 else 4 * mc + 2) else 16 * mc + 2

/-- T_drain (R128). -/
def drainCycles (f : Fmt) (mc : Nat) : Nat := (if f.block = 1 then mc else if f = .g16 then 8 * mc else 4 * mc) + 9

/-- The largest count over the clusters of cells. -/
def perCluster (cs : List (Nat × Nat × Share)) : Nat :=
  let m := cs.foldl (fun (m : SMap Nat) c => mmod 0 m (clusterKey (c.1 / 8) (c.2.1 / 8)) (· + 1)) []
  m.foldl (fun n p => max n p.2) 0

/-- Plate boundaries that a chain of the region crosses. -/
def WalkCtx.chainBounds (k : WalkCtx) : Nat :=
  ((List.range (k.w.gnx)).map (fun n =>
    let a := k.x0 + n * k.w.gk
    (a + k.w.gk - 1) / 160 - a / 160)).foldl max 0

/-- Cycles of one item without its fill. -/
def WalkCtx.itemCycles (k : WalkCtx) : Nat :=
  let fa := fmtOf k.tA.fmt
  let fb := fmtOf k.tB.fmt
  let fc := fmtOf k.tC.fmt
  let mcL := k.w.rows k.s (k.s.nrnd - 1)
  let passes := (List.range k.s.nrnd).foldl (fun n r => n + k.s.nN * k.s.nK * passCycles fa fb k.w.tb (k.w.rows k.s r)) 0
  let chain := if k.w.gk ≤ 1 then 0 else 4 * mcL + 3 * (k.w.gk - 1) + 4 * k.chainBounds
  let tails := (k.activeCells (k.s.nrnd - 1)).filter (fun c => decide (c.2.2.k + 1 = max 1 k.w.gk))
  let flush := ceilDiv (perCluster tails * mcL * storedBytes fc (8 * drainTiles fc)) 64
  passes + 10 + chain + drainCycles fc mcL + flush

/-- T_fill of an item that fills (R125). -/
def WalkCtx.fillCycles (k : WalkCtx) : Nat :=
  ceilDiv (perCluster (k.activeCells 0) * k.weightBytes) 64

/-! ## WALK -/

/-- Item `i` (R130): an index along dimension 2, or the pointer-list entry; list bits past 39 count in LISTERR (R99). -/
def Block.walkItem (b : Block) (e : Env) (k : WalkCtx) (lead : Nat × Nat) (i : Nat) : Block × Item :=
  if !k.w.list then (b, ⟨i, i, 0, 0, 0, 0⟩)
  else
    let (b, bs) := b.readMem e (b.clusterReq k.part lead.1 lead.2 0) (k.w.listp + 32 * i) 32
    let raw := bs.map Prod.fst
    let v (n : Nat) : Nat := leAt raw (8 * n) 8
    let bad := ((List.range 4).filter (fun n => bits (v n) 63 40 ≠ 0)).length
    let b := b.setCluster lead.1 lead.2 ((b.cluster lead.1 lead.2).count 0x150 bad)
    (b, ⟨i, 0, sext 40 (v 0), sext 40 (v 1), sext 40 (v 2), sext 40 (v 3)⟩)

/-- One item: its fill unless the previous item's B is this one's (R125), its rounds, and its cycles. `prev` is the
previous item's B offset. -/
def WalkRun.item (r : WalkRun) (e : Env) (k : WalkCtx) (lead : Nat × Nat) (i : Nat) (prev : Option Int) : WalkRun × Nat × Int :=
  let (b, it) := r.b.walkItem e k lead i
  let same := match prev with
    | none => false
    | some p => if k.w.list then decide (p = it.offB) else decide (k.tB.strides.getD 2 0 = 0)
  let r : WalkRun := { r with b := b }
  let fills := k.w.wres && !same
  let r := if fills then r.fill e k it else r
  let r := (List.range k.s.nrnd).foldl (fun r rnd => r.round e k it rnd) r
  (r, (if fills then k.fillCycles else 0) + k.itemCycles, it.offB)

/-- Reports of a whole walk: overflow results by cell, then the consumption of poison. -/
def WalkRun.report (r : WalkRun) (e : Env) : Block :=
  let b := r.overs.foldl (fun b x => b.overflowEvent e x.1 x.2.1 x.2.2) r.b
  match r.poison with
  | some p => b.consumePoison e p.1 p.2
  | none => b

/-- The surroundings of a walk of region `x`. -/
def Block.walkCtx (b : Block) (part : Nat) (x : Region) (w : Macro) : WalkCtx :=
  let tA := Tensor.ofBits (leNat (b.peek w.tda 64))
  let tB := Tensor.ofBits (leNat (b.peek w.tdb 64))
  let kt := kTile (fmtOf tA.fmt) (fmtOf tB.fmt)
  let gx := 8 * (x.x1 + 1 - x.x0)
  let gy := 8 * (x.y1 + 1 - x.y0)
  let cells := (List.range gy).flatMap (fun j => (List.range gx).map (fun i => (8 * x.x0 + i, 8 * x.y0 + j, w.share i j)))
  { part := part, x0 := 8 * x.x0, y0 := 8 * x.y0, w := w, s := w.split kt, tA := tA, tB := tB
    tC := Tensor.ofBits (leNat (b.peek w.tdc 64))
    tE := if w.tde = 0 then none else some (Tensor.ofBits (leNat (b.peek w.tde 64)))
    cells := cells }

/-- Whether every channel of a region is empty (R129). -/
def Block.channelsEmpty (b : Block) (x : Region) : Bool :=
  x.clusters.all (fun p => [0, 1, 2, 3].all (fun ch =>
    ((b.cluster p.1 p.2).chan ch).queue.isEmpty && ((b.cluster p.1 p.2).chan ch).held.isEmpty))

/-- The region enters a walk of macro-instruction `at_` that takes `n` cycles. -/
def Block.startWalk (b : Block) (r : RegionId) (x : Region) (at_ n : Nat) (p : WalkPhase) : Block :=
  b.setRegion r { x with walk := { phase := p, macroAt := at_, cycles := n } }

/-- The product of a macro-instruction: its items one after the other, the walk's count of cycles (R128), and its reports. -/
def Block.walkProduct (b : Block) (e : Env) (r : RegionId) (x : Region) (w : Macro) (at_ : Nat) : Block :=
  let k := b.walkCtx r.part x w
  let b := b.startWalk r x at_ 16 .passes
  let (run, n, _) := (List.range w.batch).foldl (fun (acc : WalkRun × Nat × Option Int) i =>
    let (r', c, p) := acc.1.item e k x.lead i acc.2.2
    (r', acc.2.1 + c, some p)) (({ b := b } : WalkRun), 16, none)
  let b := run.b.modRegion r (fun y => { y with walk := { y.walk with
    cycles := n, item := min 65535 (w.batch - 1), group := k.s.nrnd * k.s.nN - 1, pass := k.s.nK - 1 } })
  ({ run with b := b } : WalkRun).report e

/-- WALK (R117 to R130): freezes under cause 7 until the channels are empty; a macro-instruction without its MAGIC and VER
runs the prologue alone and counts a walk error (R121). The product's data effects belong to this step; WALK_RETIRE ends
the walk after its count of cycles. -/
def Block.doWalk (b : Block) (e : Env) (r : RegionId) (a : Nat) : Block :=
  b.seqStep e r (fun x =>
    if !b.channelsEmpty x then b.freeze e r 7
    else
      let lead := x.lead
      let at_ := 256 * mget 0 (b.cluster lead.1 lead.2).areg a
      let (b, bs) := b.readMem e (b.clusterReq r.part lead.1 lead.2 0) at_ 128
      let w := Macro.ofBits (leNat (bs.map Prod.fst))
      if w.magic ≠ 0xA7 || w.ver ≠ 1 then
        let b := b.setCluster lead.1 lead.2 ((b.cluster lead.1 lead.2).count 0x160 1)
        (b.startWalk r x at_ 16 .prologue).runEvent e r.part 8 lead.1 lead.2 []
      else if w.m = 0 || w.n = 0 || w.batch = 0 then b.startWalk r x at_ 16 .prologue
      else b.walkProduct e r x w at_)

/-- The walk retires after exactly its count of executed cycles (R128). -/
def Block.doWalkRetire (b : Block) (r : RegionId) : Block :=
  let x := b.region r
  if x.walk.phase = .none || x.walk.phase = .stopped || x.state ≠ .running then b
  else b.setRegion r { x with pc := (x.pc + 1) % 2048, cycle := x.cycle + x.walk.cycles, walk := {} }

/-- DRAIN_REQUEST (R98, R136): a region in a walk stops at its next pass boundary, any other at its next drain point. -/
def Block.doDrainRequest (b : Block) (e : Env) (r : RegionId) : Block :=
  let b := b.requestDrain r
  let x := b.region r
  if x.drain && x.walk.phase ≠ .none && x.state = .running then
    (b.setRegion r { x with walk := { x.walk with phase := .stopped } }).stopRegion e r
  else b

/-- REGION_RESUME: after `cycles` stopped cycles the region goes on; a walk with its next pass (R98, R136). -/
def Block.doResumeStop (b : Block) (r : RegionId) (cycles : Nat) : Block :=
  let x := b.region r
  let b := b.doRegionResume r cycles
  if x.walk.phase = .stopped && (b.region r).state = .running then
    b.modRegion r (fun y => { y with walk := { y.walk with phase := .passes } })
  else b

end Sys2Proof.Machine
end

