-- ==== Sys2Proof/Machine/ProgImage.lean ====
section
/-! DEFINITION. Program images in the plates (R66, R110, R115, R116): op tables with their patches, routes, constants and
presets of a region; and a RUN that is suspended and restored (R86, R314). -/
namespace Sys2Proof.Machine

/-- Section `n` of a loaded image, in the order of R115 after the header: 0 region table, 1 programs, 2 cluster presets,
3 op tables, 4 route tables, 5 cell constants, 6 descriptors, 7 free ranges, 8 exposure presets. -/
def Image.sec (i : Image) (n : Nat) : Nat := mget 0 i.sections n
def Image.secLen (i : Image) (n : Nat) : Nat := mget 0 i.lengths n

/-- The op table of region `n` before the patches. -/
def Block.opTable (b : Block) (i : Image) (n : Nat) : SMap Nat :=
  (List.range 64).foldl (fun m k => mset 0 m k (leNat (b.peek (i.sec 3 + 2048 * n + 32 * k) 32))) []

/-- An op-table patch (R116). -/
structure Patch where
  x : Nat
  y : Nat
  entry : Nat
  value : Nat
  reserved : Bool
deriving DecidableEq, Repr

def Patch.ofBytes (bs : List Byte) : Patch where
  x := leAt bs 0 2
  y := leAt bs 2 2
  entry := leAt bs 4 1
  value := leAt bs 8 32
  reserved := decide (leAt bs 5 3 ≠ 0)

/-- The patches of an image, which follow the op tables. -/
def Block.patches (b : Block) (i : Image) : List Patch :=
  let at_ := i.sec 3 + 2048 * i.nregions
  (List.range (leNat (b.peek at_ 8))).map (fun j => Patch.ofBytes (b.peek (at_ + 8 + 40 * j) 40))

/-- The cells of a region in row-major order of device cell coordinates (R116). -/
def Region.rowCells (r : Region) : List (Nat × Nat) :=
  (List.range (8 * (r.y1 + 1 - r.y0))).flatMap (fun j =>
    (List.range (8 * (r.x1 + 1 - r.x0))).map (fun i => (8 * r.x0 + i, 8 * r.y0 + j)))

/-- Writes the op tables of the cells of region `n` (R66), its table and then the patches in order, and their route tables and
constants. -/
def Block.loadOps (b : Block) (i : Image) (n : Nat) : Block :=
  let r := mget ({} : Region) i.regions n
  let t := b.opTable i n
  let ps := b.patches i
  (r.rowCells.zip (List.range r.rowCells.length)).foldl (fun b c =>
    let k := r.cell0 + c.2
    let mine := ps.filter (fun p => decide (p.x = c.1.1) && decide (p.y = c.1.2))
    b.setCell c.1.1 c.1.2 { b.cell c.1.1 c.1.2 with
      ops := mine.foldl (fun m p => mset 0 m p.entry p.value) t
      routes := leNat (b.peek (i.sec 4 + 32 * k) 32), cellIdx := leNat (b.peek (i.sec 5 + 8 * k) 8) % 2 ^ 40, issue := none }) b

/-- The address registers and ADDR_MODE of cluster preset `k` (R116). -/
def Block.preset (b : Block) (i : Image) (k : Nat) : SMap Nat × Bool :=
  let bs := b.peek (i.sec 2 + 96 * k) 96
  ((List.range 16).foldl (fun m a => mset 0 m a (leAt bs (5 * a) 5)) [], bit (leAt bs 80 1) 0)

/-- Loads region `n` of a partition's image into its clusters and cells, its program at instruction 0 (R91, R110, R115). -/
def Block.loadRegion (b : Block) (part n : Nat) : Block :=
  let i := b.image part
  let r := mget ({} : Region) i.regions n
  let b := b.loadOps i n
  let b := (r.clusters.zip (List.range r.clusters.length)).foldl (fun b c =>
    let p := b.preset i (r.preset + c.2)
    let old := b.cluster c.1.1 c.1.2
    b.setCluster c.1.1 c.1.2 { counters := old.counters, areg := p.1, addrMode := p.2, region := n }) b
  let i := b.image part
  let fresh : Region := { cmd := r.cmd, stage := r.stage, start := r.start, x0 := r.x0, y0 := r.y0, x1 := r.x1, y1 := r.y1
                          prog := r.prog, plen := r.plen, preset := r.preset, cell0 := r.cell0 }
  b.setImage part { i with regions := mset {} i.regions n fresh }

/-! ## Suspending a RUN (R86, R98, R314) -/

/-- Whether every region of the command that a partition runs stands still at a drain point or has ended. -/
def Block.drained (b : Block) (part : Nat) : Bool :=
  (b.liveRegions part).all (fun n =>
    let s := (mget ({} : Region) (b.image part).regions n).state
    decide (s = .stopped) || decide (s = .halted) || decide (s = .idle))

/-- Saves the RUN of a partition: the records of its cells into the context-save areas, its sequencers and stream ports. -/
def Block.saveRun (b : Block) (e : Env) (part : Nat) : Block :=
  let i := b.image part
  match i.runCmd with
  | none => b
  | some cmd =>
    let rs := i.regions.filter (fun p => decide (p.2.cmd = cmd))
    let keys := rs.flatMap (fun p => p.2.clusters.map (fun c => clusterKey c.1 c.2))
    let saved : SavedRun :=
      { cmd := cmd, regions := rs, clusters := b.plates.clusters.filter (fun c => keys.contains c.1)
        routes := (rs.flatMap (fun p => p.2.cells)).foldl (fun m p => mset 0 m (cellKey p.1 p.2) (b.cell p.1 p.2).route) [] }
    let b := (rs.flatMap (fun p => p.2.cells)).foldl (fun b p =>
      let c := b.cell p.1 p.2
      let b := b.writeMem e (b.saveReq p.1 p.2) false (saveAddr p.1 p.2) c.saveBytes
      b.setCell p.1 p.2 { c with issue := none, savedGroups := c.groups }) b
    let b : Block := { b with plates := { b.plates with saved := mset none b.plates.saved part (some saved) } }
    b.setImage part { b.image part with runCmd := none }

/-- Restores the suspended RUN of a partition: op tables from the image, cells from their records, sequencers and stream
ports; its regions run on. -/
def Block.restoreRun (b : Block) (e : Env) (part : Nat) : Block :=
  match mget none b.plates.saved part with
  | none => b
  | some s =>
    let b : Block := { b with plates := { b.plates with
      saved := mset none b.plates.saved part none
      clusters := s.clusters.foldl (fun m c => mset {} m c.1 c.2) b.plates.clusters } }
    let i := b.image part
    let regions := s.regions.foldl (fun m p =>
      mset {} m p.1 { p.2 with
        state := if p.2.state = .stopped then .running else p.2.state
        walk := if p.2.walk.phase = .stopped then { p.2.walk with phase := .passes } else p.2.walk }) i.regions
    let b := b.setImage part { i with runCmd := some s.cmd, regions := regions }
    s.regions.foldl (fun b p =>
      let b := b.loadOps (b.image part) p.1
      p.2.cells.foldl (fun b c =>
        let r := b.readMem e (b.saveReq c.1 c.2) (saveAddr c.1 c.2) 21120
        r.1.setCell c.1 c.2 { (r.1.cell c.1 c.2).restoreBytes r.2 with
          issue := none, route := mget 0 s.routes (cellKey c.1 c.2) }) b) b

end Sys2Proof.Machine
end

