-- ==== Sys2Proof/Machine/Front.lean ====
section
/-! DEFINITION. The front end (R304 to R316): doorbells, the start and completion of commands, engine rounds and time slices,
deadlines. -/
namespace Sys2Proof.Machine

/-! ## Functions (R300) -/

/-- Whether register writes through PCIe arrive: the cold start is over and no retained reset runs (R299, R339). -/
def Block.barUp (b : Block) : Bool := decide (b.boot.stage = 6) && b.clk.ret.isNone

/-- The partition that a function acts as: PF0 as 0xF, VF(i+1) as i. -/
def funcPart (f : Nat) : Nat := if f = 0 then 15 else f - 1

/-- The requester ID of a function (R239). -/
def funcReq (f : Nat) : Nat := 4 * 8192 + f

/-- Whether a function may write a queue's window (R300). -/
def Block.reachesQueue (b : Block) (f q : Nat) : Bool := b.barUp && (decide (f = 0) || decide ((b.queue q).part = funcPart f))

/-- DOORBELL (R304): accepted from SUBMITTED to COMPLETED + ring size, below 2^56; ignored by a job queue. -/
def Block.doDoorbell (b : Block) (e : Env) (f q v : Nat) : Block :=
  let x := b.queue q
  if !b.reachesQueue f q then b
  else if x.job then b.bumpFe 0x828 1
  else if v < x.submitted || x.completed + x.cap < v || 2 ^ 56 ≤ v then
    (b.bumpFe 0x820 1).queueEvent e q 4 1 0 [(40, 8, v)]
  else b.setQueue q { x with submitted := v }

/-! ## Checks of a command (R33, R305 to R308, R312) -/

/-- The first byte of a descriptor that is not 0 and must be. -/
def Desc.badOffset (d : Desc) : Nat :=
  if bit d.flags 7 then 1 else if bits d.waitSo 14 13 ≠ 0 then 4 else if bits d.sigSo 14 13 ≠ 0 then 6 else 58

/-- Whether edge `i` of a command refuses it (R307). -/
def Block.badEdge (b : Block) (q : Nat) (r : Running) (dep : Nat × Nat) : Bool :=
  let y := b.queue dep.1
  dep.2 ≠ 0 && ((decide (dep.1 = q) && decide (r.seq % 2 ^ 40 ≤ dep.2)) || !y.enable
    || (decide (r.part ≠ 15) && decide (y.part ≠ r.part)))

/-- Why a command is refused before it runs, as the reason of R331 and the offset of the field. -/
def Block.cmdFault (b : Block) (q : Nat) (x : Queue) (r : Running) : Option (Nat × Nat) :=
  let d := r.desc
  let reach (n : Nat) : Bool := (b.obj n).reach r.part
  let lock (n : Nat) : Bool := decide ((b.obj n).mode ≠ 0)
  if d.reserved then some (0, d.badOffset)
  else if 8 ≤ d.opc then some (0, 0)
  else if !opcFits d.opc x.engine || (d.opc = 7 && r.part ≠ 15) || !b.mayBind x.engine x.part then some (5, 0)
  else if !r.stepList && (d.gate || d.axEnd || d.genDone) then some (0, 1)
  else
    match findIdxFrom (b.badEdge q r) 0 d.deps with
    | some i => some (4, 16 + 6 * i)
    | none =>
      if d.waitEn && !reach d.waitObj then some (6, 4)
      else if d.sigEn && !reach d.sigObj then some (6, 6)
      else if d.waitEn && (d.acq != lock d.waitObj) then some (4, 4)
      else if d.sigEn && d.rel && !lock d.sigObj then some (4, 6)
      else none

/-! ## Taking commands from a ring -/

/-- The next command of a queue that has not started: every one before it has retired (R308). -/
def nextUp : List Running → Option Running
  | [] => none
  | r :: rs =>
    if r.phase = .finished || r.phase = .abandoned || (r.phase = .retired && r.desc.opc = 5) then nextUp rs
    else if r.phase = .edge || r.phase = .wait then some r
    else none

/-- Whether the ring is next to be read: every command taken from it has retired. -/
def ringNext : List Running → Bool
  | [] => true
  | r :: rs =>
    (r.phase = .finished || r.phase = .abandoned || (r.phase = .retired && r.desc.opc = 5)) && ringNext rs

/-- Reads the next descriptor of a queue where one waits (R304, R305). -/
def Block.fetchNext (b : Block) (e : Env) (q : Nat) : Block :=
  let x := b.queue q
  if x.submitted < x.nextSeq || !ringNext x.running then b
  else
    let o := b.readFrom e { id := engineReq x.engine, part := x.part } x.host (x.base + 64 * ((x.nextSeq - 1) % x.cap)) 64
    let r : Running := { seq := x.nextSeq, desc := Desc.ofBytes (o.2.map Prod.fst), phase := .edge, due := 0, lock := none
                         gens := [], part := x.part, stepList := false }
    o.1.setQueue q { o.1.queue q with running := x.running ++ [r] }

/-- A command of a queue that waits for nothing but its engine (R308, R313). -/
def Queue.awaitsEngine (x : Queue) : Bool := x.enable && decide (x.state = 5) && (nextUp x.running).isSome

/-- Whether a queue has a command to run on its engine (R313): one that executes, or one that waits only for the engine. -/
def Queue.ready (x : Queue) : Bool := x.enable && (x.active.isSome || x.awaitsEngine)

/-! ## Rounds (R313, R314) -/

/-- The time slice of an engine in µs (R335). -/
def Block.slice (b : Block) (en : Nat) : Nat := mget (tsDefault en) b.fe.ts en

/-- The weight of a partition in rounds (R200); PF0's queues weigh 1. -/
def Block.roundWeight (b : Block) (part : Nat) : Nat := if part < 8 then max 1 (b.weight part) else 1

/-- The queues of an engine that are ready. -/
def Block.readyOn (b : Block) (en : Nat) : List (Nat × Queue) := b.fe.queues.filter (fun q => decide (q.2.engine = en) && q.2.ready)

/-- A partition's portion of a round: w/Σw·TS over the ready partitions, and at least 1 µs. -/
def Block.portion (b : Block) (en part : Nat) : Nat :=
  let parts := (((b.readyOn en).map (fun q => q.2.part)) ++ [part]).eraseDups
  max 1 (b.roundWeight part * b.slice en / (parts.map b.roundWeight).sum)

/-- A queue stops being served: its deadlines stand still from now on (R315). -/
def Block.pauseQueue (b : Block) (e : Env) (q : Nat) : Block :=
  let x := b.queue q
  if x.pausedAt ≠ 0 then b else b.setQueue q { x with pausedAt := e.clk.now + 1 }

/-- A queue is served again: the time it was not does not count. -/
def Block.unpauseQueue (b : Block) (e : Env) (q : Nat) : Block :=
  let x := b.queue q
  if x.pausedAt = 0 then b
  else b.setQueue q { x with
    pausedAt := 0, running := x.running.map (fun r => if r.due = 0 then r else { r with due := r.due + (e.clk.now + 1 - x.pausedAt) }) }

/-- The engine serves a queue from now on. -/
def Block.serve (b : Block) (e : Env) (q : Nat) : Block :=
  let x := b.queue q
  let b := b.unpauseQueue e q
  let en := b.engine x.engine
  b.setEngine x.engine { en with
    serving := some q, sliceEnd := e.clk.now + b.portion x.engine x.part, sliceOver := false
    last := mset 0 en.last x.part (q + 1) }

/-- Engines that share their time between commands that run: DMA and collective engines. -/
def rounds (en : Nat) : Bool := decide (8 ≤ en) && decide (en < 46)

/-- The queue that a DMA or collective engine serves after `q` (R313): of the next partition with another queue that runs a
command, the queue after the one it served last. -/
def Block.nextServed (b : Block) (en q : Nat) : Option Nat :=
  let l := ((b.readyOn en).filter (fun x => x.2.active.isSome && x.1 ≠ q)).map (fun x => (x.1, x.2.part))
  let p := (b.queue q).part
  let turn := (List.range 16).map (fun i => (p + 1 + i) % 16)
  match turn.find? (fun i => l.any (fun x => decide (x.2 = i))) with
  | none => none
  | some i =>
    let mine := (l.filter (fun x => decide (x.2 = i))).map Prod.fst
    (mine.find? (fun x => decide (mget 0 (b.engine en).last i ≤ x))).orElse (fun _ => mine.head?)

/-- An engine that serves no queue turns to the next one after `q`: a plate engine restores the suspended command before it
starts anything else (R314), a DMA or collective engine turns to the next queue that runs a command. -/
def Block.turnEngine (b : Block) (e : Env) (en q : Nat) : Block :=
  let x := b.engine en
  if x.serving.isSome then b
  else
    match x.suspended with
    | some a =>
      let b := (b.setEngine en { x with suspended := none }).restoreRun e (b.queue a).part
      let b := b.serve e a
      b.setQueue a { b.queue a with state := 4 }
    | none =>
      if !rounds en then b
      else match b.nextServed en q with
        | some n => (b.serve e n).setQueue n { (b.serve e n).queue n with state := 4 }
        | none => b

/-- The engine is done with the command of queue `q`. -/
def Block.releaseEngine (b : Block) (e : Env) (q : Nat) : Block :=
  let en := (b.queue q).engine
  let x := b.engine en
  if x.serving ≠ some q then b
  else (b.setEngine en { x with serving := none, sliceOver := false }).turnEngine e en q

/-- The other queues of a plate engine whose commands wait for it. -/
def Block.rivals (b : Block) (en q : Nat) : List (Nat × Queue) := (b.readyOn en).filter (fun y => y.1 ≠ q && y.2.awaitsEngine)

/-- A plate engine whose slice is over with no other command left that waits for it lets its regions run on. -/
def Block.keepSlice (b : Block) (e : Env) (en : Nat) : Block :=
  let x := b.engine en
  match x.serving with
  | none => b
  | some q =>
    let part := (b.queue q).part
    let held := decide (mget 0 b.obs.bpFrom part ≠ 0) || (List.range 16).any (fun k => decide ((b.bp k).part = part) && decide ((b.bp k).state = 2))
    if !x.sliceOver || !(b.rivals en q).isEmpty then b
    else
      let b := b.serve e q
      if held then b
      else if h : part < 8 then
        (b.liveRegions part).foldl (fun b i =>
          let r : RegionId := ⟨⟨part, h⟩, i⟩
          (b.modRegion r (fun y => { y with drain := false })).doResumeStop r 0) b
      else b

/-- What an engine does when it looks at its queues again. -/
def Block.wakeEngine (b : Block) (e : Env) (en : Nat) : Block :=
  (b.turnEngine e en (((b.engine en).last.head?.map (fun p => p.2 - 1)).getD 0)).keepSlice e en

/-! ## The RNG copy (R150) -/

/-- Whether a command is an optimiser command of its job: a RUN of a step list that names a collective command as an edge
(R154). -/
def Block.isOptimiser (b : Block) (r : Running) : Bool :=
  r.stepList && decide (r.desc.opc = 3) && r.desc.deps.any (fun d => d.2 ≠ 0 && 40 ≤ (b.queue d.1).engine && (b.queue d.1).engine < 46)

/-- Copies a region from the current bank into the latent bank, granule by granule with its poison. -/
def Block.copyBank (b : Block) (e : Env) (p : Nat) (r : GenReg) : Block :=
  (List.range (r.len / 64)).foldl (fun b k =>
    let x := b.readGranule (r.at (e.bank p) (64 * k)) 64
    b.writeGranule e (r.at (e.latent p) (64 * k)) (x.map Prod.fst) (x.any Prod.snd) false) b

/-- Whether a granule of the RNG or CURSOR region of the current generation is poisoned. -/
def Block.rngPoisoned (b : Block) (e : Env) (p : Nat) : Bool :=
  [1, 2].any (fun role => match (b.gen p).regs.withRole role with
    | some r => b.anyPoison (r.at (e.bank p) 0) r.len
    | none => false)

/-- The copy of RNG and CURSOR, and the three fields written after it. A poisoned granule is consumed by the generation unit
that reads it (R379). -/
def Block.rngCopy (b : Block) (e : Env) (p : Nat) : Block :=
  if b.rngPoisoned e p then b.consumeIn e p 0xFF 0xFFFF 0xFFFF
  else
    let g := b.gen p
    let b := match g.regs.withRole 1 with
      | none => b
      | some r =>
        let b := b.copyBank e p r
        let step := (leNat (b.peek (r.at (e.bank p) 8) 8) + 1) % 2 ^ 64
        let b := b.genStore e (r.at (e.latent p) 8) (leBytes 8 step)
        b.genStore e (r.at (e.latent p) 16) (leBytes 4 (toFp32 (.fin false step 1)))
    let b := match g.regs.withRole 2 with
      | none => b
      | some r =>
        let b := b.copyBank e p r
        let next := leNat (b.peek (r.at (e.bank p) 0) 8) + ((g.job.training.map Training.advance).getD 0)
        b.genStore e (r.at (e.latent p) 0) (leBytes 8 next)
    let b := (b.modRegs p (fun r => { r with prevIntact := false })).modProto p (fun x => { x with rngCopied := true })
    b.progress e p

/-- Whether a command waits for the RNG copy of its step. -/
def Block.needsCopy (b : Block) (r : Running) : Bool :=
  let g := b.gen r.part
  decide (r.part < 8) && g.job.training.isSome && !g.proto.rngCopied && b.isOptimiser r

/-- A wait of the generation unit's own write into a latent bank (R166, R176). -/
def Block.copyWaits (b : Block) (e : Env) (p : Nat) : Block :=
  match (b.gen p).regs.withRole 1 with
  | some r => b.noteWait e { id := 5 * 8192, part := p, own := true, job := true, gclass := 2 } (r.at (e.latent p) 0)
  | none => b

/-! ## Starting (R308, R311, R314, R315) -/

/-- The domains of a partition's plates that are gated run again (R361). -/
def Block.ungatePart (b : Block) (part : Nat) : Block := b.setDoms ((b.platesOf part).flatMap plateDoms) 1 0

/-- The command executes, its waits behind it. -/
def Block.startCmd (b : Block) (e : Env) (q : Nat) (r : Running) : Block :=
  let en := (b.queue q).engine
  let b := if r.desc.opc = 3 then (b.leaveHold e).ungatePart r.part else b
  let gens := (List.range 8).map (fun p => (b.gen p).regs.visible)
  let b := b.setQueue q { (b.queue q).update r.seq (fun r => { r with phase := .executing, gens := gens }) with state := 4 }
  let x := b.engine en
  if x.serving = some q then b
  else if rounds en && x.serving.isSome then (b.setQueue q { b.queue q with state := 5 }).pauseQueue e q
  else b.serve e q

/-- A plate engine whose slice is over and whose command stands at a drain point saves it and turns to another queue. -/
def Block.switchPlate (b : Block) (e : Env) (en a : Nat) : Block :=
  let part := (b.queue a).part
  let b := ((b.saveRun e part).setQueue a { b.queue a with state := 6 }).pauseQueue e a
  b.setEngine en { b.engine en with serving := none, suspended := some a, sliceOver := false }

/-- The command starts where its engine is free for it. -/
def Block.tryStart (b : Block) (e : Env) (q : Nat) (r : Running) : Block :=
  let en := (b.queue q).engine
  let x := b.engine en
  if b.needsCopy r && !(b.gen r.part).bankOpen (e.latent r.part) then
    (b.copyWaits e r.part).setQueue q { (b.copyWaits e r.part).queue q with state := 3 }
  else
    let go (b : Block) : Block :=
      if !b.needsCopy r then b.startCmd e q r
      else
        let c := b.rngCopy e r.part
        if (c.gen r.part).proto.rngCopied then c.startCmd e q r else c
    if rounds en then go b
    else match x.serving with
      | none => go b
      | some a =>
        if a = q then go b
        else if en < 8 && x.suspended.isNone && x.sliceOver && b.drained r.part then go (b.switchPlate e en a)
        else (b.setQueue q { b.queue q with state := 5 }).pauseQueue e q

/-- The waits of a command whose edges are satisfied: its counter, its lock. -/
def Block.tryWaits (b : Block) (e : Env) (q : Nat) (r : Running) : Block :=
  let d := r.desc
  let wait (b : Block) : Block := b.setQueue q { (b.queue q).update r.seq (fun r => { r with phase := .wait }) with state := 3 }
  if !d.waitEn || r.lock.isSome then b.tryStart e q r
  else if !d.acq then if (b.obj d.waitObj).val < d.waitVal then wait b else b.tryStart e q r
  else
    let a := b.syncAcquire e (engineReq (b.queue q).engine) r.part d.waitObj
    match a.2 with
    | .busy => wait a.1
    | .refused => a.1.refuseCmd e q r.seq 4 4
    | _ => (a.1.setQueue q ((a.1.queue q).update r.seq (fun r => { r with lock := some d.waitObj }))).tryStart e q r

/-- Whether a command of a step list may start: its gate has come (R321). -/
def Block.gatePassed (b : Block) (e : Env) (x : Queue) (r : Running) : Bool :=
  !r.stepList || (decide (x.gateAt ≤ e.clk.now) && decide ((b.gen r.part).aux.gateTick = 0))

/-- The deadline of a command that reaches its edges now (R315), in campus ms. -/
def Block.deadline (b : Block) (e : Env) (x : Queue) (d : Desc) : Nat :=
  e.clk.now + 1000 * (if d.deadline = 0 then mget (dlDefault x.engine) b.fe.dl x.engine else d.deadline)

/-- COMMAND_START (R308): takes the queue's next command as far as it may go now. In Safelight no command starts. -/
def Block.doCommandStart (b : Block) (e : Env) (q : Nat) : Block :=
  let x := b.queue q
  if !x.enable || b.clk.pstate = 2 || b.clk.ret.isSome || (mget none b.clk.parts x.part).isSome then b
  else
    let b := (b.wakeEngine e x.engine).fetchNext e q
    match nextUp (b.queue q).running with
    | none => b
    | some r =>
      if !b.gatePassed e x r then b
      else
        match b.cmdFault q x r with
        | some (reason, off) => b.refuseCmd e q r.seq reason off
        | none =>
          let due := if r.due = 0 then b.deadline e x r.desc else r.due
          let b := b.setQueue q ((b.queue q).update r.seq (fun r => { r with due := due }))
          let r : Running := { r with due := due }
          let deps := r.desc.deps.filter (fun d => decide (d.2 ≠ 0))
          if deps.any (fun d => (b.queue d.1).wasAbandoned d.2) then b.abandonCmd e q r.seq
          else if deps.all (fun d => (b.queue d.1).satisfies d.2) then b.tryWaits e q r
          else b.setQueue q { b.queue q with state := 2 }

/-! ## Completing (R308, R309) -/

/-- What the end of a step-list command means to the generation unit (R159, R162). -/
def Block.stepProgress (b : Block) (e : Env) (r : Running) : Block :=
  if !r.stepList || 8 ≤ r.part then b
  else
    let g := b.gen r.part
    let left := if b.gathersLatent r.desc then g.proto.gathersLeft - 1 else g.proto.gathersLeft
    let idle := g.job.lists.all (fun l => (b.queue l.1).running.all (fun r => !r.stepList || r.phase = .finished))
    let done := match g.job.training with
      | some _ => decide (left = 0) && (b.gathersLatent r.desc || (decide (b.gatherCount r.part = 0) && idle))
      | none => r.desc.genDone
    let b := b.modProto r.part (fun x => { x with
      axDone := x.axDone || r.desc.axEnd, gathersLeft := left, latentDone := x.latentDone || done })
    b.progress e r.part

/-- SIG_SO of a completed command (R306, R308): released with REL, otherwise raised. -/
def Block.signal (b : Block) (e : Env) (x : Queue) (r : Running) : Block :=
  let d := r.desc
  if !d.sigEn then b
  else if d.rel then b.syncRelease e (engineReq x.engine) r.part d.sigObj
  else b.syncAdd e (engineReq x.engine) r.part d.sigObj (if d.opc = 6 && d.imm ≠ 0 then d.imm else 1)

/-- The first command of a queue whose work is done and that has not completed. -/
def Block.completing (b : Block) (q : Nat) : Option Running :=
  (b.queue q).running.find? (fun r => decide (r.phase = .retired) && (r.desc.opc ≠ 5 || (b.collCmd q r.seq).isNone))

/-- COMMAND_COMPLETE (R308, R309). -/
def Block.doCommandComplete (b : Block) (e : Env) (q : Nat) : Block :=
  match b.completing q with
  | none => b
  | some r =>
    let b := b.signal e (b.queue q) r
    let b := b.setQueue q ((b.queue q).update r.seq (fun r => { r with phase := .finished, lock := none, pin := none }))
    let b := (b.unpin e r.pin).releaseEngine e q
    let b := match r.pin with
      | some p => b.progress e p.1
      | none => b
    (b.stepProgress e r).retire e q

/-- The active command of a queue, where its OPC is `opc`. -/
def Block.activeOpc (b : Block) (q opc : Nat) : Option Running :=
  match (b.queue q).active with
  | some r => if r.desc.opc = opc then some r else none
  | none => none

/-- The engine has issued all of the work of a queue's command (R308). -/
def Block.retireCmd (b : Block) (q seq : Nat) : Block :=
  b.setQueue q ((b.queue q).update seq (fun r => { r with phase := .retired }))

/-- NOP: nothing. -/
def Block.doCmdNop (b : Block) (q : Nat) : Block :=
  match b.activeOpc q 0 with
  | some r => b.retireCmd q r.seq
  | none => b

/-- SYNC: its amount reaches SIG_SO at completion. -/
def Block.doSync (b : Block) (q : Nat) : Block :=
  match b.activeOpc q 6 with
  | some r => b.retireCmd q r.seq
  | none => b

/-- RUN (R110, R306): every region of every stage of the fused command is loaded; STAGE_START starts them. -/
def Block.doRun (b : Block) (e : Env) (q : Nat) : Block :=
  match b.activeOpc q 3 with
  | none => b
  | some r =>
    let i := b.image r.part
    if i.runCmd.isSome then b
    else if !i.loaded || i.commands ≤ r.desc.imm then b.refuseCmd e q r.seq 2 60
    else
      let b := b.setImage r.part { i with runCmd := some r.desc.imm }
      (b.liveRegions r.part).foldl (fun b n => b.loadRegion r.part n) b

/-! ## Time slices -/

/-- When an engine's slice ends: while it serves a queue and takes no whole commands in turn. -/
def Block.sliceDue (b : Block) (en : Nat) : Option Nat :=
  let x := b.engine en
  if x.serving.isSome && !x.sliceOver && en < 46 then some x.sliceEnd else none

/-- TIME_SLICE_END (R313, R314): a DMA or collective engine turns to the next queue at once; a plate engine asks its regions
to drain when another queue of the partition is ready and no command is suspended, otherwise it runs on. -/
def Block.doSliceEnd (b : Block) (e : Env) (en : Nat) : Block :=
  let b := b.wakeEngine e en
  let x := b.engine en
  match x.serving with
  | none => b
  | some q =>
    if x.sliceOver || 46 ≤ en || e.clk.now < x.sliceEnd then b
    else if rounds en then
      match b.nextServed en q with
      | none => b.serve e q
      | some n =>
        let b := (b.setQueue q { b.queue q with state := 5 }).pauseQueue e q
        (b.serve e n).setQueue n { (b.serve e n).queue n with state := 4 }
    else
      if (b.rivals en q).isEmpty || x.suspended.isSome then b.serve e q
      else
        let part := (b.queue q).part
        let b := b.setEngine en { x with sliceOver := true }
        if h : part < 8 then b.requestDrainAll ⟨part, h⟩ else b

end Sys2Proof.Machine
end

