-- ==== Sys2Proof/Machine/Dma.lean ====
section
/-! DEFINITION. DMA commands (R30, R173 to R176, R310): copies, fills, prints. -/
namespace Sys2Proof.Machine

/-- The DMA block (R310). -/
structure DmaBlock where
  kind : Nat
  srcHost : Bool
  dstHost : Bool
  cmpr : Bool
  srcClass : Nat
  dstClass : Nat
  rop : Nat
  fmt : Nat
  exp : Int
  src : Nat
  dst : Nat
  len : Nat
  fill : Nat
  gen : Nat
  jobId : Nat
  flagsHigh : Bool
  ropHigh : Bool
  fmtHigh : Bool
deriving DecidableEq, Repr

def DmaBlock.ofBytes (bs : List Byte) : DmaBlock where
  kind := leAt bs 0 1
  srcHost := bit (leAt bs 1 1) 0
  dstHost := bit (leAt bs 1 1) 1
  cmpr := bit (leAt bs 1 1) 2
  srcClass := bits (leAt bs 1 1) 4 3
  dstClass := bits (leAt bs 1 1) 6 5
  rop := leAt bs 2 1 % 16
  fmt := leAt bs 3 1 % 32
  exp := sext 10 (leAt bs 4 2)
  src := if bit (leAt bs 1 1) 0 then leAt bs 8 8 else leAt bs 8 6
  dst := if bit (leAt bs 1 1) 1 then leAt bs 16 8 else leAt bs 16 6
  len := leAt bs 24 8
  fill := leAt bs 32 4
  gen := leAt bs 40 6
  jobId := leAt bs 46 2
  flagsHigh := bit (leAt bs 1 1) 7
  ropHigh := decide (16 ≤ leAt bs 2 1)
  fmtHigh := decide (32 ≤ leAt bs 3 1)

/-- The bytes that an operation of `k` covers at its destination: a reduction widens its operands to target words. -/
def DmaBlock.dstLen (k : DmaBlock) : Nat :=
  if k.rop = 0 then k.len
  else
    let f := fmtOf k.fmt
    let elems := if (k.rop = 1 || k.rop = 2) && f = .g16 then k.len / 2064 * 1024 else k.len / max 1 (ropBytes k.rop f)
    elems * ropTarget k.rop f

/-- The partition whose job a print names, where the command may name it. -/
def Block.printPart (b : Block) (k : DmaBlock) (part : Nat) : Option Nat :=
  (List.range 8).find? (fun p =>
    decide ((b.gen p).regs.state ≠ 0) && decide ((b.gen p).regs.jobId = k.jobId) && (decide (part = 15) || decide (part = p)))

/-- The regions of a job in table order. -/
def GenRegs.table (r : GenRegs) : List GenReg :=
  ((List.range 16).map (fun n => mget ({} : GenReg) r.regions n)).filter (fun g => decide (g.len ≠ 0))

/-- The bytes of a print of a partition's job: header and regions. -/
def Block.printBytes (b : Block) (p : Nat) : Nat := 4096 + ((b.gen p).regs.table.map (fun r => r.len)).sum

/-- Why a DMA block refuses its command (R33, R310): the reason of R331 and the offset of the field within the block. -/
def Block.dmaFault (b : Block) (k : DmaBlock) (part : Nat) : Option (Nat × Nat) :=
  let out (host : Bool) (a n : Nat) : Bool := !host && decide (part ≠ 15) && !b.spanInPart part a n
  if 2 < k.kind then some (0, 0)
  else if k.flagsHigh || k.srcClass = 3 || k.dstClass = 3 then some (0, 1)
  else if k.ropHigh then some (0, 2)
  else if k.fmtHigh || (k.rop ≠ 0 && (Fmt.ofCode k.fmt).isNone) then some (0, 3)
  else if 12 < k.rop || (k.rop ≠ 0 && (k.dstHost || k.kind = 2)) then some (8, 2)
  else if k.rop = 12 && !bit b.shc.gv4En (quotaIdx part) then some (8, 2)
  else if k.rop ≠ 0 && !ropTakes k.rop (fmtOf k.fmt) then some (1, 3)
  else if k.len = 0 || 2 ^ 40 < k.len then some (6, 24)
  else if k.kind = 0 && out k.srcHost k.src k.len then some (6, 8)
  else if out k.dstHost k.dst k.dstLen then some (6, 16)
  else if k.kind ≠ 2 then none
  else match b.printPart k part with
    | some p => if k.len < b.printBytes p then some (6, 24) else none
    | none => none

/-- Whether a generation may be printed (R175): visible, or the one before it while it is intact. -/
def Block.printable (b : Block) (e : Env) (p g : Nat) : Bool :=
  let r := (b.gen p).regs
  decide (g = r.visible) || (decide (g + 1 = r.visible) && decide (r.visible = e.curGen p) && r.prevIntact)

/-- The requester ID of a DMA engine's queue. -/
def dmaReq (en : Nat) : Nat := 8192 + (en - 8)

/-- PRINT_REFUSED (R175): nothing is copied, and the command has nothing more to do. -/
def Block.printRefused (b : Block) (e : Env) (q : Nat) (r : Running) (k : DmaBlock) : Block :=
  let p := (b.printPart k r.part).getD r.part
  let b := b.post e { cls := 2, sev := 1, code := 8, part := p, source := 0x1A
                      payload := [(24, 6, k.gen), (30, 2, (b.gen p).regs.epoch)] }
  b.retireCmd q r.seq

/-- DMA (R310): the block is read and checked; a print is admitted and pins its bank (R175, R176). -/
def Block.dmaOpen (b : Block) (e : Env) (q : Nat) (r : Running) : Block × Option (Running × DmaBlock) :=
  let x := b.queue q
  let o := b.readArg e (engineReq x.engine) x r 64
  let b := o.1
  let k := DmaBlock.ofBytes o.2
  match b.dmaFault k r.part with
  | some (reason, off) => (b.refuseCmd e q r.seq reason off, none)
  | none =>
    if k.kind ≠ 2 || r.pin.isSome then (b, some (r, k))
    else match b.printPart k r.part with
      | none => (b.printRefused e q r k, none)
      | some p =>
        if !b.printable e p k.gen then (b.printRefused e q r k, none)
        else
          let pin := (p, k.gen % 2)
          let b := b.modAux p (fun a => { a with pins := mmod 0 a.pins (k.gen % 2) (· + 1) })
          let b := b.setQueue q ((b.queue q).update r.seq (fun r => { r with pin := some pin }))
          (b, some ({ r with pin := some pin }, k))

/-- A DMA command that its engine serves. -/
def Block.servedDma (b : Block) (q : Nat) : Option Running :=
  if (b.engine (b.queue q).engine).serving = some q then b.activeOpc q 4 else none

def Block.doDma (b : Block) (e : Env) (q : Nat) : Block :=
  match b.servedDma q with
  | some r => (b.dmaOpen e q r).1
  | none => b

/-- The requester of a DMA command: of the partition's job on a job queue, otherwise outside it and bound to the generation
that was visible at its start (R30, R158). -/
def Block.dmaAsker (b : Block) (q : Nat) (r : Running) (gclass a : Nat) : Req :=
  let x := b.queue q
  { id := engineReq x.engine, part := r.part, job := x.job && b.holdsJob r.part, gclass := gclass
    bound := (b.genFind a).bind (fun g => r.gens[g.1]?) }

/-- Reads host bytes; the marks that a failed read has left on them (R302) are taken with them. -/
def Block.takeHost (b : Block) (portB : Bool) (a n : Nat) : Block × List (Byte × Bool) :=
  let bs := (hostRead b.host a n).zip ((List.range n).map (fun i => mget false b.hostPoison (a + i)))
  let b := b.viaPort portB
  ({ b with hostPoison := b.hostPoison.filter (fun p => !(decide (a ≤ p.1) && decide (p.1 < a + n))) },
    bs.map (fun x => if x.2 then (0, true) else x))

/-- Writes bytes to the host; poisoned ones leave as poisoned TLPs. -/
def Block.giveHost (b : Block) (portB : Bool) (a : Nat) (bs : List (Byte × Bool)) : Block :=
  let b := (b.viaPort portB).writeHost a (bs.map Prod.fst)
  { b with hostPoison := (bs.zip (List.range bs.length)).foldl (fun m x => mset false m (a + x.2) x.1.2) b.hostPoison }

/-- Whether a DMA engine masters the host through port B (R299). -/
def dmaPortB (en : Nat) : Bool := decide (24 ≤ en)

/-- Stores a DMA command's bytes at its destination. -/
def Block.dmaStore (b : Block) (e : Env) (q : Nat) (r : Running) (k : DmaBlock) (bs : List (Byte × Bool)) : Block :=
  if k.dstHost then b.giveHost (dmaPortB (b.queue q).engine) k.dst bs
  else b.reduceMem e (b.dmaAsker q r k.dstClass k.dst) k.rop (fmtOf k.fmt) k.exp k.cmpr k.dst bs

/-- Whether the destination has to wait for CONFIRM or a pin (R166, R176). -/
def Block.dmaWaits (b : Block) (e : Env) (q : Nat) (r : Running) (k : DmaBlock) : Bool :=
  !k.dstHost && b.writeWaits e (b.dmaAsker q r k.dstClass k.dst) k.dst

/-- A DMA command of one kind does its work, once its block is accepted and its destination may be written. -/
def Block.dmaWork (b : Block) (e : Env) (q kind : Nat) (f : Block → Running → DmaBlock → Block) : Block :=
  match b.servedDma q with
  | none => b
  | some r =>
    match b.dmaOpen e q r with
    | (b, none) => b
    | (b, some (r, k)) =>
      if k.kind ≠ kind then b
      else if b.dmaWaits e q r k then b.noteWait e (b.dmaAsker q r k.dstClass k.dst) k.dst
      else (f b r k).retireCmd q r.seq

/-- COPY: LEN bytes, under a reduction where ROP names one. -/
def Block.doCopy (b : Block) (e : Env) (q : Nat) : Block :=
  b.dmaWork e q 0 (fun b r k =>
    let o := if k.srcHost then b.takeHost (dmaPortB (b.queue q).engine) k.src k.len
      else b.readMem e (b.dmaAsker q r k.srcClass k.src) k.src k.len
    o.1.dmaStore e q r k o.2)

/-- FILL: LEN bytes of the 32-bit pattern. -/
def Block.doFill (b : Block) (e : Env) (q : Nat) : Block :=
  b.dmaWork e q 1 (fun b r k =>
    b.dmaStore e q r k (clean (((List.replicate (k.len / 4 + 1) (leBytes 4 k.fill)).flatten).take k.len)))

/-! ## Prints (R173, R174, R382) -/

/-- An entry of a region table, in the layout of R320. -/
def GenReg.bytes (r : GenReg) : List Byte :=
  leBytes 1 r.role ++ zeros 7 ++ leBytes 8 r.baseA ++ leBytes 8 r.baseB ++ leBytes 8 r.len

/-- The print header. -/
def Block.printHeader (b : Block) (p : Nat) (k : DmaBlock) (crcs : List Nat) (poison : Bool) : List Byte :=
  let g := b.gen p
  let t := g.regs.table
  let head := leBytes 4 0x50524E54 ++ leBytes 2 1 ++ leBytes 2 g.regs.jobId ++ leBytes 6 k.gen
    ++ leBytes 1 (b2n (mget false g.aux.ordAt (k.gen % 2)) + 2 * b2n poison) ++ leBytes 1 t.length
    ++ leBytes 2 b.topo.self ++ zeros 6 ++ leBytes 8 (mget 0 g.aux.fixAt (k.gen % 2)) ++ leBytes 8 (b.printBytes p) ++ zeros 24
    ++ padTo 512 (t.flatMap GenReg.bytes) ++ padTo 64 (crcs.flatMap (fun c => leBytes 4 c))
  let body := padTo 4092 head
  body ++ leBytes 4 (crc32c body)

/-- The bytes of a region in the bank of generation `g`. -/
def Block.printRegion (b : Block) (e : Env) (q : Nat) (r : Running) (g : Nat) (reg : GenReg) : Block × List (Byte × Bool) :=
  b.readMem e { id := engineReq (b.queue q).engine, part := r.part, bound := some g } (reg.at (g % 2) 0) reg.len

/-- PRINT: header and regions leave for DST; PRINTED_GEN, PRINT_DONE, and PRINT_POISON where a granule was poisoned. -/
def Block.doPrint (b : Block) (e : Env) (q : Nat) : Block :=
  b.dmaWork e q 2 (fun b r k =>
    match b.printPart k r.part with
    | none => b
    | some p =>
      let t := (b.gen p).regs.table
      let o := t.foldl (fun (a : Block × List (List (Byte × Bool))) reg =>
        let x := a.1.printRegion e q r k.gen reg
        (x.1, a.2 ++ [x.2])) (b, [])
      let b := o.1
      let bad := (o.2.map (fun bs => ((List.range (bs.length / 64)).filter (fun i => ((bs.drop (64 * i)).take 64).any Prod.snd)).length)).sum
      let crcs := o.2.map (fun bs => crc32c (bs.map Prod.fst))
      let b := b.dmaStore e q r k (clean (b.printHeader p k crcs (decide (0 < bad))) ++ o.2.flatten)
      let b := b.modRegs p (fun g => { g with printed := max g.printed k.gen })
      let b := b.genEvent e p 7 0 k.gen [(32, 8, b.printBytes p)]
      if bad = 0 then b else b.intEvent e 17 1 p 0xFF 0xFFFF 0xFFFF [(32, 8, bad), (40, 6, k.gen)])

end Sys2Proof.Machine
end

