-- ==== Sys2Proof/Machine/Integrity.lean ====
section
/-! DEFINITION. The integrity unit's own commands (R376, R387, R389 to R391). -/
namespace Sys2Proof.Machine

/-- The requester as which the integrity unit holds its frames (R239, R386). -/
def integrityId : Nat := 5 * 8192 + 2

def Block.setBracket (b : Block) (k : Nat) (r : Option Bracket) : Block :=
  { b with int := { b.int with brackets := mset none b.int.brackets k r } }

/-- Frees a record and its frames. -/
def Block.dropBracket (b : Block) (e : Env) (k : Nat) (r : Bracket) : Block :=
  r.frames.foldl (fun b f => b.freeFrame e integrityId 15 f) (b.setBracket k none)

/-- FOG_BRACKET about the cell at (x, y), with the recomputing cell and the vote. -/
def Block.bracketEvent (b : Block) (e : Env) (r : Bracket) (ox oy vote : Nat) : Block :=
  b.intEvent e 4 (b.fogSev r.part) r.part (plateOf r.x r.y) r.x r.y [(32, 2, ox), (34, 2, oy), (36, 1, vote)]

/-- BRACKET_COMPARE (R387): a recompute at cell (ox, oy) ends; `equal` when totals and side states agree bit for bit. -/
def Block.doBracketCompare (b : Block) (e : Env) (k ox oy : Nat) (equal : Bool) : Block :=
  match mget none b.int.brackets k with
  | none => b
  | some r =>
    if r.other.isSome then b
    else
      let b := b.bumpInt 0x188 1
      if equal then b.dropBracket e k r
      else
        let b := (b.setBracket k (some { r with other := some (ox, oy) })).bumpInt 0x140 1
        let b := (b.setCell r.x r.y ((b.cell r.x r.y).count 8 1)).bracketEvent e r ox oy 0
        if r.part < 8 then b.jobFault e r.part 1 else b

/-- Charges a cell's row with a fog event. -/
def Block.chargeCell (b : Block) (e : Env) (x y : Nat) : Block := b.chargeRow e (plateOf x y) (b.physOf x y) 0

/-- BRACKET_VOTE (R387): the third recompute. `vote` is 1 when the sampled cell differs from the other two, 2 when the
recomputing cell does, 3 when all three results differ. -/
def Block.doBracketVote (b : Block) (e : Env) (k vote : Nat) : Block :=
  match mget none b.int.brackets k with
  | none => b
  | some r =>
    match r.other with
    | none => b
    | some o =>
      let b := (b.dropBracket e k r).bracketEvent e r o.1 o.2 vote
      let b := if vote = 1 || vote = 3 then b.chargeCell e r.x r.y else b
      if vote = 2 || vote = 3 then b.chargeCell e o.1 o.2 else b

/-- The logical row of a plate's physical row: none for a spare or mapped-out row. -/
def Block.logicalRow (b : Block) (plate row : Nat) : Option Nat :=
  let m := mget [] b.plates.rowMaps plate
  (List.range 256).find? (fun r => decide (physRow m r = row))

/-- Column and row of a plate's cell in the device. -/
def plateX (plate col : Nat) : Nat := 160 * (plate % 4) + col
def plateY (plate row : Nat) : Nat := 256 * (plate / 4) + row

/-- The index of a physical cell. -/
def tryKey (plate col row : Nat) : Nat := (258 * plate + row) * 160 + col

/-- A second failure in a row (R390): FOG_PROOF, a fog event of the cell, a proof failure of its row. -/
def Block.proofFailed (b : Block) (e : Env) (plate col row kernel : Nat) : Block :=
  let part := b.partOfPlate plate
  let y := b.logicalRow plate row
  let b := b.bumpInt 0x148 1
  let b := match y with
    | some r => b.setCell (plateX plate col) (plateY plate r) ((b.cell (plateX plate col) (plateY plate r)).count 8 1)
    | none => b
  let b := b.intEvent e 5 (b.fogSev part) part plate (plateX plate col) ((y.map (plateY plate)).getD 0xFFFF) [(32, 2, kernel)]
  let b := if part < 8 && y.isSome then b.jobFault e part 1 else b
  b.chargeRow e plate row 1

/-- PROOF_KERNEL_DONE (R390): a kernel ends on a physical cell; `ok` when its CRC equals EXPECT. A mismatch runs it again at
once. -/
def Block.doProofDone (b : Block) (e : Env) (plate col row kernel : Nat) (ok : Bool) : Block :=
  let k := tryKey plate col row
  let again := mget false b.int.proofTry k
  let b := b.bumpInt 0x158 1
  let b : Block := { b with int := { b.int with proofTry := mset false b.int.proofTry k (!ok && !again) } }
  if ok then (if again then b.bumpInt 0x150 1 else b)
  else if again then b.proofFailed e plate col row kernel
  else b

/-- PROOF_OVERDUE_HOUR (R389). -/
def Block.doProofOverdue (b : Block) : Block := b.bumpInt 0x160 1

/-- UNCORRECTED_CONTROL (R376): a retained reset recorded with trigger 2. -/
def Block.doUncorrectedControl (b : Block) (e : Env) (kind : Nat) : Block :=
  ((b.bumpInt 0x120 1).intEvent e 16 3 15 0xFF 0xFFFF 0xFFFF [(32, 1, kind)]).retainedReset e 2

/-- FOG_CHARGE_EXPIRY (R391, R392): a fog charge of a row leaves FOG_WINDOW. -/
def Block.doFogExpiry (b : Block) (plate row : Nat) : Block :=
  let h := b.rowHealth plate row
  let h := { h with fog := h.fog - 1 }
  b.setRow plate row { h with state := if h.state = 1 && h.fog = 0 && h.proof = 0 then 0 else h.state }

end Sys2Proof.Machine
end

