-- ==== Sys2Proof/Machine/Memory.lean ====
section
/-! DEFINITION. The stacked memory's controllers (R211 to R227): granule reads and writes with ECC, scrub, activations,
temperature, skew, lanes, retraining, fencing, traffic generators. -/
namespace Sys2Proof.Machine

def Block.setMem (b : Block) (m : Memory) : Block := { b with mem := m }
def Block.memChan (b : Block) (c : Nat) : MemChannel := mget {} b.mem.chans c
def Block.setChan (b : Block) (c : Nat) (x : MemChannel) : Block := b.setMem { b.mem with chans := mset {} b.mem.chans c x }

/-- The request of an asker. -/
def Asker.req (q : Asker) : Req := { id := q.id, part := q.part, job := q.job, gclass := q.gclass }

/-- A class-7 record (R227). -/
def Block.memEvent (b : Block) (e : Env) (code sev part stack chan pc bank addr : Nat) (more : List (Nat × Nat × Nat)) : Block :=
  b.post e { cls := 7, sev := sev, code := code, part := part, source := 8 + stack % 255
             payload := [(24, 1, stack), (25, 1, chan), (26, 1, pc), (27, 1, bank), (32, 8, addr)] ++ more }

/-- A class-7 record about a place. -/
def Block.placeEvent (b : Block) (e : Env) (code sev part : Nat) (p : Place) (addr : Nat) (more : List (Nat × Nat × Nat)) : Block :=
  b.memEvent e code sev part (p.ch / 32) (p.ch % 32) p.pc p.bank addr more

/-! ## Activations (R218) -/

/-- The index of a bank. -/
def Place.bankKey (p : Place) : Nat := (2 * p.ch + p.pc) * 48 + p.bank

/-- ROWHAMMER_THROTTLE (R227): at most once per second per partition, with the activations held since the last one. -/
def Block.throttleEvent (b : Block) (e : Env) (part : Nat) (p : Place) : Block :=
  let key := 0x1000000 + part
  let n := mget 0 b.mem.held part + 1
  let sec := e.clk.now / 1000000 + 1
  if mget 0 b.mem.lastEvt key = sec then b.setMem { b.mem with held := mset 0 b.mem.held part n }
  else
    let b := b.setMem { b.mem with held := mset 0 b.mem.held part 0, lastEvt := mset 0 b.mem.lastEvt key sec }
    b.placeEvent e 13 0 part p 0 [(40, 8, n)]

/-- One activation of a bank for a partition: the rolling count and RFM; one past ACT_MAX of the 3.9 µs window waits and is
counted. -/
def Block.activate (b : Block) (e : Env) (part : Nat) (p : Place) : Block :=
  let k := p.bankKey
  let s := p.ch / 32
  let n := mget 0 b.mem.acts k + 1
  let b := if b.mem.raaimt ≤ n then
      (b.setMem { b.mem with acts := mset 0 b.mem.acts k (n - b.mem.raaimt) }).bumpStack s 0x118 1
    else b.setMem { b.mem with acts := mset 0 b.mem.acts k n }
  let w := e.clk.now * 10 / 39
  let seen := mget 0 b.mem.actWindow k
  let c := if seen / 256 = w then seen % 256 else 0
  let limit := if (b.stack s).tstate = 2 then b.mem.actMax / 2 else b.mem.actMax
  let b := b.setMem { b.mem with actWindow := mset 0 b.mem.actWindow k (w * 256 + min 255 (c + 1)) }
  if limit ≤ c then
    (b.bumpStack 0 (if part < 8 then 0x200 + 8 * part else 0x240) 1).throttleEvent e part p
  else b

/-- A controller serves a granule: the millisecond's count (R220) and, when it opens a row, an activation. -/
def Block.served (b : Block) (e : Env) (part : Nat) (p : Place) (act : Bool) : Block :=
  let c := b.memChan p.ch
  let b := b.setChan p.ch { c with served := c.served + 1 }
  if act then b.activate e part p else b

/-! ## ECC (R214 to R216) -/

/-- A correction attributed to a lane (R221): past LANE_LIMIT in one second the lane is due for a spare. -/
def MemChannel.corrected (c : MemChannel) (sec lane limit : Nat) : MemChannel :=
  let errs := if c.laneSec = sec then c.laneErrs else []
  let n := mget 0 errs lane + 1
  { c with laneSec := sec, laneErrs := mset 0 errs lane n
           laneDue := if limit < n && !c.laneDue.contains lane then c.laneDue ++ [lane] else c.laneDue }

/-- The granules that an uncorrectable granule takes with it (R216): its whole block when it is granule 0 or the block is
compressed. -/
def Block.lostGranules (b : Block) (a : Nat) : List Nat :=
  let blk := a / 512 * 512
  if a / 64 % 8 = 0 || (mget ({} : CTag) b.mem.ctags (a / 512)).codec ≠ 0 then (List.range 8).map (fun i => blk + 64 * i)
  else [a / 64 * 64]

/-- UNCORRECTABLE, once per campus millisecond per channel. -/
def Block.uncorrectableEvent (b : Block) (e : Env) (p : Place) (a n : Nat) : Block :=
  let key := 0x2000000 + p.ch
  if limited b.mem.lastEvt e key then b
  else (b.setMem { b.mem with lastEvt := mset 0 b.mem.lastEvt key (e.ms + 1) }).placeEvent e 1 1 (b.ownerOf a) p a [(40, 2, n)]

/-- What a read's decoder does with granule `a` (R215). -/
def Block.eccRead (b : Block) (e : Env) (p : Place) (a : Nat) : Ecc → Block
  | .clean => b
  | .corrected lane =>
    let b := b.setChan p.ch ((b.memChan p.ch).corrected (e.clk.now / 1000000) lane b.mem.laneLimit)
    (b.bumpStack (p.ch / 32) 0x100 1).setMem
      { (b.bumpStack (p.ch / 32) 0x100 1).mem with pendingWb := mset 0 b.mem.pendingWb (a / 64) 1 }
  | .uncorrectable n =>
    let gs := b.lostGranules a
    let b := gs.foldl (fun b g => b.poisonGranule e g) (b.bumpStack (p.ch / 32) 0x108 gs.length)
    let b := b.setMem { b.mem with ctags := mset {} b.mem.ctags (a / 512) {}, pendingWb := mset 0 b.mem.pendingWb (a / 64) 1 }
    b.uncorrectableEvent e p a n
  | .badTag => (b.bumpStack (p.ch / 32) 0x110 1).poisonGranule e (a / 64 * 64)

/-- MEM_READ: a controller reads the granule that holds `a` for a requester. -/
def Block.doMemRead (b : Block) (e : Env) (q : Asker) (a : Nat) (f : Ecc) (act : Bool) : Block :=
  let a := a / 64 * 64
  let pa := match b.redirect e q.req false a with | .go x => x | _ => a
  let b := match b.accessFault q.req false pa, b.deadSlice pa, b.place pa with
    | none, none, some p => (b.served e q.part p act).eccRead e p pa f
    | _, _, _ => b
  let r := b.readPiece e q.req a 64
  r.1.emit (.data q.id r.2)

/-- Whether a block holds words of an exact region, which is written raw (R214). -/
def Block.holdsExact (b : Block) (blk : Nat) : Bool :=
  b.shc.exact.any (fun r => r.2.valid && decide (r.2.base < 512 * blk + 512) && decide (512 * blk < r.2.base + r.2.len))

/-- The tag of a whole clean block that may be compressed (R216, R62). -/
def blockTag (bs : List Byte) : CTag :=
  let c := encodeBlock512 bs
  if c.1 = 0 then {}
  else
    { codec := c.1, len := ceilDiv c.2.length 64
      zmap := if c.1 = 1 then (List.range 8).foldl (fun n k =>
        if ((bs.drop (64 * k)).take 64).all (· = 0) then n + 2 ^ k else n) 0 else 0 }

/-- MEM_WRITE: a controller writes bytes inside one granule or a whole 512 B block, under one poison mark. -/
def Block.doMemWrite (b : Block) (e : Env) (q : Asker) (a : Nat) (bs : List Byte) (poison cmpr act : Bool) : Block :=
  let n := if bs.length = 512 && a % 512 = 0 then 512 else inGranule a bs.length
  let bs := bs.take n
  match b.redirect e q.req true a with
  | .go pa =>
    let ok := (b.accessFault q.req true pa).isNone && (b.deadSlice pa).isNone
    let b := match b.place pa with
      | some p => if ok then b.served e q.part p act else b
      | none => b
    let b := b.writeMem e q.req cmpr a (bs.map (fun x => (x, poison)))
    if ok && n = 512 && cmpr && !poison && !b.holdsExact (pa / 512) && (b.guardOf pa).isNone then
      b.setMem { b.mem with ctags := mset {} b.mem.ctags (pa / 512) (blockTag bs) }
    else b
  | _ => b.writeMem e q.req cmpr a (bs.map (fun x => (x, poison)))

/-- ECC_WRITEBACK (R217): the write-back of granule `a` goes to memory, unless a newer write has arrived. -/
def Block.doEccWriteback (b : Block) (a : Nat) : Block :=
  let v := mget 0 b.mem.pendingWb (a / 64)
  let b := b.setMem { b.mem with pendingWb := mset 0 b.mem.pendingWb (a / 64) 0 }
  if v = 2 then b.bumpStack (((b.place a).map (fun p => p.ch / 32)).getD 0) 0x140 1 else b

/-! ## Patrol scrub (R217) -/

/-- The bases of the ranges and windows. -/
def Block.rangeBases (b : Block) : List Nat :=
  (if b.mem.affine then (List.range 8).map (fun p => p * 0x1800000000) else [0]).append
    ((List.range 8).map (fun p => windowBase + p * 0x40000000))

/-- The granule after `a` in ascending address order, from the start again behind the last one. -/
def Block.nextScrub (b : Block) (a : Nat) : Nat :=
  if (b.rangeOf (a + 64)).isSome then a + 64
  else (b.rangeBases.find? (fun x => decide (a < x) && (b.rangeOf x).isSome)).getD 0

/-- PATROL_SCRUB: the next granule is read; what is beyond correction becomes poison. -/
def Block.doPatrolScrub (b : Block) (e : Env) (f : Ecc) : Block :=
  let a := b.mem.scrubAt
  let b := match b.place a with
    | some p =>
      let b := b.eccRead e p a f
      match f with
      | .uncorrectable _ => b.placeEvent e 2 1 (b.ownerOf a) p a []
      | _ => b
    | none => b
  b.setMem { b.mem with scrubAt := b.nextScrub a }

/-- REFRESH (R218): a bank is refreshed. Nothing that software can see changes. -/
def Block.doRefresh (b : Block) : Block := b

/-! ## Temperature (R219) -/

/-- The state that a temperature leads to from state `s`. -/
def refreshState (s : Nat) (t : Int) : Nat :=
  if 95 ≤ t then 2
  else if s = 2 && 92 < t then 2
  else if 85 ≤ t then 1
  else if 1 ≤ s && 82 < t then 1
  else 0

def Block.doTemperatureRead (b : Block) (e : Env) (s : Nat) (t : Int) : Block :=
  let x := b.stack s
  let n := refreshState x.tstate t
  let sec := e.clk.now / 1000000 + 1
  let b := b.setStack s { x with temp := twos 8 t, tstate := n, lastThrottleEvt := if n = 2 then sec else x.lastThrottleEvt }
  if n ≠ x.tstate || (n = 2 && x.lastThrottleEvt ≠ sec) then
    b.memEvent e (5 + n) (if n = 2 then 1 else 0) 15 s 0xFF 0xFF 0xFF 0 [(40, 1, twos 8 t)]
  else b

/-! ## Skew (R220) -/

/-- The channels that the traffic's ranges span. -/
def Block.spanned (b : Block) : List Nat :=
  if b.mem.affine then
    (List.range 8).flatMap (fun p =>
      let cs := b.slots (plateStacks p)
      if cs.any (fun c => (b.memChan c).served ≠ 0) then cs else [])
  else b.slots allStacks

/-- The busiest channel of a list, by a count. -/
def busiestBy (f : Nat → Nat) : List Nat → Option Nat
  | [] => none
  | c :: cs =>
    match busiestBy f cs with
    | some d => if f c < f d then some d else some c
    | none => some c

/-- SKEW_MILLISECOND: the skew of the millisecond in sixteenths. -/
def Block.doSkewMs (b : Block) : Block :=
  let cs := b.spanned
  let total := (cs.map (fun c => (b.memChan c).served)).sum
  let top := busiestBy (fun c => (b.memChan c).served) cs
  let most := (top.map (fun c => (b.memChan c).served)).getD 0
  let skew := if total = 0 then 0 else 16 * most * cs.length / total
  let hit := decide (total ≠ 0) && decide (b.mem.skewLimit * total < 16 * most * cs.length)
  let b := b.setMem { b.mem with
    skewMs := b.mem.skewMs + 1, skewedMs := b.mem.skewedMs + b2n hit, skewMax := max b.mem.skewMax skew
    chans := (b.mem.chans.map (fun c => (c.1, { c.2 with
      served := 0, busiest := if hit && top = some c.1 then c.2.busiest + 1 else c.2.busiest }))).filter
        (fun c => decide (c.2 ≠ {})) }
  b

/-- SKEWED_SECOND: the second ends; one with 500 skewed milliseconds is counted and recorded. -/
def Block.doSkewedSecond (b : Block) (e : Env) : Block :=
  let m := b.mem
  let top := (busiestBy (fun c => (b.memChan c).busiest) (b.mem.chans.map Prod.fst)).getD 0
  let b := b.setMem { m with
    skewMs := 0, skewedMs := 0, skewMax := 0
    chans := (m.chans.map (fun c => (c.1, { c.2 with busiest := 0 }))).filter (fun c => decide (c.2 ≠ {})) }
  if m.skewedMs < 500 then b
  else (b.bumpStack 0 0x128 1).memEvent e 4 1 15 (top / 32) (top % 32) 0xFF 0xFF 0 [(40, 2, m.skewMax)]

/-! ## Lanes, retraining, fencing (R221, R222) -/

/-- Marks channels of a stack for map-out at the next cold start and records them in the store. -/
def Block.pendMapout (b : Block) (s mask : Nat) : Block :=
  let x := b.stack s
  let b := b.setStack s { x with mapoutPend := x.mapoutPend ||| (mask % 2 ^ 32) }
  let new := ((List.range 32).filter (fun c => bit mask c)).map (fun c => 32 * s + c)
  { b with boot := { b.boot with flash := { b.boot.flash with
      mapout := b.boot.flash.mapout ++ new.filter (fun c => !b.boot.flash.mapout.contains c) } } }

/-- The spares left for a lane. -/
def MemChannel.spares (c : MemChannel) (lane : Nat) : Nat :=
  if lane / 256 = 0 then c.spare0 else if lane / 256 = 1 then c.spare1 else c.spareCa

def MemChannel.useSpare (c : MemChannel) (lane : Nat) : MemChannel :=
  if lane / 256 = 0 then { c with spare0 := c.spare0 - 1 }
  else if lane / 256 = 1 then { c with spare1 := c.spare1 - 1 }
  else { c with spareCa := c.spareCa - 1 }

/-- Replaces a lane by a spare, or exhausts them. -/
def Block.repairLane (b : Block) (e : Env) (ch lane : Nat) : Block :=
  let c := b.memChan ch
  let pc := if lane / 256 < 2 then lane / 256 else 0xFF
  if 0 < c.spares lane then
    let c := c.useSpare lane
    ((b.setChan ch c).bumpStack (ch / 32) 0x130 1).memEvent e 8 0 15 (ch / 32) (ch % 32) pc 0xFF 0
      [(40, 1, lane % 256), (41, 1, c.spares lane)]
  else
    (b.memEvent e 9 1 15 (ch / 32) (ch % 32) pc 0xFF 0 [(40, 1, lane % 256)]).pendMapout (ch / 32) (2 ^ (ch % 32))

/-- Fences a channel: its jobs stop with cause 3. -/
def Block.fence (b : Block) (e : Env) (ch : Nat) : Block :=
  let s := ch / 32
  let x := b.stack s
  let b := b.setStack s { x with fenced := x.fenced ||| 2 ^ (ch % 32) }
  let b := (b.pendMapout s (2 ^ (ch % 32))).memEvent e 10 3 15 s (ch % 32) 0xFF 0xFF 0 []
  let jobs := (List.range 8).filter (fun p => b.holdsJob p && (!b.mem.affine || b.holdsPlate p (s / 2)))
  jobs.foldl (fun b p => b.stopJob e p 3 true) b

/-- CHANNEL_RETRAIN: `failed` when the retraining fails, `lanes` those that fail its margin. -/
def Block.doRetrain (b : Block) (e : Env) (ch : Nat) (failed : Bool) (lanes : List Nat) : Block :=
  if !bit (b.stack (ch / 32)).insvc (ch % 32) || bit (b.stack (ch / 32)).fenced (ch % 32) || (b.stack (ch / 32)).selfRefresh then b
  else
    let c := b.memChan ch
    let due := (c.laneDue ++ lanes).eraseDups
    let b := b.setChan ch { c with laneDue := [], fails := if failed then c.fails + 1 else 0 }
    let b := due.foldl (fun b l => b.repairLane e ch l) b
    if !failed then b
    else
      let b := b.bumpStack (ch / 32) 0x138 1
      if 3 ≤ c.fails + 1 then b.fence e ch else b

/-- SELF_REFRESH_EXIT (R224): a stack has retrained; it stays in self-refresh while what put it there lasts. -/
def Block.doRefreshExit (b : Block) (s : Nat) : Block :=
  let holds (d : Nat) : Bool := decide ((mget ({} : Dom) b.clk.doms d).state ≠ 0)
  if b.clk.pstate = 2 || b.clk.ret.isSome || holds (48 + s) || holds (64 + s) then b
  else b.setStack s { b.stack s with selfRefresh := false, trained := true }

/-- A write of MEM_CH_MAPOUT_PEND (R226). -/
def Block.doMapoutPend (b : Block) (s mask : Nat) : Block := b.pendMapout s mask

/-! ## Partition ranges (R212) -/

/-- Whether range register `k` may take a base and a size in GiB. -/
def Block.prangeOk (b : Block) (k base size : Nat) : Bool :=
  let top := (b.slots allStacks).length * b.usable * 2048
  !b.holdsJob (k / 4) &&
    (size = 0 ||
      (decide ((base + size) * 2 ^ 30 ≤ top) &&
        (List.range 32).all (fun j =>
          let r := mget ({} : PRange) b.mem.pranges j
          decide (j / 4 = k / 4) || decide (r.size = 0) || decide (base + size ≤ r.base) || decide (r.base + r.size ≤ base))))

def Block.doPrange (b : Block) (k base size : Nat) : Block :=
  if b.prangeOk k base size then b.setMem { b.mem with pranges := mset {} b.mem.pranges k { base := base, size := size } }
  else b.bumpStack 0 0x150 1

/-! ## Traffic generators (R225) -/

def granules : Nat := 25165824

/-- TG_START: a write of TG_CTL with START = 1. -/
def Block.doTgStart (b : Block) (e : Env) (ch op pattern : Nat) : Block :=
  let c := b.memChan ch
  if c.tg.busy then b
  else
    let b := b.setChan ch { c with tg := { c.tg with op := op, pattern := pattern } }
    if op = 3 || 5 ≤ pattern || c.tg.count = 0 || granules < c.tg.count then b
    else if (List.range 8).any (fun p => b.holdsJob p && (!b.mem.affine || b.holdsPlate p (ch / 64))) then
      (b.bumpStack (ch / 32) 0x148 1).memEvent e 15 1 15 (ch / 32) (ch % 32) 0xFF 0xFF 0 []
    else
      let c := b.memChan ch
      b.setChan ch { c with tg := { c.tg with
        busy := true, done := false, errs := 0, lane0 := 0, lane1 := 0, first := 0xFFFFFFFF } }

/-- The device address of granule `g` of a channel, the inverse of R209. -/
def Block.granuleAddr (b : Block) (ch g : Nat) : Option Nat :=
  let row := g / 32
  let ranges : List Range := b.rangeBases.filterMap b.rangeOf
  (ranges.find? (fun r => r.slots.contains ch && (if row < b.usable then decide (r.rowBase = 0) else decide (r.rowBase ≠ 0)))).map
    (fun r =>
      let n := r.slots.length
      let k := row - r.rowBase
      let j := (r.slots.idxOf ch + n - mix b.mem.key r.id k % n) % n
      r.base + (k * n + j) * 2048 + 64 * (g % 32))

/-- The 64 bytes that a pattern puts into a granule. -/
def testGranule (pattern seed g : Nat) : List Byte :=
  (List.range 64).map (fun i =>
    BitVec.ofNat 8 (if pattern = 3 then seed >>> (8 * (i % 4)) else Config.testByte pattern seed g i))

/-- The granule that step `j` of a run reaches. -/
def TrafficGen.granule (t : TrafficGen) (j : Nat) : Nat :=
  (((32 * t.base : Nat) : Int) + (j : Int) * sext 32 t.stride).emod (granules : Int) |>.toNat

/-- What a run that writes leaves in memory. -/
def Block.tgWrites (b : Block) (e : Env) (ch : Nat) (t : TrafficGen) : Block :=
  (List.range t.count).foldl (fun b j =>
    match b.granuleAddr ch (t.granule j) with
    | some a => b.writeGranule e a (testGranule t.pattern t.seed (t.granule j)) false false
    | none => b) b

/-- TG_DONE: the run ends; the checker's findings are `errs`, the lanes and the first failing granule. -/
def Block.doTgDone (b : Block) (e : Env) (ch errs lane0 lane1 first : Nat) : Block :=
  let t := (b.memChan ch).tg
  if !t.busy then b
  else
    let b := if t.op = 1 then b else b.tgWrites e ch t
    let checks := decide (t.op ≠ 0)
    let n := if checks then errs else 0
    let t' := { t with busy := false, done := true, errs := satAdd 48 0 n, lane0 := if checks then lane0 % 2 ^ 32 else 0
                       lane1 := if checks then lane1 % 2 ^ 32 else 0, first := if n = 0 then 0xFFFFFFFF else first % 2 ^ 32 }
    let c := b.memChan ch
    (b.setChan ch { c with tg := t' }).memEvent e 14 0 15 (ch / 32) (ch % 32) 0xFF 0xFF 0 [(40, 6, n)]

/-! ## Start-up (R211, R223) -/

/-- RSV (R206) for the channels in service. -/
def rsvOf (slots : List Nat) : Nat :=
  let perPlate := (List.range 8).map (fun p => (slots.filter (fun c => decide (c / 64 = p))).length)
  let n := perPlate.foldl min 64
  if n = 0 then 0 else ceilDiv 507904 n

/-- Whether a set of channels may be mapped out: at most 8 a plate and 32 in all. -/
def mapoutFits (cs : List Nat) : Bool :=
  decide (cs.length ≤ 32) && (List.range 8).all (fun p => decide ((cs.filter (fun c => decide (c / 64 = p))).length ≤ 8))

/-- Memory after training and the start-up test: `bad` are the channels that failed, with the store's record. Every granule
is zero, clean and raw. -/
def Block.memStart (b : Block) (e : Env) (f : Profile) (bad : List Nat) : Block :=
  let out := (b.boot.flash.mapout ++ bad).eraseDups.filter (fun c => decide (c < 512))
  let fits := mapoutFits out
  let gone := if fits then out else []
  let slots := (List.range 512).filter (fun c => !gone.contains c)
  let hbm : SMap Stack := (List.range 16).map (fun s =>
    (s, { trained := true, insvc := (List.range 32).foldl (fun m c => if gone.contains (32 * s + c) then m else m + 2 ^ c) 0
          mapoutPend := (List.range 32).foldl (fun m c => if b.boot.flash.mapout.contains (32 * s + c) then m + 2 ^ c else m) 0 }))
  let mem : Memory := { hbm := hbm, affine := decide (f.memMode = 1), key := f.hashKey, rsv := rsvOf slots, failed := !fits
                        actMax := f.actMax, raaimt := f.raaimt, skewLimit := f.skewLimit, scrubPeriod := f.scrubPeriod
                        laneLimit := f.laneLimit }
  let b := b.setMem mem
  let b := if fits then b else b.memEvent e 12 3 15 0xFF 0xFF 0xFF 0xFF 0 [(40, 2, out.length)]
  if gone.isEmpty then b else b.memEvent e 11 0 15 0xFF 0xFF 0xFF 0xFF 0 [(40, 2, gone.length)]

end Sys2Proof.Machine
end

