-- ==== Sys2Proof/Machine/Boot.lean ====
section
/-! DEFINITION. The cold start (R338 to R349). -/
namespace Sys2Proof.Machine

def Block.setBoot (b : Block) (x : BootUnit) : Block := { b with boot := x }
def Block.bumpBoot (b : Block) (off n : Nat) : Block := b.setBoot { b.boot with counters := bump b.boot.counters off n }

/-- What a cold reset leaves: the flash with the fuses, the device area, host memory, and of the module what its always-on
logic keeps. Everything else is at its reset value. -/
def Block.coldBase (b : Block) : Block :=
  { host := b.host, hostPoison := b.hostPoison, out := b.out
    int := { spareStore := b.int.spareStore }
    boot := { flash := b.boot.flash, pinSel := b.boot.pinSel, retainedAsked := b.boot.retainedAsked }
    module := { powered := b.module.powered, trip := b.module.trip, tap := b.module.tap } }

/-- A header copy as it reads. -/
def Flash.header (f : Flash) (bad : Nat → Bool) (n : Nat) : Header :=
  let h := mget {} f.headers n
  if bad n then { h with ok := false } else h

/-- The header copy that rules (R341). -/
def Flash.ruling (f : Flash) (bad : Nat → Bool) : Option Nat :=
  let a := f.header bad 0
  let b := f.header bad 1
  if a.ok && b.ok then (if a.seq < b.seq then some 1 else some 0)
  else if a.ok then some 0 else if b.ok then some 1 else none

/-- Whether a firmware slot verifies at the boot ROM (R342, R344). -/
def Flash.runs (f : Flash) (bad : Nat → Bool) (s : Nat) : Bool :=
  let w := mget ({} : Firmware) f.slots s
  w.ok && !bad (2 + s) && decide (w.key < 2) && bit f.programmed w.key && !bit f.revoked w.key && decide (f.fuseSvn ≤ w.svn)

/-- The header copy and the firmware slot that run; none is recovery mode. -/
def Flash.choice (f : Flash) (bad : Nat → Bool) : Option (Nat × Nat) :=
  match f.ruling bad with
  | none => none
  | some h =>
    let s := (mget ({} : Header) f.headers h).active
    if f.runs bad s then some (h, s) else if f.runs bad (1 - s) then some (h, 1 - s) else none

/-- Step 2 (R345, R348): the four profiles. -/
def Block.readProfiles (b : Block) (e : Env) (bad : Nat → Bool) : Block :=
  (List.range 4).foldl (fun b n =>
    let r := b.boot.flash.readProfile (fun k => bad (4 + k)) n
    let c := r.1.code
    let b := b.setBoot { b.boot with
      pstatus := mset 0 b.boot.pstatus n (c.1 + 4 * r.2), fails := mset 0 b.boot.fails n c.2 }
    match r.1 with
    | .valid f skipped =>
      let b := b.setBoot { b.boot with
        verified := mset none b.boot.verified n (some f)
        halves := mset [] b.boot.halves n (mget [] b.boot.flash.halves (2 * n + r.2)) }
      skipped.foldl (fun b t => (b.bumpBoot 0x118 1).bootEvent e 0x104 0 n [(26, 2, t)]) b
    | _ => b) b

/-- The device area (R349): with both copies invalid it is empty. -/
def Block.readDeviceArea (b : Block) (e : Env) (bad : Nat → Bool) : Block :=
  if bad 12 && bad 13 then
    let b := b.setBoot { b.boot with flash := { b.boot.flash with mapout := [], cert := [], ownerRec := none } }
    ({ b with int := { b.int with spareStore := [] } } : Block).bootEvent e 0x10C 1 0xFF []
  else b

/-- Step 3: every source locks (R338, R358). -/
def Block.lockAll (b : Block) : Block :=
  b.setClk { b.clk with
    plls := (List.range 28).foldl (fun m n =>
      mset {} m n { lock := true, ready := true, active := decide (16 ≤ n) || decide (n % 2 = 0), mhz := pllMhz n }) []
    refs := (List.range 5).foldl (fun m n => mset {} m n { present := true, ready := true }) [] }

/-- Step 3: the selected profile, or the safe configuration (R348, R350). -/
def Block.applySelected (b : Block) (e : Env) (sel : Nat) : Block :=
  let f := (mget none b.boot.verified sel).getD Profile.safe
  let ok := (mget none b.boot.verified sel).isSome
  let b : Block := { b with tim := { TimeUnit.ofProfile f with
    plates := (List.range 8).foldl (fun m p => mset {} m p { volt := f.volts.headD 0 }) [] } }
  let b := (b.loadProfile f).setBoot { (b.loadProfile f).boot with active := sel, profileFailed := !ok }
  if ok then b
  else b.bootEvent e 0x102 3 sel [(25, 1, mget 0 b.boot.pstatus sel % 4), (26, 2, mget 0 b.boot.fails sel)]

/-- Step 5: the rows that the store names failed, the spare-row map, and the proof kernels (R389, R392 to R395). -/
def Block.startPlates (b : Block) (e : Env) (proofs : List (Nat × Nat × Nat × Nat)) : Block :=
  let b := (List.range 8).foldl (fun b p =>
    let rows := mget [] b.int.spareStore p
    let b := rows.foldl (fun b r => b.setRow p r { state := 2 }) b
    if 3 ≤ rows.length then { b with int := { b.int with plateFailed := b.int.plateFailed ||| 2 ^ p } }
    else b.applyRowMap e p) b
  let b := proofs.foldl (fun b x => b.proofFailed e x.1 x.2.1 x.2.2.1 x.2.2.2) b
  (List.range 8).foldl (fun b p => if bit b.int.unmapped p then b.applyRowMap e p else b) b

/-- Step 6: queues, READY, BOOT_DONE, the fuse SVN (R338, R343). -/
def Block.bootDone (b : Block) (e : Env) (ms : Nat) : Block :=
  let w := mget ({} : Firmware) b.boot.flash.slots b.boot.fwSlot
  let b : Block := { b with fe := { b.fe with ready := true } }
  let b := b.setBoot { b.boot with ready := true, stage := 6, bootMs := ms }
  let b := b.bootEvent e 0x101 0 b.boot.active [(25, 1, b.boot.fwSlot), (28, 4, ms)]
  if w.commit && b.boot.flash.fuseSvn < w.svn then b.setBoot { b.boot with flash := { b.boot.flash with fuseSvn := w.svn } } else b

/-- GLB_TRIP as a word (R435). -/
def Trip.word (t : Trip) : Nat := field (b2n t.valid) 1 31 + field t.cls 3 28 + field t.index 12 16 + field t.temp 8 8

/-- The steps of R338 on a module whose power is good. `e` stands at the deassertion of RESET_N, `done` at step 6. -/
def Block.coldStart (b : Block) (e done : Env) (f : BootFinds) : Block :=
  let bad (n : Nat) : Bool := f.bad.contains n
  let b := b.coldBase
  let b := (b.setBoot { b.boot with stage := 1, pinSel := f.sel, opened := b.boot.flash.isOpen }).bumpBoot 0x100 f.retries
  let b := match b.module.trip with
    | some t =>
      if t.valid then
        b.post e { cls := 0, sev := 3, code := 0x204, part := 15, source := 0x1E
                   payload := [(24, 1, t.cls), (26, 2, t.index), (28, 2, t.temp), (32, 4, t.word)] }
      else b
    | none => b
  let oks : List Nat := [0, 1].filter (fun n => (b.boot.flash.header bad n).ok)
  let b := if oks = [0] then b.bootEvent e 0x10B 1 0xFF [(25, 1, 1)] else if oks = [1] then b.bootEvent e 0x10B 1 0xFF [(25, 1, 0)] else b
  match b.boot.flash.choice bad with
  | none => b.setBoot { b.boot with stage := 2, recovery := true }
  | some (h, s) =>
    let w := mget ({} : Firmware) b.boot.flash.slots s
    let fell := decide (s ≠ (mget ({} : Header) b.boot.flash.headers h).active)
    let b := if fell then b.bootEvent e 0x103 1 0xFF [(25, 1, s)] else b
    let b := b.setBoot { b.boot with fwSlot := s, fwVer := w.ver, fwSvn := w.svn, fwKey := w.key }
    let b := ((b.readDeviceArea e bad).readProfiles e bad).lockAll.applySelected e f.sel
    let b := (b.memStart e b.boot.profile f.channels).relimit 0
    let b := (b.startPlates e f.proofs).bootDone done f.ms
    match b.boot.retainedAsked with
    | none => b
    | some trigger => (b.setBoot { b.boot with retainedAsked := none }).retainedReset done trigger

/-- A change of PROFILE_SEL (R339). -/
def Block.doProfileSel (b : Block) (e : Env) (sel : Nat) : Block :=
  if sel = b.boot.pinSel then b
  else (b.setBoot { b.boot with pinSel := sel }).bootEvent e 0x10A 1 0xFF [(25, 1, sel)]

/-- The active core's watchdog expires (R352). -/
def Block.doWatchdog (b : Block) (e : Env) : Block := b.mgmtTakeover e

end Sys2Proof.Machine
end

