-- ==== Sys2Proof/Machine/ImageCheck.lean ====
section
/-! DEFINITION. What a load checks of a program image (R69, R92, R106, R108, R115 to R120, R127). Every check answers the reason
of R331 for which it refuses the load: 0 a reserved code, 1 a format outside its use, 2 anything else of the image. -/
namespace Sys2Proof.Machine

/-- The first refusal that a list of checks finds. -/
def firstSome {α β : Type} (f : α → Option β) : List α → Option β
  | [] => none
  | x :: xs => (f x).orElse (fun _ => firstSome f xs)

/-- Refuses with `n` unless `ok`. -/
def need (n : Nat) (ok : Bool) : Option Nat := if ok then none else some n

/-! ## Op-table entries (R69) -/

/-- The least SPILL_EVERY of an MMA entry (R76). -/
def minSpill (fa fb : Fmt) (transB : Bool) : Nat :=
  let c := max fa.cls fb.cls
  if c ≤ 1 then 12 else if c = 2 then (if transB then 2 else 3) else 1

/-- Whether an OPC of R67 is not reserved. -/
def opcKnown (n : Nat) : Bool := decide (n ≤ 6) || (decide (0x10 ≤ n) && decide (n ≤ 0x23))

/-- Whether a format may be a matrix operand (R70). -/
def Fmt.matrix (f : Fmt) : Bool := decide (f.code ≤ 0x0D)

/-- Why an op-table entry refuses its load. -/
def opFault (v : Nat) : Option Nat :=
  let o := OpEntry.ofBits v
  let fa := fmtOf o.fmtA
  let fb := fmtOf o.fmtB
  let fo := fmtOf o.fmtOut
  let block := max 1 (fo.block / 16)
  if !o.valid then none
  else firstSome id [
    need 0 (opcKnown o.opc && [o.fmtA, o.fmtB, o.fmtOut, o.fmtEpi].all (fun c => (Fmt.ofCode c).isSome)
      && decide (o.rnd ≠ 3) && decide (o.epiOp ≠ 3) && decide (o.chainIn ≤ 4) && decide (o.chainOut ≤ 4)
      && decide (o.aSrc ≤ 5) && decide (o.bSrc ≤ 5) && decide (o.outDst ≤ 5) && decide (o.expSlot < 2016)
      && decide (bits v 26 0 = 0)),
    need 1 ((o.opc ≠ 1 || (fa.matrix && fb.matrix)) && (o.opc ≠ 2 || decide (fo ≠ .lo16))
      && (o.opc ≠ 0x19 || (decide (fo ≠ .lo16) && decide (fo ≠ .acc64) && decide (fo ≠ .acc96)))
      && (o.opc ≠ 1 || !o.transB || !fb.isMx)),
    need 2 ((o.opc ≠ 0x11 || decide (o.va % block = 0))
      && (o.opc ≠ 0x19 || (decide (o.va % block = 0) && decide (o.vd % block = 0)))
      && decide (o.accBase % 8 = 0) && decide (o.accBase + 8 * o.mc * (if o.opc = 2 then drainTiles fo else 1) ≤ 512)
      && decide (o.lsSpill / 16 + 6 * o.mc ≤ 1024)
      && (o.opc ≠ 1 || decide (minSpill fa fb o.transB ≤ o.spillEvery)))]

/-! ## The header and the tables (R115, R116) -/

/-- A program image whose sections the header has located: `bytes` reads the image, `i` holds the absolute addresses. -/
def Image.ofHeader (base : Nat) (bs : List Byte) : Image where
  loaded := true
  base := base
  sections := (List.range 9).foldl (fun m n => mset 0 m n (base + leAt bs (32 + 16 * n) 4)) []
  lengths := (List.range 9).foldl (fun m n => mset 0 m n (leAt bs (36 + 16 * n) 4)) []
  commands := leAt bs 8 2
  stages := leAt bs 6 1
  nregions := leAt bs 12 4
  slots := leAt bs 28 4
  regions := []

/-- Whether every byte of a list is 0. -/
def allZero (bs : List Byte) : Bool := bs.all (fun x => x == 0)

/-- Whether the entries of a section table follow one another, each at a multiple of 64 and inside `len`. -/
def sectionsFollow (len : Nat) : Nat → List (Nat × Nat) → Bool
  | _, [] => true
  | at_, (off, n) :: rest => decide (off % 64 = 0) && decide (at_ ≤ off) && decide (off + n ≤ len) && sectionsFollow len (off + n) rest

/-- The image header of `len` bytes of image. -/
def headerFault (len : Nat) (bs : List Byte) : Option Nat :=
  let secs := (List.range 9).map (fun n => (leAt bs (32 + 16 * n) 4, leAt bs (36 + 16 * n) 4))
  let l (n : Nat) : Nat := leAt bs (36 + 16 * n) 4
  let regions := leAt bs 12 4
  let cells := leAt bs 20 4
  firstSome id [
    need 2 (decide (256 ≤ len) && decide (leAt bs 0 4 = 0x50474D31) && decide (leAt bs 4 2 = 1)
      && decide (1 ≤ leAt bs 6 1) && decide (leAt bs 6 1 ≤ 4) && decide (leAt bs 7 1 = 0) && decide (1 ≤ leAt bs 8 2)
      && decide (leAt bs 8 2 ≤ 4096) && decide (leAt bs 10 2 = 0) && decide (leAt bs 28 4 ≤ 2016)
      && (List.range 9).all (fun n => decide (leAt bs (40 + 16 * n) 8 = 0)) && allZero ((bs.drop 176).take 80)),
    need 2 (sectionsFollow len 256 secs && secs.all (fun s => decide (s.1 ≠ 0))),
    need 2 (decide (l 0 = 32 * regions) && decide (l 1 % 8 = 0) && decide (l 2 = 96 * leAt bs 16 4)
      && decide (l 3 = 2048 * regions + 8 + 40 * leAt bs 24 4) && decide (l 4 = 32 * cells) && decide (l 5 = 8 * cells)
      && decide (l 6 % 64 = 0) && decide (64 ≤ l 6) && decide (l 7 = 256 * regions) && decide (l 8 = 2 * leAt bs 28 4))]

/-- Region-table entry `n` as it stands in memory. -/
def Block.regionEntry (b : Block) (i : Image) (n : Nat) : Region × Bool :=
  let bs := b.peek (i.sec 0 + 32 * n) 32
  ({ cmd := leAt bs 0 2, stage := leAt bs 2 1, start := leAt bs 4 4, x0 := leAt bs 8 1, y0 := leAt bs 9 1, x1 := leAt bs 10 1
     y1 := leAt bs 11 1, prog := leAt bs 12 4, plen := leAt bs 16 2, preset := leAt bs 20 4, cell0 := leAt bs 24 4 },
   leAt bs 3 1 = 0 && leAt bs 18 2 = 0 && leAt bs 28 4 = 0)

/-- The image with its region table. -/
def Block.withRegions (b : Block) (i : Image) : Image :=
  { i with regions := (List.range i.nregions).foldl (fun m n => mset {} m n (b.regionEntry i n).1) [] }

/-- Whether two regions share a cluster. -/
def Region.meets (r s : Region) : Bool :=
  decide (r.x0 ≤ s.x1) && decide (s.x0 ≤ r.x1) && decide (r.y0 ≤ s.y1) && decide (s.y0 ≤ r.y1)

def Region.width (r : Region) : Nat := r.x1 + 1 - r.x0
def Region.height (r : Region) : Nat := r.y1 + 1 - r.y0

/-- One entry of the region table (R106, R110, R116). -/
def Block.regionFault (b : Block) (part : Nat) (i : Image) (n : Nat) : Option Nat :=
  let r := mget ({} : Region) i.regions n
  let others := i.regions.filter (fun s => decide (s.1 ≠ n) && decide (s.2.cmd = r.cmd))
  let area := r.width * r.height
  firstSome id [
    need 2 ((b.regionEntry i n).2 && decide (r.cmd < i.commands) && decide (r.stage < i.stages) && decide (r.start < 2 ^ 24)
      && decide (r.x0 ≤ r.x1) && decide (r.x1 < 80) && decide (r.y0 ≤ r.y1) && decide (r.y1 < 64)),
    need 2 (decide (1 ≤ r.plen) && decide (r.plen ≤ 2048) && decide (8 * (r.prog + r.plen) ≤ i.secLen 1)
      && decide (96 * (r.preset + area) ≤ i.secLen 2) && decide (8 * (r.cell0 + 64 * area) ≤ i.secLen 5)),
    need 2 (r.clusters.all (fun c => b.holdsPlate part (plateOf (8 * c.1) (8 * c.2)))),
    need 2 (decide (others.length < 5120) && others.all (fun s => !r.meets s.2 && (s.2.stage ≠ r.stage || s.2.start = r.start))),
    need 2 (r.stage = 0 || others.any (fun s => decide (s.2.stage + 1 = r.stage)))]

/-- Instruction `k` of the Programs section. -/
def Block.instrAt (b : Block) (i : Image) (k : Nat) : Option SeqOp := SeqOp.decode (leNat (b.peek (i.sec 1 + 8 * k) 8))

/-- The program of a region. -/
def Block.program (b : Block) (i : Image) (r : Region) : List SeqOp := (List.range r.plen).filterMap (fun k => b.instrAt i (r.prog + k))

/-- The instructions (R92): every one decodes, and no branch leaves its region's program. -/
def Block.programFault (b : Block) (i : Image) : Option Nat :=
  firstSome id [
    need 2 ((List.range (i.secLen 1 / 8)).all (fun k => (b.instrAt i k).isSome)),
    need 2 (i.regions.all (fun r => (b.program i r.2).all (fun o =>
      match o.target with | some t => decide (t < r.2.plen) | none => true)))]

/-- Op tables and patches (R69, R116). -/
def Block.opsFault (b : Block) (i : Image) (patches : Nat) : Option Nat :=
  let at_ := i.sec 3 + 2048 * i.nregions
  firstSome id [
    firstSome (fun k => opFault (leNat (b.peek (i.sec 3 + 32 * k) 32))) (List.range (64 * i.nregions)),
    need 2 (decide (leNat (b.peek at_ 8) = patches)),
    firstSome (fun p => (need 2 (!p.reserved && decide (p.entry < 64)
      && i.regions.any (fun r => r.2.covers (p.x / 8) (p.y / 8)))).orElse (fun _ => opFault p.value)) (b.patches i)]

/-- Whether an output of a router at cell (x, y), driven, keeps R108: it does not leave the partition, and does not enter a
region of another command. -/
def Block.linkOk (b : Block) (part : Nat) (i : Image) (r : Region) (x y dir : Nat) : Bool :=
  match neighbour x y dir with
  | none => true
  | some q =>
    b.holdsPlate part (plateOf q.1 q.2) &&
      (let there := i.regions.filter (fun s => s.2.covers (q.1 / 8) (q.2 / 8))
       there.isEmpty || there.any (fun s => decide (s.2.cmd = r.cmd)))

/-- One cell's route table (R108) and constant (R116). -/
def Block.cellFault (b : Block) (part : Nat) (i : Image) (r : Region) (k : Nat) (x y : Nat) : Option Nat :=
  let v := leNat (b.peek (i.sec 4 + 32 * k) 32)
  let src (en o : Nat) : Nat := bits v (15 * en + 3 * o + 2) (15 * en + 3 * o)
  let es := List.range 16
  firstSome id [
    need 2 (decide (bits v 255 240 = 0) && decide (leNat (b.peek (i.sec 5 + 8 * k) 8) < 2 ^ 40)),
    need 0 (es.all (fun en => (List.range 5).all (fun o => decide (src en o ≤ 5)))),
    need 2 (es.all (fun en => (List.range 4).all (fun o => src en o = 0 || b.linkOk part i r x y (o + 1))))]

/-- The presets of a region's clusters (R116). -/
def Block.presetFault (b : Block) (i : Image) (k : Nat) : Option Nat :=
  let bs := b.peek (i.sec 2 + 96 * k) 96
  need 2 (decide (leAt bs 80 1 < 2) && allZero ((bs.drop 81).take 15))

/-- The free ranges of region `n` (R116). -/
def Block.freeFault (b : Block) (i : Image) (n : Nat) : Option Nat :=
  firstSome (fun f =>
    let bs := b.peek (i.sec 7 + 256 * n + 16 * f) 16
    need 2 (decide (leAt bs 0 2 + leAt bs 2 2 ≤ 1024) && decide (leAt bs 4 2 + leAt bs 6 2 ≤ 512) && decide (leAt bs 8 8 = 0)))
    (List.range 16)

/-! ## Macro-instructions (R117, R120, R127) -/

/-- The values that entry `n` has in some cell of a region: that of its table, and those of its patches. -/
def Block.entriesOf (b : Block) (i : Image) (rn n : Nat) : List OpEntry :=
  let r := mget ({} : Region) i.regions rn
  (OpEntry.ofBits (leNat (b.peek (i.sec 3 + 2048 * rn + 32 * n) 32))) ::
    ((b.patches i).filter (fun p => decide (p.entry = n) && r.covers (p.x / 8) (p.y / 8))).map (fun p => OpEntry.ofBits p.value)

/-- The entries that a macro-instruction uses from a list, which holds even and odd groups. -/
def Macro.parities (w : Macro) (l : List Nat) : List Nat := if w.dbuf then l else l.take 1

/-- The row interval c_r of a pass (R65). -/
def rowInterval (fa fb : Fmt) (transB : Bool) : Nat :=
  let c := max fa.cls fb.cls
  if c ≤ 1 then 1 else if c = 2 then (if transB then 8 else 4) else 16

/-- The spill condition of R127 for a round of `mc` rows. -/
def spillOk (fa fb : Fmt) (transB : Bool) (nK s mc : Nat) : Bool :=
  let p := nK - s * ((nK - 1) / max 1 s)
  decide (nK ≤ s) ||
    decide (2 + max (12 * mc) (rowInterval fa fb transB * (mc - 1) + 12) ≤ p * passCycles fa fb transB mc + 10)

/-- The tail of a group of `mc` rows: T_chain + T_drain + T_flush + T_epi (R127, R128). -/
def WalkCtx.tailCycles (k : WalkCtx) (rnd next : Nat) : Nat :=
  let mc := k.w.rows k.s rnd
  let fc := fmtOf k.tC.fmt
  let tails (r : Nat) : Nat := perCluster ((k.activeCells r).filter (fun c => decide (c.2.2.k + 1 = max 1 k.w.gk)))
  let chain := if k.w.gk ≤ 1 then 0 else 4 * mc + 3 * (k.w.gk - 1) + 4 * k.chainBounds
  let epi := match k.tE with
    | some t => ceilDiv (tails next * (k.w.rows k.s next * storedBytes (fmtOf t.fmt) (8 * drainTiles fc))) 64
    | none => 0
  chain + drainCycles fc mc + ceilDiv (tails rnd * mc * storedBytes fc (8 * drainTiles fc)) 64 + epi

/-- The S3 condition of R127: the tail of every group fits the passes of the group that follows. -/
def WalkCtx.tailsFit (k : WalkCtx) : Bool :=
  let len (r : Nat) : Nat := k.s.nK * passCycles (fmtOf k.tA.fmt) (fmtOf k.tB.fmt) k.w.tb (k.w.rows k.s r)
  (List.range k.s.nrnd).all (fun r =>
    (k.s.nN ≤ 1 || decide (k.tailCycles r r ≤ len r)) && (r + 1 = k.s.nrnd || decide (k.tailCycles r (r + 1) ≤ len (r + 1))))

/-- Whether two half-open byte ranges share a byte. -/
def meets (x y : Nat × Nat) : Bool := decide (x.1 < y.1 + y.2) && decide (y.1 < x.1 + x.2)

/-- Whether the buffers of different kinds stay apart and inside the local store (R120). -/
def apart : List (List (Nat × Nat)) → Bool
  | [] => true
  | k :: ks => k.all (fun x => decide (x.1 + x.2 ≤ 16384)) && ks.all (fun l => l.all (fun y => k.all (fun x => x.2 = 0 || y.2 = 0 || !meets x y)))
      && apart ks

/-- The checks of a macro-instruction that need no region. -/
def macroShape (w : Macro) : Bool :=
  decide (w.magic = 0xA7) && decide (w.ver = 1) && decide (w.op = 0) && !w.reserved && decide (w.k ≠ 0)
    && (w.dbuf || decide (w.gk ≤ 1)) && (!w.dbuf || decide (w.mr ≤ 32))
    && decide (1 ≤ w.gk) && decide (1 ≤ w.gnx) && decide (1 ≤ w.gny) && decide (1 ≤ w.gm)

/-- The bytes that a walk places on a local store in one cycle (R85, R120): the A rows, the weight tiles, the spill drain
and the flush. -/
def WalkCtx.lsBytes (k : WalkCtx) (spills : Bool) (mc : Nat) : Nat :=
  let fa := fmtOf k.tA.fmt
  let fb := fmtOf k.tB.fmt
  ceilDiv (fa.packed k.s.kt + fa.scaleBytes) (rowInterval fa fb k.w.tb)
    + (if k.w.wres then ceilDiv (k.tileBytes + k.scaleBytes) (passCycles fa fb k.w.tb mc) else 0) + (if spills then 16 else 0) + 4

/-- The checks of R120 and R127 of a macro-instruction in region `rn`. -/
def Block.macroFits (b : Block) (part : Nat) (i : Image) (rn : Nat) (w : Macro) : Bool :=
  let r := mget ({} : Region) i.regions rn
  let k := b.walkCtx part r w
  let es (l : List Nat) : List OpEntry := (w.parities l).flatMap (b.entriesOf i rn)
  let pairOk (l : List Nat) : Bool := !w.dbuf ||
    (b.entriesOf i rn (l.getD 1 0)).all (fun o => (b.entriesOf i rn (l.getD 0 0)).all (fun z => o.accBase = z.accBase + 256))
  let many := decide (1 < k.s.nrnd)
  let mcL := k.w.rows k.s (k.s.nrnd - 1)
  let used (full last : List Nat) : List (OpEntry × Nat) :=
    (if many then (es full).map (fun o => (o, w.mr)) else []) ++ (es last).map (fun o => (o, mcL))
  let mma := used w.mma w.mmaLast
  let chn := if w.gk ≤ 1 then [] else used w.chn w.chnLast
  let drn := used w.drn w.drnLast
  let fa := fmtOf k.tA.fmt
  let fb := fmtOf k.tB.fmt
  let fc := fmtOf k.tC.fmt
  let tensors := [k.tA, k.tB, k.tC] ++ k.tE.toList
  let weights := if w.wres then [(w.wls, k.weightBytes)] else []
  let spilling := mma.any (fun o => decide (o.1.spillEvery < k.s.nK))
  let spill := if spilling then mma.map (fun o => (o.1.lsSpill, 96 * o.1.mc)) else []
  let out := drn.map (fun o => (o.1.lsOut, o.1.mc * storedBytes fc (8 * drainTiles fc)))
  let epi := match k.tE with
    | some t => drn.map (fun o => (o.1.lsEpi, o.1.mc * storedBytes (fmtOf t.fmt) (8 * drainTiles fc)))
    | none => []
  tensors.all (fun t => (t.fault part).isNone) && decide (w.gk * w.gnx = 8 * r.width) && decide (w.gny * w.gm = 8 * r.height)
    && mma.all (fun o => o.1.valid && decide (o.1.opc = 1) && decide (o.1.mc = o.2) && decide (o.1.fmtA = k.tA.fmt)
      && decide (o.1.fmtB = k.tB.fmt) && (o.1.transB == w.tb) && decide (o.1.bSrc = (if w.wres then 0 else 5)) && decide (o.1.aSrc = 5)
      && spillOk fa fb w.tb k.s.nK o.1.spillEvery o.1.mc && decide (k.lsBytes spilling o.1.mc ≤ 32))
    && chn.all (fun o => o.1.valid && decide (o.1.opc = 3) && decide (o.1.mc = o.2))
    && drn.all (fun o => o.1.valid && decide (o.1.opc = 2) && decide (o.1.mc = o.2) && decide (o.1.fmtOut = k.tC.fmt)
      && decide (o.1.outDst = 0))
    && (!many || (pairOk w.mma && pairOk w.drn && (w.gk ≤ 1 || pairOk w.chn)))
    && pairOk w.mmaLast && pairOk w.drnLast && (w.gk ≤ 1 || pairOk w.chnLast)
    && (!w.ta || (!fa.isMx && decide (fa.cls ≠ 0))) && (!w.tb || !fb.isMx)
    && (w.batch ≤ 1 || w.list || tensors.all (fun t => decide (3 ≤ t.ndim)))
    && apart [weights, spill, out, epi] && k.tailsFit

/-- Whether the WALK of a region can name the macro-instruction at `a`: an address register it walks by is preset or loaded
with its address. -/
def Block.walksTo (b : Block) (i : Image) (r : Region) (a : Nat) : Bool :=
  let ops := b.program i r
  ops.any (fun o => match o with
    | .walk n => mget 0 (b.preset i r.preset).1 n = a / 256 || ops.contains (.lda n (a / 256))
    | _ => false)

/-- Whether a region holds a WALK at all. -/
def Block.walks (b : Block) (i : Image) (r : Region) : Bool :=
  (b.program i r).any (fun o => match o with | .walk _ => true | _ => false)

/-- One macro-instruction that the index names: checked against every region whose WALK names it; where none is found to,
some region that walks accepts it. -/
def Block.macroFault (b : Block) (part : Nat) (i : Image) (a : Nat) : Option Nat :=
  let w := Macro.ofBits (leNat (b.peek a 128))
  let named := i.regions.filter (fun r => b.walksTo i r.2 a)
  let walking := i.regions.filter (fun r => b.walks i r.2)
  need 2 (decide (a % 256 = 0) && macroShape w &&
    (if named.isEmpty then walking.isEmpty || walking.any (fun r => b.macroFits part i r.1 w)
     else named.all (fun r => b.macroFits part i r.1 w)))

/-- The Descriptors section (R117). -/
def Block.descFault (b : Block) (part : Nat) (i : Image) : Option Nat :=
  let bs := b.peek (i.sec 6) 64
  let n := leAt bs 0 4
  let first := leAt bs 4 4
  firstSome id [
    need 2 (allZero (bs.drop 8) && (n = 0 || (decide (64 ≤ first) && decide (first + 256 * (n - 1) + 128 ≤ i.secLen 6)))),
    firstSome (fun j => b.macroFault part i (i.sec 6 + first + 256 * j)) (List.range n)]

/-- Every check of a program image of `len` bytes at `base`, in the order of its sections: the reason and the section, 9 for
the header. -/
def Block.imageFault (b : Block) (part base len : Nat) : Option (Nat × Nat) :=
  let bs := b.peek base 256
  match headerFault len bs with
  | some r => some (r, 0)
  | none =>
    let i := b.withRegions (Image.ofHeader base bs)
    let at_ (n : Nat) (x : Option Nat) : Option (Nat × Nat) := x.map (fun r => (r, i.sec n - base))
    firstSome id [
      at_ 0 (firstSome (fun n => b.regionFault part i n) (List.range i.nregions)),
      at_ 1 (b.programFault i),
      at_ 2 (firstSome (fun k => b.presetFault i k) (List.range (i.secLen 2 / 96))),
      at_ 3 (b.opsFault i (leAt bs 24 4)),
      at_ 4 (firstSome (fun r => firstSome (fun c => b.cellFault part i r.2 (r.2.cell0 + c.2) c.1.1 c.1.2)
        (r.2.rowCells.zip (List.range r.2.rowCells.length))) i.regions),
      at_ 6 (b.descFault part i),
      at_ 7 (firstSome (fun n => b.freeFault i n) (List.range i.nregions)),
      at_ 8 (need 2 ((List.range i.slots).all (fun s => decide (leNat (b.peek (i.sec 8 + 2 * s) 2) < 1024))))]

end Sys2Proof.Machine
end

