-- ==== Sys2Proof/Machine/Load.lean ====
section
/-! DEFINITION. LOAD and UNLOAD (R317 to R321): the job-image container, its relocation, its checks and its effects. -/
namespace Sys2Proof.Machine

/-- The load block (R319). -/
structure LoadBlock where
  image : Nat
  host : Bool
  len : Nat
  jobId : Nat
  part : Nat
  g0 : Nat
  seed : Nat
  delta : Int
  reserved : Option Nat
deriving DecidableEq, Repr

def LoadBlock.ofBytes (bs : List Byte) : LoadBlock where
  image := leAt bs 0 6
  host := bit (leAt bs 7 1) 7
  len := leAt bs 8 4
  jobId := leAt bs 12 2
  part := leAt bs 14 1 % 16
  g0 := leAt bs 16 6
  seed := leAt bs 24 8
  delta := sext 48 (leAt bs 32 6)
  reserved :=
    if leAt bs 6 2 % 2 ^ 15 ≠ 0 then some 6 else if 16 ≤ leAt bs 14 1 then some 14 else if leAt bs 15 1 ≠ 0 then some 15
    else if leAt bs 22 2 ≠ 0 then some 22 else if leAt bs 38 8 ≠ 0 || leAt bs 46 18 ≠ 0 then some 38 else none

/-- A container as its header locates it: bytes, and offset, length and count of each of its nine sections in the order of R317:
0 device list, 1 training record, 2 generational regions, 3 bucket table, 4 exact regions, 5 sync objects, 6 program image,
7 step lists, 8 relocations. -/
structure Container where
  bytes : List Byte
deriving DecidableEq, Repr

def Container.off (c : Container) (n : Nat) : Nat := leAt c.bytes (32 + 16 * n) 4
def Container.len (c : Container) (n : Nat) : Nat := leAt c.bytes (36 + 16 * n) 4
def Container.count (c : Container) (n : Nat) : Nat := leAt c.bytes (40 + 16 * n) 4

/-- Byte `k` and up of section `n`, `m` of them, as a number. -/
def Container.num (c : Container) (n k m : Nat) : Nat := leAt c.bytes (c.off n + k) m

/-- The size of an entry of a section; 0 where the section has none. -/
def entrySize (n : Nat) : Nat := ([2, 128, 32, 64, 16, 4, 0, 0, 8] : List Nat).getD n 0

/-- What is wrong with a header whose CRC should be `crc`. -/
def Container.headerWith (c : Container) (crc : Nat) : Option Nat :=
  let bs := c.bytes
  let absent (n : Nat) : Bool := decide (c.off n = 0) && decide (c.len n = 0) && decide (c.count n = 0)
  let secs := (List.range 9).filter (fun n => !((n = 1 || n = 3) && absent n))
  let at_ (ok : Bool) (off : Nat) : Option Nat := if ok then none else some off
  firstSome id [
    at_ (leAt bs 0 4 = 0x4A494D47) 0, at_ (leAt bs 4 2 = 1) 4, at_ (leAt bs 6 1 < 2) 6, at_ (leAt bs 7 1 = 0) 7,
    at_ (1 ≤ leAt bs 8 2 && leAt bs 8 2 ≤ 1024 && leAt bs 8 2 = c.count 0) 8, at_ (leAt bs 10 2 = 0) 10,
    at_ (leAt bs 12 4 = bs.length) 12, at_ (leAt bs 16 4 = crc) 16, at_ (allZero ((bs.drop 20).take 12)) 20,
    firstSome (fun n => at_ (decide (leAt bs (44 + 16 * n) 4 = 0) && (entrySize n = 0 || c.len n = entrySize n * c.count n))
      (32 + 16 * n)) (List.range 9),
    at_ (secs.all (fun n => decide (c.off n ≠ 0)) && sectionsFollow bs.length 256 (secs.map (fun n => (c.off n, c.len n)))) 32,
    at_ (c.count 1 ≤ 1) 48, at_ (c.count 2 ≤ 16) 64, at_ (c.count 4 ≤ 7) 96, at_ (allZero ((bs.drop 176).take 80)) 176]

/-- A header that breaks its layout refuses the load with reason 7 (R318); the offset of the field. Its CRC is taken over the
container with the CRC field zero (R317). -/
def Container.headerFault (c : Container) : Option Nat := c.headerWith (crc32c (overlay c.bytes 16 (zeros 4)))

/-! ## Relocation (R317, R320)

A relocation names its field by the field's first bit, counted from the first bit of the container: only so can it name PART of a
tensor descriptor, which begins inside a byte. An address field is as wide as its own layout makes it, and takes DELTA in its own
unit. -/

/-- Width and unit of the address field that begins at bit `at_`. -/
def Container.fieldAt (c : Container) (at_ : Nat) : Nat × Nat :=
  let base := c.off 6
  let sec (n : Nat) : Nat := base + c.num 6 (32 + 16 * n) 4
  let len (n : Nat) : Nat := c.num 6 (36 + 16 * n) 4
  let inside (n : Nat) : Bool := decide (sec n ≤ at_ / 8) && decide (at_ / 8 < sec n + len n)
  let rel := at_ - 8 * (sec 6 + leAt c.bytes (sec 6 + 4) 4)
  if inside 1 || inside 2 then (40, 1)
  else if inside 6 && decide (8 * (sec 6 + leAt c.bytes (sec 6 + 4) 4) ≤ at_)
      && decide (rel / 2048 < leAt c.bytes (sec 6) 4) && [750, 708, 666, 624, 582].contains (rel % 2048) then (42, 64)
  else (48, 1)

/-- Writes the `w` bits of `v` at bit `at_` of a byte list. -/
def setBits (bs : List Byte) (at_ w v : Nat) : List Byte :=
  let n := ceilDiv (at_ % 8 + w) 8
  let old := leAt bs (at_ / 8) n
  let keep := old - (bits old (at_ % 8 + w - 1) (at_ % 8)) * 2 ^ (at_ % 8)
  overlay bs (at_ / 8) (leBytes n (keep + field v w (at_ % 8)))

/-- The relocation list, applied. -/
def Container.relocate (c : Container) (k : LoadBlock) : Container :=
  (List.range (c.count 8)).foldl (fun c j =>
    let v := c.num 8 (8 * j) 8
    let at_ := bits v 31 0
    if bit v 32 then { bytes := setBits c.bytes at_ 4 k.part }
    else
      let f := c.fieldAt at_
      let old := bits (leAt c.bytes (at_ / 8) (ceilDiv (at_ % 8 + f.1) 8)) (at_ % 8 + f.1 - 1) (at_ % 8)
      { bytes := setBits c.bytes at_ f.1 (twos f.1 ((old : Int) + k.delta / (f.2 : Int))) }) c

/-- Whether every relocation names a field inside the container and sets no reserved bit. -/
def Container.relocsOk (c : Container) : Bool :=
  (List.range (c.count 8)).all (fun j =>
    let v := c.num 8 (8 * j) 8
    decide (bits v 63 33 = 0) && decide (bits v 31 0 + (if bit v 32 then 4 else 48) ≤ 8 * c.bytes.length))

/-! ## The sections -/

def Container.devices (c : Container) : List Nat := (List.range (c.count 0)).map (fun j => c.num 0 (2 * j) 2)

/-- The training record (R151), where there is one. -/
def Container.training (c : Container) : Option Training :=
  if c.count 1 = 0 then none
  else some { floats := (List.range 14).map (fun j => c.num 1 (4 * j) 4), stages := c.num 1 64 2, mb := c.num 1 66 2
              shards := c.num 1 68 2, buckets := c.num 1 70 2, axis := c.num 1 72 1, mode := c.num 1 73 1, opt := c.num 1 74 1
              advance := c.num 1 76 4, gaccBase := c.num 1 80 6 }

def Container.regions (c : Container) : List GenReg :=
  (List.range (c.count 2)).map (fun j =>
    { role := c.num 2 (32 * j) 1, baseA := c.num 2 (32 * j + 8) 8, baseB := c.num 2 (32 * j + 16) 8, len := c.num 2 (32 * j + 24) 8 })

def Container.buckets (c : Container) : List Bucket :=
  (List.range (c.count 3)).map (fun j =>
    { base0 := c.num 3 (64 * j) 8, base1 := c.num 3 (64 * j + 8) 8, elems := c.num 3 (64 * j + 16) 4
      gaccOff := c.num 3 (64 * j + 20) 4, soFull := c.num 3 (64 * j + 24) 2, soFree := c.num 3 (64 * j + 26) 2
      writers := c.num 3 (64 * j + 28) 2, expSlot := c.num 3 (64 * j + 30) 2, fmt := c.num 3 (64 * j + 32) 1 })

/-- Bytes of one buffer set of a bucket (R38, R145). -/
def Bucket.bytes (k : Bucket) : Nat := if k.fmt = 0x12 then k.elems / 64 * 129 else 12 * k.elems

/-- The GACC area of a training job (R148): one ACC96 word per shard element, in whole line pairs. -/
def gaccRegion (t : Training) (bs : List Bucket) : List (Nat × Nat) :=
  let words := (bs.map (fun k => k.gaccOff + k.elems / max 1 t.shards)).foldl max 0
  if words = 0 then [] else [(t.gaccBase, 192 * ceilDiv (12 * words) 192)]

/-- The exact regions of a job: the GACC area first, then those declared (R234). -/
def Container.exact (c : Container) : List (Nat × Nat) :=
  (match c.training with | some t => gaccRegion t c.buckets | none => []) ++
    (List.range (c.count 4)).map (fun j => (c.num 4 (16 * j) 8, c.num 4 (16 * j + 8) 8))

/-- The sync-object table: object, mode, step-scoped. -/
def Container.objects (c : Container) : List (Nat × Nat × Bool) :=
  (List.range (c.count 5)).map (fun j =>
    let v := c.num 5 (4 * j) 4
    (bits v 12 0, bits v 14 13, bit v 15))

/-- A step list (R320): queue, engine, offset of its first descriptor in the container, count. -/
structure StepList where
  queue : Nat
  engine : Nat
  at_ : Nat
  count : Nat
  reserved : Bool
deriving DecidableEq, Repr

/-- The step lists from offset `at_` of the section on; none where the section does not hold them whole. -/
def Container.listsFrom (c : Container) : Nat → Nat → Option (List StepList)
  | 0, at_ => if at_ = c.len 7 then some [] else none
  | n + 1, at_ =>
    let count := c.num 7 (at_ + 4) 4
    let next := at_ + 16 + 64 * count
    if c.len 7 < next || count = 0 || 65536 < count then none
    else (c.listsFrom n next).map (fun l =>
      { queue := c.num 7 at_ 1, engine := c.num 7 (at_ + 1) 1, at_ := c.off 7 + at_ + 16, count := count
        reserved := decide (c.num 7 (at_ + 2) 2 ≠ 0) || decide (c.num 7 (at_ + 8) 8 ≠ 0) } :: l)

def Container.lists (c : Container) : Option (List StepList) := c.listsFrom (c.count 7) 0

/-- The descriptors of a step list. -/
def Container.descs (c : Container) (l : StepList) : List Desc :=
  (List.range l.count).map (fun j => Desc.ofBytes ((c.bytes.drop (l.at_ + 64 * j)).take 64))

/-! ## The checks; each answers a reason of R331 -/

/-- Whether two lists of ranges, in order, share no byte. -/
def disjoint : List (Nat × Nat) → Bool
  | [] => true
  | x :: xs => xs.all (fun y => !meets x y) && disjoint xs

/-- Device list (R266, R318). -/
def Block.devicesFault (b : Block) (c : Container) : Option Nat :=
  need 7 (c.devices.all (fun d => decide (d < 1024) && (b.topo.coord d).isSome) && c.devices.contains b.topo.self)

/-- Training record (R138, R140, R145, R151). -/
def Block.trainingFault (b : Block) (c : Container) : Option Nat :=
  match c.training with
  | none => none
  | some t => firstSome id [
      need 0 (decide (t.axis ≤ 2) && decide (t.mode ≤ 1) && decide (t.opt ≤ 1)),
      need 7 (decide (t.stages = ([b.topo.sx, b.topo.sy, b.topo.sz] : List Nat).getD t.axis 0) && decide (t.stages ≤ t.mb)
        && decide (t.buckets ≤ 4096) && t.floats.all (fun x => (fp32 x).isFinite) && decide (c.num 1 56 8 = 0)
        && decide (c.num 1 75 1 = 0) && decide (c.num 1 86 2 = 0) && decide (t.gaccBase % 64 = 0) && decide (c.num 1 88 40 = 0)
        && decide (t.buckets = c.count 3))]

/-- Generational regions (R156). -/
def Block.regionsFault (b : Block) (part : Nat) (c : Container) : Option Nat :=
  let rs := c.regions
  let roles (n : Nat) : Nat := (rs.filter (fun r => r.role = n)).length
  firstSome id [
    need 0 (rs.all (fun r => decide (r.role ≤ 2)) && (List.range (c.count 2)).all (fun j => decide (c.num 2 (32 * j + 1) 7 = 0))),
    need 6 (rs.all (fun r => decide (r.baseA % 4096 = 0) && decide (r.baseB % 4096 = 0) && decide (r.len ≠ 0) && decide (r.len % 64 = 0)
      && b.spanInPart part r.baseA r.len && b.spanInPart part r.baseB r.len && (r.role ≠ 1 || decide (4096 ≤ r.len)))),
    need 6 (disjoint (rs.flatMap (fun r => [(r.baseA, r.len), (r.baseB, r.len)]))),
    need 7 (c.training.isNone || (decide (roles 1 = 1) && decide (roles 2 = 1)))]

/-- The mode that an object has once the listed modes are set. -/
def Block.modeAfter (b : Block) (c : Container) (n : Nat) : Nat :=
  ((c.objects.reverse.find? (fun o => decide (o.1 = n))).map (fun o => o.2.1)).getD (b.obj n).mode

/-- Bucket table (R145). -/
def Block.bucketsFault (b : Block) (part : Nat) (c : Container) : Option Nat :=
  match c.training with
  | none => need 7 (decide (c.count 3 = 0))
  | some t =>
    let ks := c.buckets
    let mine (n : Nat) : Bool := decide (n < 8192) && decide ((b.obj n).part = part) && decide (b.modeAfter c n = 0)
    firstSome id [
      need 1 (ks.all (fun k => decide (k.fmt = (if t.mode = 0 then 0x11 else 0x12)))),
      need 7 (ks.all (fun k => decide (0x400000 ≤ k.bytes) && decide (k.bytes ≤ 0x4000000)
        && decide (k.elems % ((if k.fmt = 0x12 then 1024 else 1) * max 1 t.shards) = 0) && decide (k.expSlot < 2016)
        && decide (1 ≤ k.writers) && decide (k.base0 % 64 = 0) && decide (k.base1 % 64 = 0))),
      need 6 (ks.all (fun k => b.spanInPart part k.base0 k.bytes && b.spanInPart part k.base1 k.bytes)
        && disjoint (ks.flatMap (fun k => [(k.base0, k.bytes), (k.base1, k.bytes)]))),
      need 6 (ks.all (fun k => mine k.soFull && mine k.soFree)),
      need 7 ((List.range (c.count 3)).all (fun j => decide (c.num 3 (64 * j + 33) 31 = 0)))]

/-- Exact regions (R234). -/
def Block.exactFault (b : Block) (part : Nat) (c : Container) : Option Nat :=
  let others := b.shc.exact.filter (fun r => r.2.valid)
  let own := (others.filter (fun r => decide (r.2.part = part))).length
  need 6 (c.exact.all (fun r => decide (r.1 % 64 = 0) && decide (r.2 ≠ 0) && decide (r.2 % 192 = 0) && b.spanInPart part r.1 r.2)
    && disjoint c.exact && c.exact.all (fun r => others.all (fun o => !meets r (o.2.base, o.2.len)))
    && decide (own + c.exact.length ≤ 8) && decide (others.length + c.exact.length ≤ 64))

/-- Sync-object table (R322). -/
def Block.objectsFault (b : Block) (part : Nat) (c : Container) : Option Nat :=
  firstSome (fun o =>
    let x := b.obj o.1
    firstSome id [
      need 0 (decide (o.2.1 ≠ 3)), need 6 (decide (x.part = part)),
      need 7 (o.2.1 = x.mode || ((x.mode = 0 || x.state = 0) && (o.2.1 ≠ 2 || (b.slotOf o.1).isSome)))]) c.objects

/-- Step lists (R162, R305, R320, R321). -/
def Block.listsFault (b : Block) (part : Nat) (c : Container) : Option Nat :=
  match c.lists with
  | none => some 7
  | some ls =>
    let ds := ls.flatMap c.descs
    let done := (ds.filter Desc.genDone).length
    firstSome id [
      need 7 (ls.all (fun l => !l.reserved) && decide ((ls.map (fun l => l.queue)).eraseDups.length = ls.length)),
      need 5 (ls.all (fun l =>
        let x := b.queue l.queue
        decide (x.part = part) && decide (2 * l.count ≤ x.cap) && b.mayBind l.engine part
          && (x.host || b.spanInPart part x.base (64 * x.cap)))),
      need 4 (ds.all (fun d => d.deps.all (fun r => r.2 = 0 || ls.any (fun l => decide (l.queue = r.1) && decide (r.2 ≤ l.count))))),
      need 7 (decide (done = (if c.training.isNone then 1 else 0)) && decide ((ds.filter Desc.axEnd).length ≤ 1))]

/-- Every check of a relocated container whose bytes lie at `base` in `b`: the reason, and the offset in the container. -/
def Block.containerFault (b : Block) (part base : Nat) (c : Container) : Option (Nat × Nat) :=
  let at_ (n : Nat) (x : Option Nat) : Option (Nat × Nat) := x.map (fun r => (r, c.off n))
  firstSome id [
    at_ 0 (b.devicesFault c), at_ 1 (b.trainingFault c), at_ 2 (b.regionsFault part c), at_ 3 (b.bucketsFault part c),
    at_ 4 (b.exactFault part c), at_ 5 (b.objectsFault part c),
    (b.imageFault part (base + c.off 6) (c.len 6)).map (fun r => (r.1, c.off 6 + r.2)), at_ 7 (b.listsFault part c)]

/-! ## Releasing a job (R317, R234) -/

/-- Releases a job's exact regions, sync-object modes and job queues, and forgets it. -/
def Block.releaseJob (b : Block) (p : Nat) : Block :=
  let g := b.gen p
  let b := g.job.objects.foldl (fun b o => b.setObj o.1 { b.obj o.1 with
    mode := 0, val := 0, state := 0, step := false, holder := 0, holderPart := 0 }) b
  let b := g.job.lists.foldl (fun b l => b.setQueue l.1 { b.queue l.1 with job := false, gateAt := 0 }) b
  let b : Block := { b with
    shc := { b.shc with exact := b.shc.exact.filter (fun r => r.2.part ≠ p) }
    plates := { b.plates with images := mset {} b.plates.images p {} } }
  b.setGen p { regs := { g.regs with state := 0, jobId := 0, root := false, orddep := false, prevIntact := false, regions := [] } }

/-! ## LOAD -/

/-- What LOAD leaves of a job in the generation unit (R157, R167). -/
def Block.newJob (b : Block) (e : Env) (k : LoadBlock) (base : Nat) (c : Container) : GenUnit :=
  let old := b.gen k.part
  let lists := c.lists.getD []
  { regs := { old.regs with
      state := 1, prevIntact := false, orddep := false, root := decide (rootOf c.devices = b.topo.self), epoch := 0
      jobId := k.jobId, visible := k.g0, printed := 0, fixTick := 0
      regions := (c.regions.zip (List.range c.regions.length)).foldl (fun m r => mset {} m r.2 r.1) [] }
    aux := { rejoinBy := e.clk.now + 1000 * old.regs.rejoinTimeout }
    job := { devices := c.devices, deterministic := bit (leAt c.bytes 6 1) 0, training := c.training, buckets := c.buckets
             objects := c.objects, exact := c.exact, lists := lists.map (fun l => (l.queue, base + l.at_, l.count))
             seed := k.seed, g0 := k.g0 } }

/-- The RNG region that LOAD writes into BANK(0) when G0 = 0 (R319): the seed, STEP 0, +0.0, and the exposure presets. -/
def Block.seedRng (b : Block) (e : Env) (p seed : Nat) : Block :=
  match (b.gen p).regs.withRole 1 with
  | none => b
  | some r =>
    let i := b.image p
    let slots := b.peek (i.sec 8) (2 * i.slots)
    b.genStore e (r.at 0 0) (padTo 4096 (leBytes 8 seed ++ zeros 56 ++ slots))

/-- What a load that passes every check does. -/
def Block.acceptLoad (b : Block) (e : Env) (q : Nat) (r : Running) (k : LoadBlock) (base : Nat) (c : Container) :
    Block × SMap Nat :=
  let p := k.part
  let b := b.setGen p (b.newJob e k base c)
  let img := b.withRegions (Image.ofHeader (base + c.off 6) (b.peek (base + c.off 6) 256))
  let b := b.setImage p img
  let b := (List.range img.nregions).foldl (fun b n => b.loadRegion p n) b
  let b := if k.g0 = 0 then b.seedRng e p k.seed else b
  let b := b.declareExact p
  let b := c.objects.foldl (fun b o =>
    let b := b.syncMode e (engineReq 46) p o.1 o.2.1
    b.setObj o.1 { b.obj o.1 with step := o.2.2 }) b
  let b := (c.lists.getD []).foldl (fun b l =>
    (b.setQueue l.queue { b.queue l.queue with engine := l.engine, job := true }).enableQueue l.queue) b
  let b : Block := { b with int := { b.int with
    latentPoison := mset false b.int.latentPoison p false, tryLog := mset [] b.int.tryLog p [], faultLog := mset [] b.int.faultLog p [] } }
  let b := (b.queueEvent e q 10 0 r.seq [(26, 2, k.jobId)]).retireCmd q r.seq
  let e : Env := { e with cur := mset 0 e.cur p k.g0 }
  let o := b.progressLoaded e p
  (o.1, mset 0 e.cur p o.2)

/-- Whether a partition may be loaded: memory has not failed (R211), and none of its plates has failed (R394) or holds a failed
row that is not mapped out (R393). -/
def Block.takesJobs (b : Block) (p : Nat) : Bool :=
  !b.mem.failed && (b.platesOf p).all (fun k => !bit b.int.unmapped k && !bit b.int.plateFailed k)

/-- What the load block alone refuses (R317, R319, R331): the reason and the offset in the block. -/
def Block.loadBlockFault (b : Block) (k : LoadBlock) (part : Nat) : Option (Nat × Nat) :=
  match k.reserved with
  | some off => some (0, off)
  | none =>
    if 8 ≤ k.part || !(mget ({} : Part) b.fe.parts k.part).valid || (part ≠ 15 && part ≠ k.part) || b.holdsJob k.part
        || !b.takesJobs k.part then some (6, 14)
    else if k.len < 256 then some (7, 8)
    else if !k.host && !b.spanInPart k.part k.image k.len then some (6, 0)
    else if k.host && (k.delta < 0 || !b.spanInPart k.part k.delta.toNat k.len) then some (6, 32)
    else none

/-- LOAD (R317): reads the load block and the container, relocates it, checks it, and makes the job the partition's. A container
in host memory is copied to DELTA in the partition's memory, one in device memory is relocated where it lies. A refused load
leaves the partition as it was. -/
def Block.doLoad (b : Block) (e : Env) (q : Nat) : Block × SMap Nat :=
  match b.activeOpc q 1 with
  | none => (b, e.cur)
  | some r =>
    let arg := b.readArg e (engineReq 46) (b.queue q) r 64
    let k := LoadBlock.ofBytes arg.2
    let b := arg.1
    match b.loadBlockFault k r.part with
    | some f => (b.refuseCmd e q r.seq f.1 f.2, e.cur)
    | none =>
      let o := if k.host then b.takeHost false k.image k.len else b.readMem e { id := engineReq 46, part := k.part } k.image k.len
      let b := o.1
      let raw : Container := { bytes := o.2.map Prod.fst }
      let base := if k.host then k.delta.toNat else k.image
      if o.2.any Prod.snd then (b.refuseCmd e q r.seq 7 16, e.cur)
      else match raw.headerFault with
      | some off => (b.refuseCmd e q r.seq 7 off, e.cur)
      | none =>
        if !raw.relocsOk then (b.refuseCmd e q r.seq 7 (raw.off 8), e.cur)
        else
          let c := raw.relocate k
          let free := b.releaseJob k.part
          let placed := free.writeMem e { id := engineReq 46, part := k.part, own := true } false base (clean c.bytes)
          match placed.containerFault k.part base c with
          | some f => (b.refuseCmd e q r.seq f.1 f.2, e.cur)
          | none => placed.acceptLoad e q r k base c

/-! ## UNLOAD -/

/-- UNLOAD (R317): stops the job at once with a partition reset, and releases what it held. -/
def Block.doUnload (b : Block) (e : Env) (q : Nat) : Block :=
  match b.activeOpc q 2 with
  | none => b
  | some r =>
    let id := r.desc.imm % 65536
    match (List.range 8).find? (fun p => decide ((b.gen p).regs.state ≠ 0) && decide ((b.gen p).regs.jobId = id)
        && (decide (r.part = 15) || decide (r.part = p))) with
    | none => b.refuseCmd e q r.seq 6 60
    | some p =>
      let b := (b.retireCmd q r.seq).partitionReset e p 8
      (b.releaseJob p).post e { cls := 1, sev := 0, code := 11, part := p, source := feSource
                                payload := [(24, 1, q), (26, 2, id), (32, 8, r.seq)] }

end Sys2Proof.Machine
end

