-- ==== Sys2Proof/Machine/HostOps.lean ====
section
/-! DEFINITION. What the host does through PCIe (R298 to R304, R312, R322 to R325, R329, R330, R339): queue windows, partition
layout, sync objects and guard slots, event rings, function-level resets, apertures, links. A write of a function to what it does
not own is ignored; every write is dropped while the device does not take register writes (R299, R339). -/
namespace Sys2Proof.Machine

/-- Counts a refused binding or partition write (R303, R312). -/
def Block.bindRefused (b : Block) : Block := b.bumpFe 0x830 1

/-! ## Queue windows (R304, R311, R312) -/

/-- A write of FE_Qq_CTL as a whole: ENABLE, PART (PF0 only), ENGINE, SIZE and VECTOR. -/
def Block.queueCtl (b : Block) (e : Env) (f q : Nat) (enable : Bool) (part engine size vector : Nat) : Block :=
  let x := b.queue q
  let part := if f = 0 then part else x.part
  let moved := decide (part ≠ x.part) || decide (engine ≠ x.engine)
  if !b.reachesQueue f q then b
  else if (moved && x.enable) || ((moved || (enable && !x.enable)) && !b.mayBind engine part) then b.bindRefused
  else
    let b := b.setQueue q { x with part := part, engine := engine, size := min 10 size, vector := vector % 128 }
    if enable && !x.enable then b.enableQueue q
    else if !enable && x.enable then
      let b := (b.setQueue q { b.queue q with enable := false }).abandonQueue e q
      (b.setQueue q { b.queue q with state := 0 }).wakeEngine e x.engine
    else b

/-- QUEUE_ENABLE: ENABLE set, the rest of the register as it is. -/
def Block.doQueueEnable (b : Block) (e : Env) (f q : Nat) : Block :=
  let x := b.queue q
  b.queueCtl e f q true x.part x.engine x.size x.vector

/-- QUEUE_DISABLE: ENABLE cleared (R311). -/
def Block.doQueueDisable (b : Block) (e : Env) (f q : Nat) : Block :=
  let x := b.queue q
  b.queueCtl e f q false x.part x.engine x.size x.vector

/-- QUEUE_BIND: ENGINE and PART written; refused and counted when that breaks the table (R312). -/
def Block.doQueueBind (b : Block) (e : Env) (f q engine part : Nat) : Block :=
  let x := b.queue q
  if b.reachesQueue f q && !b.mayBind engine (if f = 0 then part else x.part) then b.bindRefused
  else b.queueCtl e f q x.enable part engine x.size x.vector

/-! ## The partition layout (R303) -/

/-- Whether a layout leaves two partitions overlapping. -/
def Block.partOverlaps (b : Block) (i : Nat) (r : Part) : Bool :=
  r.valid && (List.range 8).any (fun j =>
    let s := mget ({} : Part) b.fe.parts j
    decide (j ≠ i) && s.valid && decide (r.first < s.first + 2 ^ s.size) && decide (s.first < r.first + 2 ^ r.size))

/-- FE_PART: refused, or applied with a partition reset of the partition it changes. -/
def Block.doFePart (b : Block) (e : Env) (f i : Nat) (r : Part) : Block :=
  let misaligned := r.valid && (r.first % 2 ^ r.size ≠ 0 || 8 < r.first + 2 ^ r.size)
  if !b.barUp || f ≠ 0 then b
  else if b.holdsJob i || b.commandActive i || b.partOverlaps i r || misaligned then b.bindRefused
  else if mget ({} : Part) b.fe.parts i = r then b
  else ({ b with fe := { b.fe with parts := mset {} b.fe.parts i r } } : Block).partitionReset e i 6

/-! ## Sync objects and guard slots (R300, R322 to R325) -/

/-- Whether a function's write reaches an object: those of other partitions ignore it. -/
def Block.reachesObj (b : Block) (f n : Nat) : Bool := b.barUp && (b.obj n).reach (funcPart f)

/-- ADD through SYN_OP; N = 0 is ignored and counted (R323). -/
def Block.doAdd (b : Block) (e : Env) (f n amount : Nat) : Block :=
  if !b.reachesObj f n then b
  else if amount = 0 then b.bumpSyn 0 1
  else b.syncAdd e (funcReq f) (funcPart f) n amount

def Block.doRelease (b : Block) (e : Env) (f n : Nat) : Block :=
  if b.reachesObj f n then b.syncRelease e (funcReq f) (funcPart f) n else b

/-- SET: a write of SYN_VAL_HI, with the lower half written before it. -/
def Block.doSet (b : Block) (e : Env) (f n v : Nat) : Block :=
  if b.reachesObj f n then b.syncSet e (funcReq f) (funcPart f) n v else b

/-- The word that a read of SYN_OP returns (R336). -/
def Block.synOpWord (b : Block) (n : Nat) (r : Acquired) : Nat :=
  (match r with | .granted => 2 ^ 31 | .orphan => 2 ^ 31 + 2 ^ 30 | .busy => 2 ^ 29 | .refused => 0) + (b.obj n).holder

/-- A read that the device completes for a function: all ones during a retained reset (R299). -/
def Block.answerRead (b : Block) (f : Nat) (bs : List Byte) (ep : Bool) : Block := b.emit (.completion f bs ep)

/-- ACQUIRE: a read of SYN_OP, which reads 0 with no effect in counter mode. -/
def Block.doAcquire (b : Block) (e : Env) (f n : Nat) : Block :=
  if !b.barUp then b.answerRead f (List.replicate 4 0xFF) false
  else if !b.reachesObj f n || (b.obj n).mode = 0 then b.answerRead f (zeros 4) false
  else
    let a := b.syncAcquire e (funcReq f) (funcPart f) n
    a.1.answerRead f (leBytes 4 (a.1.synOpWord n a.2)) false

def Block.doSynMode (b : Block) (e : Env) (f n mode : Nat) : Block :=
  if b.reachesObj f n then b.syncMode e (funcReq f) (funcPart f) n mode else b

/-- GUARD_SLOT_WRITE: a slot's new contents, applied whole or refused; a VF reaches the slots of its partition and cannot
change their owner. -/
def Block.doGuardSlot (b : Block) (e : Env) (f k base part len : Nat) (valid : Bool) (obj : Nat) : Block :=
  let old := b.slot k
  if !b.barUp || (f ≠ 0 && old.part ≠ funcPart f) then b
  else b.slotWrite e (funcReq f) (funcPart f) k
    { base := base, part := if f = 0 then part else old.part, len := len, valid := valid, obj := obj }

/-! ## Event rings (R329, R330, R339) -/

/-- Whether a function may write a ring's registers. -/
def Block.reachesRing (b : Block) (f k : Nat) : Bool := b.barUp && (decide (f = 0) || decide (k / 4 = f))

def Block.setRing (b : Block) (k : Nat) (r : Ring) : Block := { b with evt := { b.evt with rings := mset {} b.evt.rings k r } }

/-- EVT_CONS: accepted from the old CONS up to PROD, modulo 2^32; space that returns brings the GAP record. -/
def Block.doEvtCons (b : Block) (e : Env) (f k v : Nat) : Block :=
  let r := mget ({} : Ring) b.evt.rings k
  let v := v % 2 ^ 32
  if !b.reachesRing f k || (r.prod + 2 ^ 32 - r.cons) % 2 ^ 32 < (r.prod + 2 ^ 32 - v) % 2 ^ 32 then b
  else (b.setRing k { r with cons := v }).gapRecord e k

/-- The boot log goes to the first PF0 ring enabled, and a GAP record for what it could not hold (R339). -/
def Block.giveBootLog (b : Block) (e : Env) (k : Nat) : Block :=
  let log := b.evt.bootLog
  let u := b.evt
  let b : Block := { b with evt := { u with bootLog := [], bootLost := 0 } }
  let b := log.foldl (fun b bs => (b.putRecord k bs).ringIrq e k (leAt bs 3 1)) b
  if u.bootLost = 0 then b
  else (b.setRing k { mget ({} : Ring) b.evt.rings k with
    gapCount := u.bootLost, gapFirst := u.bootFirst, gapLast := u.bootLast, gapTime := u.bootTime }).gapRecord e k

/-- EVT_CTL: setting ENABLE starts the ring anew. -/
def Block.doEvtCtl (b : Block) (e : Env) (f k : Nat) (enable mirror : Bool) (size minsev vector : Nat) : Block :=
  let r := mget ({} : Ring) b.evt.rings k
  let starts := enable && !r.enable
  let first := starts && decide (k < 4) && !b.evt.pf0Enabled
  if !b.reachesRing f k then b
  else
    let r : Ring := { r with
      enable := enable, mirror := if f = 0 && k < 4 then mirror else r.mirror, size := min 10 size, minsev := minsev % 4
      vector := vector % 128 }
    let r := if starts then { r with prod := 0, cons := 0, phase := true, gapCount := 0 } else r
    let b := b.setRing k r
    if first then b.giveBootLog e k else b

/-- When a ring's moderated interrupt fires. -/
def Block.modDue (b : Block) (k : Nat) : Option Nat :=
  let r := mget ({} : Ring) b.evt.rings k
  if r.firePending then some r.fireAt else none

/-- MSIX_MODERATION_EXPIRY (R330). -/
def Block.doModeration (b : Block) (e : Env) (k : Nat) : Block :=
  let r := mget ({} : Ring) b.evt.rings k
  if !r.firePending || e.clk.now < r.fireAt then b
  else (b.setRing k { r with firePending := false, fireAt := e.clk.now + r.mod }).fireMsix (k / 4) r.vector

/-! ## Function-level resets (R302) -/

def Block.doFlrVf (b : Block) (e : Env) (i : Nat) : Block := b.resetWithFault e i 5

def Block.doFlrPf0 (b : Block) (e : Env) : Block := b.askRetained e 1

/-! ## Apertures (R300, R301) -/

/-- The address at an offset of a partition's memory laid end to end: ranges in MEM_PRANGE order, or plates in order. -/
def Block.linear (b : Block) (p : Nat) (off : Nat) : Option Nat :=
  let spans : List (Nat × Nat) :=
    if b.mem.affine then (b.platesOf p).map (fun k => (k * 0x1800000000, (b.slots (plateStacks k)).length * b.usable * 2048))
    else (List.range 4).map (fun k =>
      let r := mget ({} : PRange) b.mem.pranges (4 * p + k)
      (r.base * 2 ^ 30, r.size * 2 ^ 30))
  (spans.foldl (fun (acc : Nat × Option Nat) s =>
    match acc.2 with
    | some a => (0, some a)
    | none => if acc.1 < s.2 then (0, some (s.1 + acc.1)) else (acc.1 - s.2, none)) (off, none)).2

/-- The device address of byte `off` of a function's aperture. -/
def Block.apertureAddr (b : Block) (f off : Nat) : Option Nat :=
  if f = 0 then (if off < 2 ^ 36 then some (b.fe.aper * 2 ^ 30 + off) else none)
  else if off < 2 ^ 34 then b.linear (f - 1) (mget 0 b.fe.vfAper (f - 1) * 2 ^ 30 + off) else none

/-- Who an aperture access acts for. -/
def apertureReq (f : Nat) : Req := { id := funcReq f, part := funcPart f }

/-- APERTURE_READ: a poisoned or refused granule, or an offset that names no memory, completes with EP and zero data. -/
def Block.doApertureRead (b : Block) (e : Env) (f off n : Nat) : Block :=
  if !b.barUp then b.answerRead f (List.replicate n 0xFF) false
  else match b.apertureAddr f off with
    | none => b.answerRead f (zeros n) true
    | some a =>
      let o := b.readMem e (apertureReq f) a n
      let bad := o.2.any Prod.snd
      o.1.answerRead f (if bad then zeros n else o.2.map Prod.fst) bad

/-- APERTURE_WRITE; a poisoned TLP poisons what it writes. -/
def Block.doApertureWrite (b : Block) (e : Env) (f off : Nat) (bs : List Byte) (ep : Bool) : Block :=
  match b.apertureAddr f off with
  | some a => if b.barUp then b.writeMem e (apertureReq f) false a (bs.map (fun x => (x, ep))) else b
  | none => b

/-! ## The host and its links (R299, R302) -/

/-- HOST_READ_ERROR: a read of `n` bytes of host memory by a queue's command comes back without data (kind 0 UR, 1 CA, 2
poisoned, 3 timeout): the bytes are poisoned at their destination, DMA_HOST_ERROR is written, and the command completes. -/
def Block.doHostReadError (b : Block) (e : Env) (q kind a n : Nat) : Block :=
  match (b.queue q).active with
  | none => b
  | some r =>
    let marks := (List.range n).foldl (fun m i => mset false m (a + i) true) b.hostPoison
    ({ b with hostPoison := marks }).queueEvent e q 12 1 r.seq [(25, 1, kind), (40, 8, a)]

end Sys2Proof.Machine
end

