-- ==== Sys2Proof/Machine/ModuleOps.lean ====
section
/-! DEFINITION. The module's sensors, supply, reset pins and TAP (R417 to R436). -/
namespace Sys2Proof.Machine

def Block.setModule (b : Block) (m : Module) : Block := { b with module := m }

/-- A class-0 record of the module (R436): the sensor class of GLB_TRIP or 0xFF, the sensor index, a temperature or VIN. -/
def Block.moduleEvent (b : Block) (e : Env) (code sev cls index v : Nat) (more : List (Nat × Nat × Nat)) : Block :=
  b.post e { cls := 0, sev := sev, code := code, part := 15, source := 0x1E
             payload := [(24, 1, if cls < 4 then cls else 0xFF), (26, 2, index), (28, 2, v)] ++ more }

/-! ## Sensors (R428, R429) -/

def sensorKey (cls index : Nat) : Nat := 256 * cls + index

/-- Warning, throttle and trip thresholds of a sensor class. -/
def warnAt : Nat → Option Int
  | 0 | 2 => some 95
  | 1 => some 85
  | 3 => some 110
  | 4 => some 45
  | _ => none
def throttleAt : Nat → Option Int
  | 0 | 2 => some 105
  | 1 => some 95
  | 3 => some 120
  | _ => none
def tripAt : Nat → Option Int
  | 0 | 2 => some 115
  | 1 => some 105
  | 3 => some 130
  | _ => none

/-- Whether a state is held at a temperature: entered at the threshold, left 3 K below it. -/
def heldAt (was : Bool) (limit : Option Int) (t : Int) : Bool :=
  match limit with
  | none => false
  | some l => decide (l ≤ t) || (was && decide (l - 3 < t))

def setIn (l : List Nat) (k : Nat) (on : Bool) : List Nat := l.filter (· ≠ k) ++ (if on then [k] else [])

/-- The last reading of a sensor. -/
def Module.temp (m : Module) (cls index : Nat) : Option Int := mget none m.temps (sensorKey cls index)

/-- One reading: its states, and THERMAL_WARNING or COOLANT_INLET_HIGH where it enters warning. -/
def Block.takeReading (b : Block) (e : Env) (r : Reading) : Block :=
  let m := b.module
  let k := sensorKey r.cls r.index
  let warm := heldAt (m.warm.contains k) (warnAt r.cls) r.temp
  let hot := heldAt (m.hot.contains k) (throttleAt r.cls) r.temp
  let trips := match tripAt r.cls with | some l => decide (l ≤ r.temp) | none => false
  let b := b.setModule { m with
    temps := mset none m.temps k (some r.temp), warm := setIn m.warm k warm, hot := setIn m.hot k hot
    tripRuns := mset 0 m.tripRuns k (if trips then mget 0 m.tripRuns k + 1 else 0) }
  if warm && !m.warm.contains k && m.up then
    if r.cls.val = 4 then
      b.moduleEvent e 0x207 1 r.cls r.index (twos 16 r.temp) [(32, 2, twos 16 ((b.module.temp 5 0).getD 0))]
    else b.moduleEvent e 0x201 1 r.cls r.index (twos 16 r.temp) []
  else b

/-- Whether every plate, hub and stack sensor is below its warning threshold (R431). -/
def Module.cool (m : Module) : Bool :=
  m.temps.all (fun x =>
    match x.2, warnAt (x.1 / 256) with
    | some t, some l => decide (3 ≤ x.1 / 256) || decide (t < l)
    | _, _ => true)

/-- The module shuts down every rail but the always-on one. -/
def Block.railsDown (b : Block) : Block := b.setModule { b.module with up := false }

/-- A thermal trip (R431). -/
def Block.trip (b : Block) (k : Nat) : Block :=
  let t := (mget none b.module.temps k).getD 0
  (b.setModule { b.module with
    therm := true, trip := some { cls := k / 256, index := k % 256, temp := twos 8 t } }).railsDown

/-- An assertion of RESET_N that waits for the sensors to cool takes effect (R431). -/
def Block.releaseTrip (b : Block) : Block :=
  if b.module.heldReset && b.module.cool then b.setModule { b.module with heldReset := false, therm := false } else b

/-- THERMAL_SAMPLE: the sensors' readings of one 100 µs sample. -/
def Block.doThermalSample (b : Block) (e : Env) (rs : List Reading) : Block :=
  let b := rs.foldl (fun b r => b.takeReading e r) b
  match b.module.tripRuns.find? (fun x => decide (3 ≤ x.2)) with
  | some x => if b.module.therm || !b.module.up then b.releaseTrip else b.trip x.1
  | none => b.releaseTrip

/-! ## TLIMIT (R430) -/

/-- A sensor is at or above its throttle threshold. -/
def Module.throttling (m : Module) : Bool :=
  m.temps.any (fun x => match x.2, throttleAt (x.1 / 256) with | some t, some l => decide (l ≤ t) | _, _ => false)

/-- Every sensor is more than 3 K below its throttle threshold. -/
def Module.wellBelow (m : Module) : Bool :=
  m.temps.all (fun x => match x.2, throttleAt (x.1 / 256) with | some t, some l => decide (t < l - 3) | _, _ => true)

/-- Mains cycles in 100 ms. -/
def Block.mainsCycles (b : Block) : Nat := if b.boot.profile.mains60 then 6 else 5

/-- TLIMIT_UPDATE, every 100 ms. -/
def Block.doTlimit (b : Block) (e : Env) : Block :=
  let m := b.module
  if m.throttling then
    let draw := if b.tim.msMeans.isEmpty then m.tlimit else mean b.tim.msMeans
    let t := max 1500 (min m.tlimit draw - 100)
    let b := b.setModule { m with tlimit := t, throttled := true, throttleFrom := if m.throttled then m.throttleFrom else e.clk.now }
    let hot := (m.temps.find? (fun x =>
      match x.2, throttleAt (x.1 / 256) with | some t, some l => decide (l ≤ t) | _, _ => false))
    let k := (hot.map Prod.fst).getD 0
    let b := if m.throttled then b
      else b.moduleEvent e 0x202 1 (k / 256) (k % 256) (twos 16 ((m.temp (k / 256) (k % 256)).getD 0)) [(32, 2, t)]
    b.relimit e.clk.now
  else if m.wellBelow && m.tlimit < 6900 then
    let t := min 6900 (m.tlimit + b.mainsCycles * b.tim.slew)
    let b := b.setModule { m with tlimit := t, throttled := m.throttled && decide (t < 6900) }
    let b := if t = 6900 && m.throttled then
        b.moduleEvent e 0x203 0 0xFF 0 0 [(32, 8, (e.clk.now - m.throttleFrom) / 1000)]
      else b
    b.relimit e.clk.now
  else b

/-! ## Supply (R421, R423) -/

/-- MODULE_POWER_UP: VIN rises to 46 V; the rails come up to module power good. -/
def Block.doPowerUp (b : Block) : Block :=
  if b.module.powered then b
  else b.setModule { powered := true, up := false, resetLow := b.module.resetLow, tap := b.module.tap }

/-- POWER_FAIL: VIN below 42 V for more than 100 µs. -/
def Block.doPowerFail (b : Block) : Block := (b.setModule { b.module with powered := false }).railsDown

/-- GLB_TLIMIT ILIMIT (R435). -/
def Block.ilimitField (b : Block) : Nat := min 0xFFFF b.ilimit

/-- INPUT_LOW: once per second while VIN lies between 42 V and 48 V. -/
def Block.doInputLow (b : Block) (e : Env) : Block :=
  let v := b.tim.vin
  let sec := e.clk.now / 1000000 + 1
  if 4200 ≤ v && v < 4800 && b.module.lowAt ≠ sec then
    (b.setModule { b.module with lowAt := sec }).moduleEvent e 0x205 1 0xFF 0 v [(32, 2, b.ilimitField)]
  else b

/-- INPUT_HIGH: once per second while VIN is above 62 V. -/
def Block.doInputHigh (b : Block) (e : Env) : Block :=
  let v := b.tim.vin
  let sec := e.clk.now / 1000000 + 1
  if 6200 < v && b.module.highAt ≠ sec then
    (b.setModule { b.module with highAt := sec }).moduleEvent e 0x206 1 0xFF 0 v []
  else b

/-! ## RESET_N and the TAP (R419) -/

/-- RESET_N goes low: cold reset. After a trip it waits until the sensors are cool. -/
def Block.doResetAssert (b : Block) : Block :=
  let b := (b.setModule { b.module with resetLow := true, heldReset := b.module.therm }).railsDown
  let b := b.setBoot { b.boot with retainedAsked := none }
  b.releaseTrip

/-- RESET_N goes high: whether a cold start begins. -/
def Block.mayStart (b : Block) : Bool := b.module.powered && !b.module.therm

/-- The TAP's instructions: 0 BYPASS, 1 IDCODE, 2 SAMPLE, 3 EXTEST and those of IEEE 1149.6. -/
def Block.setTap (b : Block) (n : Nat) : Block := b.setModule { b.module with tap := n }
def Block.doBypass (b : Block) : Block := b.setTap 0
def Block.doIdcode (b : Block) : Block := (b.setTap 1).emit (.scan (Config.fuseStepping % 16 * 2 ^ 28 + 0xC051A3B))
def Block.doSample (b : Block) : Block := b.setTap 2
def Block.doExtest (b : Block) : Block := if b.module.resetLow then b.setTap 3 else b.setTap 0

/-- GLB_ALERT (R420). -/
def Block.alertBits (b : Block) : Nat :=
  b2n (!b.module.warm.isEmpty) + 2 * b2n b.module.therm + 4 * b2n b.clk.alert
    + 8 * b2n (decide (b.tim.vin ≠ 0) && decide (b.tim.vin < 4800))

end Sys2Proof.Machine
end

