-- ==== Sys2Proof/Machine/RegRead.lean ====
section
/-! DEFINITION. What the registers read (R5, R6, R89, R114, R137, R177, R203, R226, R245, R278, R279, R296, R335 to R337, R355,
R356, R373, R397, R398, R402 to R404, R410, R435): each block's words and 64-bit pairs at their BAR0 and BAR2 offsets. -/
namespace Sys2Proof.Machine

/-- A 48-bit or 64-bit value of a pair. -/
def low32 (v : Nat) : Nat := v % 2 ^ 32
def high32 (v : Nat) : Nat := v / 2 ^ 32 % 2 ^ 32

/-! ## GLB and CFG (R355, R356, R435) -/

/-- The hottest reading of a sensor class, two's complement. -/
def Module.hottest (m : Module) (cls : Nat) : Nat :=
  let l := m.temps.filterMap (fun x => if x.1 / 256 = cls then x.2 else none)
  match l with
  | [] => 0
  | t :: ts => twos 8 (ts.foldl max t)

def Block.iin (b : Block) : Nat := mean (b.tim.samples.map Prod.snd)

def Block.glbStatus (b : Block) : Nat :=
  field (b2n b.boot.ready * b2n b.clk.ret.isNone) 1 31 + field (b2n b.boot.recovery) 1 30 + field (b2n b.boot.profileFailed) 1 29
    + field (b2n b.mem.failed) 1 28 + field (b2n b.boot.opened) 1 27 + field (if b.clk.ret.isSome then 0 else b.boot.stage) 3 24
    + field b.boot.active 2 22 + field b.boot.pinSel 2 20 + field b.boot.fwSlot 1 19

def Block.glbWord (b : Block) (o : Nat) : Nat :=
  match o with
  | 0x000 => 0x6C050001
  | 0x004 => field Config.fuseStepping 8 24 + field Config.fuseSku 8 16
  | 0x010 => b.glbStatus
  | 0x014 => b.boot.fwVer
  | 0x018 => b.boot.bootMs
  | 0x01C => b.clk.retMs
  | 0x100 => field (b.module.hottest 0) 8 24 + field (b.module.hottest 1) 8 16 + field (b.module.hottest 2) 8 8 + field (b.module.hottest 3) 8 0
  | 0x104 => field (b.module.hottest 4) 8 24 + field (b.module.hottest 5) 8 16
  | 0x108 => field b.tim.vin 16 16 + field b.iin 16 0
  | 0x10C => field b.module.tlimit 16 16 + field b.ilimitField 16 0
  | 0x110 => b.alertBits
  | 0x114 => (b.module.trip.map Trip.word).getD 0
  | _ => 0

def Block.cfgWord (b : Block) (o : Nat) : Nat :=
  let f := b.boot.flash
  match o with
  | 0x000 => (List.range 4).foldl (fun v n => v + field (mget 0 b.boot.pstatus n) 4 (4 * n)) 0
  | 0x004 => match b.boot.override with | some n => 2 ^ 31 + n % 4 | none => 0
  | 0x008 => field f.fuseSvn 8 24 + field b.boot.fwSvn 8 16 + field f.revoked 4 12 + field f.programmed 4 8 + field b.boot.fwKey 8 0
  | 0x00C => match b.boot.update with | some u => 2 ^ 31 + field u.target 3 28 | none => 0
  | _ => if 0x010 ≤ o && o < 0x020 then mget 0 b.boot.fails ((o - 0x010) / 4) else 0

/-! ## CLK (R373) -/

def Pll.word (x : Pll) : Nat :=
  field (b2n x.lock) 1 31 + field (b2n x.ready) 1 30 + field (b2n x.lost) 1 29 + field (b2n x.active) 1 28 + field x.mhz 16 0
def Ref.word (x : Ref) : Nat := field (b2n x.present) 1 31 + field (b2n x.ready) 1 30 + field (b2n x.lost) 1 29

def Block.clkWord (b : Block) (o : Nat) : Nat :=
  let c := b.clk
  match o with
  | 0x000 => field c.pstate 2 30 + field (b2n c.ret.isSome) 1 29 + field (b2n c.alert) 1 28 + field (b2n c.mgmtH1) 1 27
  | 0x008 => c.pstateRes % 8
  | 0x010 => field c.gateDom 7 8 + field c.gateRes 3 0
  | 0x018 => c.drstRes % 8
  | 0x020 => field c.switchPart 4 3 + field c.switchRes 3 0
  | _ =>
    if 0x100 ≤ o && o < 0x170 then (mget ({} : Pll) c.plls ((o - 0x100) / 4)).word
    else if 0x180 ≤ o && o < 0x194 then (mget ({} : Ref) c.refs ((o - 0x180) / 4)).word
    else if 0x1000 ≤ o && o < 0x1C80 && o % 32 = 0 then
      let d := (o - 0x1000) / 32
      field (b.dom d).state 3 29 + field (b2n (hostDom d)) 1 28 + field (domParent d) 7 0
    else 0

/-! ## TIM (R203) -/

/-- A switch or a voltage change is in progress. -/
def Block.dvfsBusy (b : Block) : Bool :=
  b.tim.parts.any (fun p => p.2.busy) || b.clk.switches.any (fun s => s.2.isSome)

def PlatePower.word (x : PlatePower) : Nat :=
  field x.volt 12 20 + field (b2n x.pll) 1 19 + field x.swallow 6 13 + field x.fstep 5 8

def Block.timWord (b : Block) (e : Env) (o : Nat) : Nat :=
  let t := b.tim
  match o with
  | 0x000 => field t.tstate 3 29 + field (b2n t.ptpOk) 1 28 + field (b2n t.ctOk) 1 27 + field (b2n t.grid) 1 26
      + field (b2n b.boot.profile.mains60) 1 25 + field t.pinLevel 3 22 + field (b2n b.dvfsBusy) 1 21
  | 0x010 => e.clk.frac % 65536
  | 0x014 => twos 32 t.offset
  | 0x018 => field (t.angle e.clk.now) 16 16 + field t.period 16 0
  | 0x01C => t.holdLimit
  | 0x040 => field t.source 3 29 + field t.limit 16 0
  | 0x044 => t.hostCap
  | 0x048 => t.slew
  | 0x04C => t.floor
  | 0x050 => field (t.msMeans.headD 0) 16 16 + field t.cycW 16 0
  | _ =>
    if 0x020 ≤ o && o < 0x040 then t.levels.getD ((o - 0x020) / 4) 0
    else if 0x060 ≤ o && o < 0x080 then b.weight ((o - 0x060) / 4)
    else if 0x080 ≤ o && o < 0x0A0 then mget 0 t.ppwr ((o - 0x080) / 4)
    else if 0x0A0 ≤ o && o < 0x0C0 then (b.platePower ((o - 0x0A0) / 4)).word
    else 0

/-! ## FE, SYN, EVT (R335 to R337) -/

def Part.word (p : Part) : Nat := field (b2n p.valid) 1 31 + field p.first 4 4 + field p.size 2 0

def Queue.ctlWord (x : Queue) : Nat :=
  field (b2n x.enable) 1 31 + field (b2n x.job) 1 30 + field x.part 4 26 + field x.engine 6 20 + field x.size 4 16 + field x.vector 7 0
def Queue.statusWord (x : Queue) : Nat := field x.state 4 28 + field x.reason 8 20
def Queue.basePair (x : Queue) : Nat := field (b2n x.host) 1 63 + x.base
def Queue.caddrPair (x : Queue) : Nat := field (b2n x.caddrHost) 1 63 + x.caddr

def Block.feWord (b : Block) (o : Nat) : Nat :=
  if o = 0 then field (b2n b.fe.ready) 1 31
  else if 0x10 ≤ o && o < 0x30 then (mget ({} : Part) b.fe.parts ((o - 0x10) / 4)).word
  else if 0x100 ≤ o && o < 0x280 then
    let en := (o - 0x100) / 8
    if o % 8 = 0 then b.slice en else mget (dlDefault en) b.fe.dl en
  else if o = 0x400 then b.fe.aper
  else if 0x10000 ≤ o && o < 0x20000 then
    let x := b.queue ((o - 0x10000) / 0x100)
    match o % 0x100 with
    | 0x08 => x.ctlWord
    | 0x30 => x.statusWord
    | _ => 0
  else 0

def SyncObj.ctlWord (o : SyncObj) (slot : Nat) : Nat :=
  field o.mode 2 30 + field o.state 2 28 + field (b2n o.step) 1 27 + field o.part 4 22 + field slot 6 16
    + field (if o.mode = 0 then 0 else o.holder) 16 0

/-- SYN_CTL of object `n` (R336). -/
def Block.synCtl (b : Block) (n : Nat) : Nat :=
  (b.obj n).ctlWord (if (b.obj n).mode = 2 then (b.slotOf n).getD 0 else 0)

/-- SYN_VAL: 0 in lock modes. -/
def SyncObj.pair (o : SyncObj) : Nat := if o.mode = 0 then o.val else 0

def Slot.lenWord (s : Slot) : Nat := field s.part 4 28 + field s.len 7 0
def Slot.objWord (s : Slot) : Nat := field (b2n s.valid) 1 31 + field s.obj 13 0

def Block.synWord (b : Block) (o : Nat) : Nat :=
  if o < 0x20000 then (if o % 16 = 8 then b.synCtl (o / 16) else 0)
  else if o < 0x20400 then
    let s := b.slot ((o - 0x20000) / 16)
    if o % 16 = 8 then s.lenWord else if o % 16 = 12 then s.objWord else 0
  else 0

def Ring.ctlWord (r : Ring) : Nat :=
  field (b2n r.enable) 1 31 + field (b2n r.mirror) 1 30 + field r.size 4 16 + field r.minsev 2 14 + field r.vector 7 0

/-- The words of an MSI-X table and of its PBA: 16 B an entry, one pending bit a vector. -/
def Block.msixWord (b : Block) (f o : Nat) : Nat :=
  if o < 0x1000 then
    let v := mget ({} : Msix) b.evt.msix (msixKey f (o / 16 % 128))
    match o % 16 with
    | 0 => low32 v.addr
    | 4 => high32 v.addr
    | 8 => v.data
    | _ => b2n v.masked
  else (List.range 32).foldl (fun n i =>
    n + field (b2n (mget ({} : Msix) b.evt.msix (msixKey f ((8 * (o - 0x1000) + i) % 128))).pending) 1 i) 0

def Block.evtWord (b : Block) (o : Nat) : Nat :=
  if o < 0x900 then
    let r := mget ({} : Ring) b.evt.rings (o / 64)
    match o % 64 with
    | 0x08 => r.ctlWord
    | 0x0C => r.mask
    | 0x10 => r.prod
    | 0x14 => r.cons
    | 0x18 => r.mod
    | _ => 0
  else if 0x8000 ≤ o && o < 0x8400 then b.msixWord 0 (o - 0x8000)
  else if 0x9000 ≤ o && o < 0x9008 then b.msixWord 0 (o - 0x8000)
  else 0

/-! ## GEN (R177) -/

def Block.genWord (b : Block) (e : Env) (p o : Nat) : Nat :=
  let r := (b.gen p).regs
  match o with
  | 0x000 => field r.state 4 28 + field (e.bank p) 1 27 + field (b2n r.prevIntact) 1 26 + field (b2n r.orddep) 1 25
      + field (b2n r.root) 1 24 + field r.epoch 16 0
  | 0x004 => r.jobId
  | 0x008 => r.fixMargin
  | 0x00C => r.gateGap
  | 0x010 => r.orderTimeout
  | 0x014 => r.rejoinTimeout
  | _ => 0

def Block.genPair (b : Block) (e : Env) (p o : Nat) : Option Nat :=
  let r := (b.gen p).regs
  match o with
  | 0x020 => some (e.curGen p)
  | 0x028 => some r.visible
  | 0x030 => some r.printed
  | 0x038 => some r.fixTick
  | 0x040 => some r.rewinds
  | 0x048 => some r.printStall
  | 0x050 => some r.latentWait
  | 0x058 => some r.staleMsg
  | _ =>
    if 0x100 ≤ o && o < 0x300 then
      let g := mget ({} : GenReg) r.regions ((o - 0x100) / 32)
      match o % 32 with
      | 0x00 => some (field g.role 4 48 + g.baseA)
      | 0x08 => some g.baseB
      | 0x10 => some g.len
      | _ => none
    else none

/-! ## MEM (R226) -/

def Stack.word (s : Stack) : Nat :=
  field s.temp 8 24 + field s.tstate 2 22 + field (b2n s.selfRefresh) 1 21 + field (b2n s.trained) 1 20

def TrafficGen.word (t : TrafficGen) (o : Nat) : Nat :=
  match o with
  | 0x00 => field (b2n t.busy) 1 31 + field (b2n t.done) 1 30 + field t.op 2 28 + field t.pattern 4 24 + field (b2n t.busy) 1 0
  | 0x04 => t.base
  | 0x08 => t.count
  | 0x0C => t.stride
  | 0x10 => t.seed
  | 0x20 => t.lane0
  | 0x24 => t.lane1
  | 0x28 => t.first
  | _ => 0

/-- Usable memory in bytes. -/
def Block.usableBytes (b : Block) : Nat := (b.slots allStacks).length * b.usable * 2048

/-- The device-wide words of M00's block. -/
def Block.memDevWord (b : Block) (o : Nat) : Nat :=
  let m := b.mem
  match o with
  | 0x010 => b2n m.affine
  | 0x014 => field (b.slots allStacks).length 16 16 + field (m.rsv) 16 0
  | 0x020 => m.actMax
  | 0x024 => m.raaimt
  | 0x028 => m.skewLimit
  | 0x02C => m.scrubPeriod
  | 0x030 => m.laneLimit
  | _ =>
    if 0x300 ≤ o && o < 0x400 && o % 8 = 0 then
      let r := mget ({} : PRange) m.pranges ((o - 0x300) / 8)
      field r.base 16 16 + field r.size 16 0
    else 0

def Block.memWord (b : Block) (s o : Nat) : Nat :=
  let k := b.stack s
  if o = 0 then k.word
  else if o = 4 then k.insvc
  else if o = 8 then k.fenced
  else if o = 12 then k.mapoutPend
  else if 0x4000 ≤ o && o < 0x6000 then (b.memChan (32 * s + (o - 0x4000) / 0x100)).tg.word (o % 0x100)
  else if s = 0 then b.memDevWord o
  else 0

/-- Counters that only M00's block has. -/
def memDevOnly (o : Nat) : Bool := o = 0x128 || o = 0x150 || (decide (0x200 ≤ o) && decide (o ≤ 0x240))

def Block.memPair (b : Block) (s o : Nat) : Option Nat :=
  if o = 0x018 && s = 0 then some b.usableBytes
  else if (0x100 ≤ o && o ≤ 0x150) || (0x200 ≤ o && o ≤ 0x240) then
    if s ≠ 0 && memDevOnly o then none else some (mget 0 (b.stack s).counters o)
  else if 0x4000 ≤ o && o < 0x6000 && o % 0x100 = 0x18 then some (b.memChan (32 * s + (o - 0x4000) / 0x100)).tg.errs
  else none

/-! ## SHC (R245) -/

/-- Frames of a hub that are zeroing. -/
def Block.zeroing (b : Block) (h : Nat) : Nat := (b.shc.frames.filter (fun f => decide (f.2.state = 2) && decide (frameHub f.1 = h))).length

def Block.freeWord (b : Block) (h : Nat) : Nat := field (b.zeroing h) 16 16 + field (b.alloc h).free 16 0
def Block.waitingWord (b : Block) : Nat := field (b.alloc 1).waiting.length 16 16 + field (b.alloc 0).waiting.length 16 0

def Block.shcWord (b : Block) (o : Nat) : Nat :=
  if o = 0 then b.shc.gv4En
  else if o = 4 then b.freeWord 0
  else if o = 8 then b.freeWord 1
  else if o = 12 then b.waitingWord
  else if 0x40 ≤ o && o < 0xD0 then
    let i := (o - 0x40) / 16
    match o % 16 with
    | 0 => mget 0 b.shc.min i
    | 4 => mget 65536 b.shc.max i
    | 8 => mget 0 (b.alloc 0).held i + mget 0 (b.alloc 1).held i
    | _ => 0
  else if 0x200 ≤ o && o < 0x600 then
    let r := mget ({} : ExactRegion) b.shc.exact ((o - 0x200) / 16)
    match o % 16 with
    | 8 => r.len
    | 12 => field (b2n r.valid) 1 31 + field r.part 4 0
    | _ => 0
  else 0

def Block.shcPair (b : Block) (o : Nat) : Option Nat :=
  if 0x200 ≤ o && o < 0x600 then (if o % 16 = 0 then some (mget ({} : ExactRegion) b.shc.exact ((o - 0x200) / 16)).base else none)
  else if (0x600 ≤ o && o ≤ 0x650) || (0x1000 ≤ o && o < 0x1400 && o % 0x40 ≤ 0x18) then some (mget 0 b.shc.counters o)
  else none

/-! ## CL (R278, R279) -/

def Block.dirsUp (b : Block) : Nat :=
  (List.range 6).foldl (fun v d => v + field (b2n ((dirPorts d).any (fun n => (b.port n).active))) 1 d) 0

/-- A CL_COORD half: present, x, y, z. -/
def coordHalf (c : Nat) : Nat := if c = 0 then 0 else 2 ^ 15 + field ((c - 1) % 16) 4 6 + field ((c - 1) / 16 % 8) 3 3 + field ((c - 1) / 128) 3 0

def Block.topoWord (b : Block) : Nat :=
  let t := b.topo
  field t.self 10 16 + field (max 1 t.sx - 1) 4 8 + field (max 1 t.sy - 1) 3 4 + field (max 1 t.sz - 1) 3 0

def Block.clWord (b : Block) (n o : Nat) : Nat :=
  let p := b.port n
  if o = 0 then field p.state 4 28 + field p.lanes 4 24 + field p.peerId 10 14 + field p.peerPort 6 8
  else if o = 4 then field (b2n p.enable) 1 31 + field (b2n p.forceX2) 1 30 + field p.upHold 16 0
  else if o = 8 then p.laneLimit
  else if n ≠ 0 then 0
  else if o = 0x2000 then b.topoWord
  else if o = 0x2004 then field b.link.wCol 8 8 + field b.link.wPipe 8 0
  else if o = 0x2008 then b.link.peerHold
  else if o = 0x200C then field b.link.lost 6 8 + field b.dirsUp 6 0
  else if 0x2800 ≤ o && o < 0x3000 then
    let k := (o - 0x2800) / 4
    field (coordHalf (mget 0 b.topo.coords (2 * k + 1))) 16 16 + field (coordHalf (mget 0 b.topo.coords (2 * k))) 16 0
  else 0

def Block.clPair (b : Block) (n o : Nat) : Option Nat :=
  if 0x100 ≤ o && o ≤ 0x1C8 then some (mget 0 (b.port n).counters o)
  else if n = 0 && 0x2100 ≤ o && o ≤ 0x2110 then some (mget 0 b.link.counters o)
  else none

/-! ## COL (R296) -/

/-- The first active part of an engine: its partition and the part. -/
def CollEngine.first (c : CollEngine) : Option (Nat × CollPart) :=
  (c.active.find? (fun a => !a.2.isEmpty)).bind (fun a => a.2.head?.map (fun p => (a.1, p)))

/-- STATE of COL_STATUS: idle; running before its command has started; waiting for pieces while its phase has some to come;
otherwise for credit. -/
def Block.collState (b : Block) (x : Nat) : Nat :=
  match (b.ce x).first with
  | none => 0
  | some (_, c) =>
    match b.collCmd c.queue c.seq with
    | some cmd => if !cmd.started then 1 else if cmd.todo ≠ 0 then 2 else 3
    | none => 1

def Block.colWord (b : Block) (x o : Nat) : Nat :=
  let c := b.ce x
  if o = 0 then
    match c.first with
    | none => 0
    | some (p, _) => field (b.collState x) 4 28 + field (mget [] c.active p).length 2 26 + field p 4 22
  else if 0x10 ≤ o && o < 0x30 then mget 0 c.seqs ((o - 0x10) / 4)
  else 0

/-! ## INT (R397) -/

def Block.intWord (b : Block) (o : Nat) : Nat :=
  let i := b.int
  match o with
  | 0x000 => field i.unmapped 8 8 + field i.plateFailed 8 0
  | 0x004 => field (b2n i.brkEn) 1 31 + field i.brkN 5 24 + field (b2n i.remapAuto) 1 16 + field i.fogLimit 8 0
  | 0x008 => i.proofPeriod
  | 0x00C => i.fogWindow
  | _ =>
    if 0x040 ≤ o && o < 0x060 then
      let p := (o - 0x040) / 4
      field (b2n (mget false i.latentPoison p)) 1 31 + field (b2n (mget false i.currentPoison p)) 1 30
    else if 0x10000 ≤ o && o < 0x10000 + 4 * 2064 then
      let h := mget ({} : RowHealth) i.rows ((o - 0x10000) / 4)
      field h.state 2 30 + field h.fog 8 8 + field h.proof 8 0
    else 0

def Block.intPair (b : Block) (o : Nat) : Option Nat :=
  if 0x100 ≤ o && o ≤ 0x198 then some (mget 0 b.int.counters o)
  else if 0x400 ≤ o && o < 0x800 then
    match (mget [] b.int.plog ((o - 0x400) / 128))[(o % 128) / 8]? with
    | some a => some (2 ^ 63 + a % 2 ^ 48)
    | none => some 0
  else none

/-! ## PLT (R114, R137, R398) -/

def SeqState.code : SeqState → Nat
  | .idle => 0 | .running => 1 | .frozen => 2 | .replayWait => 3 | .draining => 4 | .stopped => 5 | .halted => 6 | .breakpoint => 7

def WalkPhase.code : WalkPhase → Nat
  | .none => 0 | .prologue => 1 | .fill => 2 | .passes => 3 | .tail => 4 | .stopped => 5

/-- The cluster of an index `c` of R114 on plate `p`. -/
def clusterOf (p c : Nat) : Nat × Nat := (20 * (p % 4) + c % 20, 32 * (p / 4) + c / 20)

/-- The region of a cluster in the command that its partition runs, else the one it was last loaded with. -/
def Block.clusterRegion (b : Block) (cx cy : Nat) : Region :=
  match b.regionAt (8 * cx) (8 * cy) with
  | some r => b.region r
  | none => {}

def Block.cluCtl (b : Block) (cx cy : Nat) : Nat :=
  let c := b.cluster cx cy
  let r := b.clusterRegion cx cy
  let live := (b.regionAt (8 * cx) (8 * cy)).isSome
  field c.region 16 16 + field r.state.code 3 9 + field (b2n (live && decide (r.lead = (cx, cy)))) 1 8 + field (b2n c.addrMode) 1 0

/-- PLT_CLU_WALK0 to WALK2 of a lead sequencer; 0 elsewhere. -/
def Block.cluWalk (b : Block) (cx cy k : Nat) : Nat :=
  let r := b.clusterRegion cx cy
  if r.lead ≠ (cx, cy) || (b.regionAt (8 * cx) (8 * cy)).isNone then 0
  else match k with
    | 0 => field r.walk.item 16 16 + field r.walk.phase.code 3 13
    | 1 => min r.walk.group (2 ^ 32 - 1)
    | _ => field r.walk.pass 21 0

/-- PLT_ROWMAP. -/
def Block.rowMapWord (b : Block) (p : Nat) : Nat :=
  let l := mget [] b.plates.rowMaps p
  field (if bit b.int.plateFailed p then 3 else min 2 l.length) 2 30 + field (l.getD 1 0x1FF) 9 9 + field (l.getD 0 0x1FF) 9 0

def Block.pltWord (b : Block) (p o : Nat) : Nat :=
  if o = 0xA0000 then b.rowMapWord p
  else if 0xA0000 ≤ o then 0
  else
    let k := clusterOf p (o / 0x400)
    match o % 0x400 with
    | 0x000 => b.cluCtl k.1 k.2
    | 0x004 => (b.clusterRegion k.1 k.2).pc
    | 0x008 => b.cluWalk k.1 k.2 0
    | 0x00C => b.cluWalk k.1 k.2 1
    | 0x010 => b.cluWalk k.1 k.2 2
    | _ => 0

def Block.pltPair (b : Block) (p o : Nat) : Option Nat :=
  let k := clusterOf p (o / 0x400)
  let r := o % 0x400
  if o < 0xA0000 && 0x100 ≤ r && r ≤ 0x160 then some (mget 0 (b.cluster k.1 k.2).counters r) else none

/-! ## BAR0 -/

/-- The live value of the 64-bit pair whose _LO word lies at an 8-aligned BAR0 offset; none where no pair lies. -/
def Block.pair (b : Block) (e : Env) (a : Nat) : Option Nat :=
  let o := a % 0x100000
  match a / 0x100000 with
  | 0x0 => if o = 8 then some Config.fuseSerial else if o = 0x140 || o = 0x148 then some (mget 0 b.module.counters o) else none
  | 0x1 => if 0x100 ≤ o && o ≤ 0x118 then some (mget 0 b.boot.counters o) else none
  | 0x2 =>
    if 0x200 ≤ o && o ≤ 0x228 then some (mget 0 b.clk.counters o)
    else if 0x1000 ≤ o && o < 0x1C80 then
      (if o % 32 = 8 then some (b.dom ((o - 0x1000) / 32)).drops
       else if o % 32 = 16 then some (b.dom ((o - 0x1000) / 32)).synth else none)
    else none
  | 0x3 =>
    if o = 8 then some e.clk.now
    else if (0x100 ≤ o && o ≤ 0x130) || (0x140 ≤ o && o < 0x180) then some (mget 0 b.tim.counters o) else none
  | 0x4 =>
    if 0x800 ≤ o && o ≤ 0x838 then some (mget 0 b.fe.counters o)
    else if 0x10000 ≤ o && o < 0x20000 then
      let x := b.queue ((o - 0x10000) / 0x100)
      match o % 0x100 with
      | 0x00 => some x.basePair
      | 0x10 => some 0
      | 0x18 => some x.submitted
      | 0x20 => some x.completed
      | 0x28 => some x.caddrPair
      | 0x38 => some x.abnd
      | _ => none
    else none
  | 0x5 =>
    if o < 0x20000 then (if o % 16 = 0 then some (b.obj (o / 16)).pair else none)
    else if o < 0x20400 then (if o % 16 = 0 then some (b.slot ((o - 0x20000) / 16)).base else none)
    else if 0x30000 ≤ o && o ≤ 0x30020 then some (mget 0 b.syn.counters (o - 0x30000)) else none
  | 0x6 =>
    if o < 0x900 then
      let r := mget ({} : Ring) b.evt.rings (o / 64)
      (if o % 64 = 0 then some r.base else if o % 64 = 0x20 then some r.dropped else none)
    else if o = 0x1000 then some b.evt.seq
    else if o = 0x1008 then some b.evt.unrouted else none
  | 0x7 => if o < 0x8000 then b.genPair e (o / 0x1000) (o % 0x1000) else none
  | 0xA => b.memPair (o / 0x10000) (o % 0x10000)
  | 0xB => b.shcPair o
  | 0xC => if o < 0x90000 then b.clPair (o / 0x4000) (o % 0x4000) else none
  | 0xE =>
    if o < 0x6000 && 0x100 ≤ o % 0x1000 && o % 0x1000 ≤ 0x158 then some (mget 0 (b.ce (o / 0x1000)).counters (o % 0x1000)) else none
  | 0x10 => b.intPair o
  | n => if 0x20 ≤ n && n < 0x28 then b.pltPair (n - 0x20) o else none

/-- The word at a 4-aligned BAR0 offset that belongs to no pair; reserved offsets read 0 (R6). -/
def Block.soloWord (b : Block) (e : Env) (a : Nat) : Nat :=
  let o := a % 0x100000
  match a / 0x100000 with
  | 0x0 => b.glbWord o
  | 0x1 => b.cfgWord o
  | 0x2 => b.clkWord o
  | 0x3 => b.timWord e o
  | 0x4 => b.feWord o
  | 0x5 => b.synWord o
  | 0x6 => b.evtWord o
  | 0x7 => if o < 0x8000 then b.genWord e (o / 0x1000) (o % 0x1000) else 0
  | 0xA => b.memWord (o / 0x10000) (o % 0x10000)
  | 0xB => b.shcWord o
  | 0xC => if o < 0x90000 then b.clWord (o / 0x4000) (o % 0x4000) else 0
  | 0xE => if o < 0x6000 then b.colWord (o / 0x1000) (o % 0x1000) else 0
  | 0x10 => b.intWord o
  | n => if 0x20 ≤ n && n < 0x28 then b.pltWord (n - 0x20) o else 0

/-- The live word at a 4-aligned BAR0 offset, the halves of pairs included. -/
def Block.word (b : Block) (e : Env) (a : Nat) : Nat :=
  match b.pair e (a / 8 * 8) with
  | some v => if a % 8 = 0 then low32 v else high32 v
  | none => b.soloWord e a

/-! ## Latches (R5, R203) -/

def latchKey (path a : Nat) : Nat := path * 2 ^ 32 + a

def Block.setLatch (b : Block) (path a v : Nat) : Block := { b with latches := mset 0 b.latches (latchKey path a) v }

/-- The offset of TIM_NOW_LO and of TIM_NOW_FRAC, which a read of the former latches as well. -/
def timNow : Nat := 0x300008
def timFrac : Nat := 0x300010

/-- A read of the word at BAR0 offset `a` through a path: the block with the path's latches, and the word. -/
def Block.readWord (b : Block) (e : Env) (path a : Nat) : Block × Nat :=
  let lo := a / 8 * 8
  match b.pair e lo with
  | some v =>
    if a % 8 = 0 then
      let b := b.setLatch path lo (high32 v + 1)
      (if lo = timNow then b.setLatch path timFrac (e.clk.frac % 65536 + 1) else b, low32 v)
    else
      let l := mget 0 b.latches (latchKey path lo)
      (b.setLatch path lo 0, if l = 0 then high32 v else l - 1)
  | none =>
    let l := mget 0 b.latches (latchKey path a)
    if a = timFrac && l ≠ 0 then (b.setLatch path a 0, l - 1) else (b, b.soloWord e a)

/-! ## The functions' windows (R300, R344) -/

/-- Partition-linear memory of a partition in GiB. -/
def Block.linearSize (b : Block) (p : Nat) : Nat :=
  if b.mem.affine then ((b.platesOf p).map (fun k => (b.slots (plateStacks k)).length * b.usable * 2048)).sum / 2 ^ 30
  else ((List.range 4).map (fun k => (mget ({} : PRange) b.mem.pranges (4 * p + k)).size)).sum

/-- The plates of a partition as a mask. -/
def Block.plateMask (b : Block) (p : Nat) : Nat := (b.platesOf p).foldl (fun m k => m + 2 ^ k) 0

/-- Where a word of VF(i+1)'s BAR0 stands: a register at a PF0 offset, an own word with its value, or nothing. -/
inductive VfWord where
  | reg (a : Nat)
  | own (v : Nat)
deriving DecidableEq, Repr

def Block.vfWord (b : Block) (i o : Nat) : VfWord :=
  if o = 0 then .own i
  else if o = 4 then .own (b.plateMask i)
  else if o = 8 then .own (b.linearSize i)
  else if 0x10 ≤ o && o < 0x310 then .reg (0x700000 + 0x1000 * i + (o - 0x10))
  else if 0x10000 ≤ o && o < 0x20000 then
    (if (b.queue ((o - 0x10000) / 0x100)).part = i then .reg (0x400000 + o) else .own 0)
  else if 0x20000 ≤ o && o < 0x40000 then
    (if (b.obj ((o - 0x20000) / 16)).part = i then .reg (0x500000 + (o - 0x20000)) else .own 0)
  else if 0x40000 ≤ o && o < 0x40400 then
    (if (b.slot ((o - 0x40000) / 16)).part = i then .reg (0x520000 + (o - 0x40000)) else .own 0)
  else if 0x50000 ≤ o && o < 0x50100 then .reg (0x600000 + 256 * (i + 1) + (o - 0x50000))
  else if o = 0x60000 then .own (mget 0 b.fe.vfAper i)
  else if 0x70000 ≤ o && o < 0x71010 then .own (b.msixWord (i + 1) (o - 0x70000))
  else .own 0

/-- A BAR0 read of function `f`: all ones during a retained reset or before a cold start has ended (R299, R339); in recovery PF0 alone, and only
the GLB and CFG blocks (R344). -/
def Block.readBar0 (b : Block) (e : Env) (f o : Nat) : Block × Nat :=
  if b.boot.recovery then
    (if f = 0 && o < 0x200000 then b.readWord e 0 o else (b, if f = 0 then 0 else 2 ^ 32 - 1))
  else if !b.barUp then (b, 2 ^ 32 - 1)
  else if f = 0 then b.readWord e 0 o
  else match b.vfWord (f - 1) o with
    | .reg a => b.readWord e 0 a
    | .own v => (b, v)

/-! ## The observation path (R402 to R404, R410) -/

def BpUnit.ctlWord (u : BpUnit) : Nat :=
  field (b2n u.arm) 1 31 + field (b2n u.scope) 1 30 + field u.part 4 26 + field u.plate 3 23 + field u.cluster 10 13 + field u.pc 11 0

def Block.obsWord (b : Block) (o : Nat) : Nat :=
  let x := b.obs
  let t := x.trace
  match o with
  | 0x000 => field (b2n x.sheet.isSome) 1 31 + field x.lastSlot 3 28 + field (b2n t.on) 1 27 + field (b2n x.snap.isSome) 1 26
      + field (b2n x.snapTrunc) 1 25
  | 0x004 => x.mirror
  | 0x008 => field x.cellPlate 3 16 + field x.cellCluster 10 0
  | 0x00C => field x.sheetSlot 3 0 + field x.sheetOff 3 8
  | 0x010 => x.keep
  | 0x028 => x.snapBuf.length
  | 0x040 => field (b2n t.en) 1 31 + field (b2n t.wrap) 1 30 + field t.src 6 0
  | 0x044 => field t.plate 3 16 + field t.cluster 10 6 + field t.port 6 0
  | 0x048 => field (b2n t.stopEn) 1 31 + field (b2n t.startEn) 1 30 + field t.cls 4 16 + field t.code 16 0
  | 0x04C => t.wp
  | _ =>
    if 0x100 ≤ o && o < 0x200 then
      let u := b.bp ((o - 0x100) / 16)
      match o % 16 with
      | 0 => u.ctlWord
      | 4 => u.n
      | 8 => field u.state 3 29 + field u.reason 3 26 + field u.hits 24 0
      | _ => 0
    else 0

def Block.obsPair (b : Block) (o : Nat) : Option Nat :=
  if o = 0x020 then some b.obs.snapTick
  else if 0x400 ≤ o && o ≤ 0x428 then some (mget 0 b.obs.counters o) else none

/-- The domain of a BAR0 offset whose clock a mirror read needs; 127 for always-on registers. -/
def regDomain (a : Nat) : Nat :=
  let o := a % 0x100000
  match a / 0x100000 with
  | 0x0 | 0x1 | 0x2 | 0x7 => 127
  | 0x3 => 95
  | 0xA => 48 + o / 0x10000
  | 0xC => if o < 0x4000 && 0x2000 ≤ o then 86 else 80 + o / 0x4000 / 6
  | n =>
    if 0x20 ≤ n && n < 0x28 then
      let p := n - 0x20
      if 0xA0000 ≤ o then 6 * p + 5
      else
        let k := clusterOf p (o / 0x400)
        quadDom (8 * k.1) (8 * k.2)
    else 92

/-- What a domain in reset, gated or without a clock answers (R403). -/
def Block.darkRead (b : Block) : Block × Nat := (b.bumpObs 0x418 1, 2 ^ 32 - 1)

/-- A mirror read (R403). -/
def Block.readMirror (b : Block) (e : Env) (a : Nat) : Block × Nat :=
  let d := regDomain a
  let s := (b.dom d).state
  if d ≠ 127 && 1 ≤ s && s ≤ 3 then b.darkRead else b.readWord e 1 a

/-- Whether a cell's store may be read: its region is stopped, halted or idle (R404). -/
def Block.cellStill (b : Block) (x y : Nat) : Bool :=
  match b.regionAt x y with
  | some r => let s := (b.region r).state; s = .idle || s = .halted || s = .stopped || s = .breakpoint
  | none => true

/-- A byte of a cell's 32,768 B in the cell window. -/
def Cell.windowByte (c : Cell) (o : Nat) : Nat :=
  if o < 16384 then (mget (0 : Byte) c.ls o).toNat
  else if o < 20480 then leAt (leBytes 8 (twos 64 (c.accAt ((o - 16384) / 8)).val)) (o % 8) 1
  else if o < 20992 then
    let a := c.accAt (o - 20480)
    a.side.code + (if a.poison then 4 else 0)
  else if o < 21120 then leAt (leBytes 2 ((mget 0 c.autoExp ((o - 20992) / 2) + 32768) % 65536)) (o % 2) 1
  else if o < 23168 then leAt (leBytes 32 (mget 0 c.ops ((o - 21120) / 32))) (o % 32) 1
  else if o < 24192 then leAt (leBytes 4 (mget 0 c.vreg ((o - 23168) / 4))) (o % 4) 1
  else if o < 24264 then leAt (leBytes 8 (mget 0 c.counters ((o - 24192) / 8))) (o % 8) 1
  else 0

/-- A word of the cell window. -/
def Block.readCellWindow (b : Block) (o : Nat) : Block × Nat :=
  let k := clusterOf b.obs.cellPlate b.obs.cellCluster
  let c := o / 32768
  let i := o % 32768
  let x := 8 * k.1 + c % 8
  let y := 8 * k.2 + c / 8
  let live := decide (21120 ≤ i) && decide (i < 23168) || decide (24192 ≤ i)
  if c ≥ 64 then (b, 0)
  else if !live && !b.cellStill x y then b.darkRead
  else (b, leNat ((List.range 4).map (fun j => BitVec.ofNat 8 ((b.cell x y).windowByte (i + j)))))

/-- The address of a contact-sheet slot: at the end of plate `k`'s window (R208). -/
def sheetAddr (k : Nat) : Nat := windowBase + k * 0x40000000 + 0x3C000000

/-- A word of the snapshot buffer. -/
def Observe.snapWord (x : Observe) (o : Nat) : Nat :=
  match x.snapBuf[o / 16]? with
  | none => 0
  | some s => match o % 16 with | 0 => s.1 | 8 => low32 s.2 | 12 => high32 s.2 | _ => 0

/-- A BAR2 read of PF0. -/
def Block.readBar2 (b : Block) (e : Env) (o : Nat) : Block × Nat :=
  if o < 0x10000 then
    match b.obsPair (o / 8 * 8) with
    | some v =>
      if o % 8 = 0 then (b.setLatch 1 (0x80000000 + o) (high32 v + 1), low32 v)
      else
        let k := 0x80000000 + o / 8 * 8
        let l := mget 0 b.latches (latchKey 1 k)
        (b.setLatch 1 k 0, if l = 0 then high32 v else l - 1)
    | none => (b, b.obsWord o)
  else if o < 0x200000 then (b, 0)
  else if o < 0x600000 then b.readMirror e (b.obs.mirror * 0x400000 + (o - 0x200000))
  else if o < 0xA00000 then b.readCellWindow (o - 0x600000)
  else if o < 0xE00000 then
    let r := b.readMem e { id := funcReq 0, part := 15, own := true } (sheetAddr b.obs.sheetSlot + 0x400000 * b.obs.sheetOff + (o - 0xA00000)) 4
    (r.1, leNat (r.2.map Prod.fst))
  else if o < 0xF00000 then (b, b.obs.snapWord (o - 0xE00000))
  else (b, leAt (mget [] b.obs.trace.records ((o - 0xF00000) / 16)) (o % 16) 4)

/-- REGISTER_PAIR_READ: a read of one word through BAR0 of a function, or through the observation path, which only PF0 has. -/
def Block.doPairRead (b : Block) (e : Env) (f : Nat) (obs : Bool) (o : Nat) : Block :=
  let a := o / 4 * 4
  if obs && f ≠ 0 then b
  else
    let r := if obs then b.readBar2 e (a % 0x1000000) else b.readBar0 e f (if f = 0 then a % 0x4000000 else a % 0x100000)
    r.1.answerRead f (leBytes 4 r.2) false

end Sys2Proof.Machine
end

