-- ==== Sys2Proof/Machine/Mgmt.lean ====
section
/-! DEFINITION. Management commands (R351), flash updates, and the BMC endpoint (R353, R354). -/
namespace Sys2Proof.Machine

/-! ## The management block (R351) -/

structure MgmtBlock where
  op : Nat
  arg : Nat
  src : Nat
  srcHost : Bool
  len : Nat
  dstLen : Nat
  dst : Nat
  dstHost : Bool
  nonce : List Byte
  low : Nat
  srcHigh : Nat
  dstHigh : Nat
deriving DecidableEq, Repr

def MgmtBlock.ofBytes (bs : List Byte) : MgmtBlock where
  op := leAt bs 0 1
  arg := leAt bs 1 1
  src := leAt bs 8 6
  srcHost := bit (leAt bs 15 1) 7
  len := leAt bs 16 4
  dstLen := leAt bs 20 4
  dst := leAt bs 24 6
  dstHost := bit (leAt bs 31 1) 7
  nonce := (bs.drop 32).take 32
  low := leAt bs 2 6
  srcHigh := bits (leAt bs 14 2) 14 0
  dstHigh := bits (leAt bs 30 2) 14 0

/-- Whether ARG fits OP. -/
def MgmtBlock.argOk (k : MgmtBlock) : Bool :=
  match k.op with
  | 1 => decide (k.arg < 4) || decide (k.arg = 0xFF)
  | 2 => decide (k.arg < 5)
  | 5 => decide (k.arg = 2) || decide (k.arg = 3)
  | _ => decide (k.arg = 0)

/-! ## Measurements (R354) -/

/-- The measurements of indices 1 to 5. -/
def Block.measurement (b : Block) (index : Nat) : List Byte :=
  let f := b.boot.flash
  match index with
  | 1 => Config.shippedDigest 0
  | 2 => ((mget ({} : Firmware) f.slots b.boot.fwSlot).digest).getD (Config.shippedDigest (1 + b.boot.fwSlot))
  | 3 => Config.sha384 (mget [] b.boot.halves b.boot.active) ++ leBytes 1 (b.boot.override.getD 0xFF)
  | 4 => leBytes 1 f.fuseSvn ++ leBytes 1 (f.revoked % 16) ++ leBytes 1 (f.programmed % 16)
  | 5 => Config.sha384 (Config.deviceArea f.mapout b.int.spareStore f.cert f.ownerRec)
  | _ => []

/-- The measurement blocks of some indices. -/
def Block.measureBlocks (b : Block) (indices : List Nat) : List Byte := Config.measureBlocks (indices.map b.measurement)

/-- The output of MEASURE: the blocks of every index, signed over NONCE. -/
def Block.measureOutput (b : Block) (nonce : List Byte) : List Byte :=
  let m := b.measureBlocks [1, 2, 3, 4, 5]
  Config.measureOutput m (Config.identitySign (nonce ++ m))

/-- The bytes that an operation writes to DST. -/
def Block.mgmtOutput (b : Block) (e : Env) (k : MgmtBlock) : List Byte :=
  let words (a : Nat) : List Byte := (List.range 32).flatMap (fun i => leBytes 4 (b.word e (a + 4 * i)))
  if k.op = 0 then words 0 ++ words 0x100000 else if k.op = 4 then b.measureOutput k.nonce else []

/-! ## Refusals (R33, R350, R351) -/

/-- Whether an override to profile `n` keeps the C records of the active profile. -/
def Block.overrideFits (b : Block) (n : Nat) : Bool :=
  match mget none b.boot.verified n with
  | none => false
  | some f =>
    let a := b.boot.profile
    decide (f.epoch = a.epoch) && decide (f.hashKey = a.hashKey) && decide (f.memMode = a.memMode) && decide (f.smbus = a.smbus)

/-- Whether another update than this command's runs. -/
def Block.otherUpdate (b : Block) (q seq : Nat) : Bool :=
  match b.boot.update with
  | none => false
  | some u => !(decide (u.queue = q) && decide (u.seq = seq))

/-- Why a management block refuses its command: the reason of R331 and the offset of the field within the block. -/
def Block.mgmtFault (b : Block) (e : Env) (q seq : Nat) (k : MgmtBlock) : Option (Nat × Nat) :=
  if 5 < k.op then some (0, 0)
  else if !k.argOk then some (0, 1)
  else if k.low ≠ 0 then some (0, 2)
  else if k.srcHigh ≠ 0 then some (0, 8)
  else if k.dstHigh ≠ 0 then some (0, 24)
  else if k.op ≠ 4 && k.nonce.any (fun x => x ≠ 0) then some (0, 32)
  else if 2 ^ 24 < k.len then some (6, 16)
  else if k.dstLen < (b.mgmtOutput e k).length then some (6, 20)
  else match k.op with
    | 1 => if k.arg < 4 && !b.overrideFits k.arg then some (0, 1) else none
    | 2 => if b.otherUpdate q seq then some (0, 0) else none
    | 5 =>
      if bit b.boot.flash.programmed k.arg then some (0, 1)
      else if k.len ≠ 48 then some (6, 16)
      else none
    | _ => none

/-- Reads a command's management block; none when it refuses the command. -/
def Block.mgmtOpen (b : Block) (e : Env) (q : Nat) (r : Running) : Block × Option MgmtBlock :=
  let x := b.queue q
  let o := b.readArg e (engineReq x.engine) x r 64
  let k := MgmtBlock.ofBytes o.2
  match o.1.mgmtFault e q r.seq k with
  | some (reason, off) => (o.1.refuseCmd e q r.seq reason off, none)
  | none => (o.1, some k)

/-- MGMT: the block is read and checked; a flash update is under way from here on. -/
def Block.doMgmt (b : Block) (e : Env) (q : Nat) : Block :=
  match b.activeOpc q 7 with
  | none => b
  | some r =>
    match b.mgmtOpen e q r with
    | (b, some k) =>
      if k.op = 2 then b.setBoot { b.boot with update := some { target := k.arg, queue := q, seq := r.seq } } else b
    | (b, none) => b

/-- A management operation `op` of queue `q`'s command does its work and retires. -/
def Block.mgmtWork (b : Block) (e : Env) (q op : Nat) (f : Block → Running → MgmtBlock → Block) : Block :=
  match b.activeOpc q 7 with
  | none => b
  | some r =>
    match b.mgmtOpen e q r with
    | (b, none) => b
    | (b, some k) => if k.op ≠ op then b else (f b r k).retireCmd q r.seq

/-- The requester that the management core is. -/
def Block.mgmtAsker (b : Block) (q : Nat) (r : Running) : Req := { id := engineReq (b.queue q).engine, part := r.part }

/-- LEN bytes at SRC. -/
def Block.mgmtRead (b : Block) (e : Env) (q : Nat) (r : Running) (k : MgmtBlock) : Block × List Byte :=
  let o := if k.srcHost then b.takeHost false k.src k.len else b.readMem e (b.mgmtAsker q r) k.src k.len
  (o.1, o.2.map Prod.fst)

/-- Bytes to DST. -/
def Block.mgmtWrite (b : Block) (e : Env) (q : Nat) (r : Running) (k : MgmtBlock) (bs : List Byte) : Block :=
  if k.dstHost then b.giveHost false k.dst (clean bs) else b.writeMem e (b.mgmtAsker q r) false k.dst (clean bs)

/-- INFO: 128 B of GLB, then 128 B of CFG. -/
def Block.doInfo (b : Block) (e : Env) (q : Nat) : Block :=
  b.mgmtWork e q 0 (fun b r k => b.mgmtWrite e q r k (b.mgmtOutput e k))

/-- OVERRIDE (R350): names a profile for every later retained reset, or cancels it. -/
def Block.doOverride (b : Block) (e : Env) (q : Nat) : Block :=
  b.mgmtWork e q 1 (fun b _ k =>
    if k.arg = 0xFF then b.setBoot { b.boot with override := none }
    else (b.setBoot { b.boot with override := some k.arg }).bootEvent e 0x105 0 k.arg [])

/-- MEASURE (R354). -/
def Block.doMeasure (b : Block) (e : Env) (q : Nat) : Block :=
  b.mgmtWork e q 4 (fun b r k => b.mgmtWrite e q r k (b.mgmtOutput e k))

/-- OWNER_KEY (R343, R349): fuses cannot be unprogrammed. -/
def Block.doOwnerKey (b : Block) (e : Env) (q : Nat) : Block :=
  b.mgmtWork e q 5 (fun b r k =>
    let o := b.mgmtRead e q r k
    let f := o.1.boot.flash
    let f : Flash := { f with
      programmed := f.programmed ||| 2 ^ k.arg, owners := mset [] f.owners k.arg o.2, ownerRec := some k.arg }
    o.1.setBoot { o.1.boot with flash := f, opened := f.isOpen })

/-- RETAINED_RESET: the command completes, then the retained reset begins. -/
def Block.doRetainedReset (b : Block) (e : Env) (q : Nat) : Block :=
  match b.activeOpc q 7 with
  | none => b
  | some r =>
    match b.mgmtOpen e q r with
    | (b, none) => b
    | (b, some k) => if k.op ≠ 3 then b else ((b.retireCmd q r.seq).doCommandComplete e q).retainedReset e 2

/-! ## Flash updates (R341 to R348, R351) -/

/-- Why an update is rejected: 0 signature, 1 SVN, 2 record, 3 format; otherwise the flash it leaves and IMAGE_VER. -/
abbrev UpdateResult := Except Nat (Flash × Nat)

/-- A firmware image goes into the slot that ACTIVE does not name; the older header copy then names it. -/
def Flash.takeFirmware (f : Flash) (bs : List Byte) : UpdateResult :=
  let n := bs.length - 512
  match sigBlock bs n with
  | none => .error 3
  | some k =>
    if bs.length < 512 || bs.length ≠ n + 512 then .error 3
    else if 2 ≤ k.key || !f.signs (bs.take n) k then .error 0
    else if k.svn < f.fuseSvn then .error 1
    else
      let h := (f.ruling (fun _ => false)).getD 1
      let old := mget ({} : Header) f.headers h
      let s := 1 - old.active
      .ok ({ f with
        slots := mset {} f.slots s { ok := true, key := k.key, svn := k.svn, commit := k.commit, ver := k.ver, digest := some (Config.sha384 bs) }
        headers := mset {} f.headers (1 - h) { ok := true, active := s, seq := (old.seq + 1) % 2 ^ 32 } }, k.ver)

/-- A profile half goes into the older half of its slot. -/
def Flash.takeProfile (f : Flash) (n : Nat) (bs : List Byte) : UpdateResult :=
  if 0x80000 < bs.length then .error 3
  else match f.readHalf n bs with
    | .missing => .error 3
    | .corrupt t => .error (if t = 0xFFFF then 3 else 2)
    | .unsigned => .error 0
    | .valid _ _ =>
      let h := if (f.readProfile (fun _ => false) n).2 = 0 then 1 else 0
      .ok ({ f with halves := mset [] f.halves (2 * n + h) bs }, leAt bs (64 + leAt bs 12 4 + 12) 4)

/-- An update of a target: 0 firmware, 1 to 4 profile 0 to 3. -/
def Flash.take (f : Flash) (target : Nat) (bs : List Byte) : UpdateResult :=
  if target = 0 then f.takeFirmware bs else f.takeProfile (target - 1) bs

/-- Applies an update: UPDATE_DONE, or nothing written and UPDATE_REJECTED. -/
def Block.applyUpdate (b : Block) (e : Env) (target : Nat) (bs : List Byte) : Block :=
  let profile := if target = 0 then 0xFF else target - 1
  match b.boot.flash.take target bs with
  | .error why => (b.bumpBoot 0x110 1).bootEvent e 0x109 1 profile [(25, 1, target), (26, 1, why)]
  | .ok (f, ver) =>
    ((b.setBoot { b.boot with flash := f }).bumpBoot 0x108 1).bootEvent e 0x108 0 profile [(25, 1, target), (28, 4, ver)]

/-- FLASH_WRITE: the bytes are verified, and only then written. -/
def Block.doFlashWrite (b : Block) (e : Env) (q : Nat) : Block :=
  b.mgmtWork e q 2 (fun b r k =>
    let o := b.mgmtRead e q r k
    let b := o.1.applyUpdate e k.arg o.2
    b.setBoot { b.boot with update := none })

/-! ## The endpoint (R344, R353) -/

/-- The management core serves the endpoint: firmware runs, or the boot ROM in recovery mode. -/
def Block.endpointUp (b : Block) : Bool := b.boot.recovery || decide (3 ≤ b.boot.stage)

/-- Every protocol is served; in recovery mode PLDM types 0 and 5 only. -/
def Block.fullyUp (b : Block) : Bool := b.endpointUp && !b.boot.recovery

def Block.tell (b : Block) (command : Nat) (values : List Nat) (bytes : List Byte) : Block :=
  b.emit (.answer command values bytes)

def Block.setEndpoint (b : Block) (x : Endpoint) : Block := b.setBoot { b.boot with endpoint := x }

/-- SET_ENDPOINT_ID: the bus owner assigns the EID. -/
def Block.doSetEndpointId (b : Block) (eid : Nat) : Block :=
  if b.endpointUp then (b.setEndpoint { b.boot.endpoint with eid := eid }).tell 1 [eid] [] else b

def Block.doGetEndpointId (b : Block) : Block := if b.endpointUp then b.tell 2 [b.boot.endpoint.eid] [] else b

/-- GET_VERSION_SUPPORT: MCTP 1.3. -/
def Block.doVersionSupport (b : Block) : Block := if b.endpointUp then b.tell 3 [1, 3] [] else b

/-- The PLDM types served. -/
def Block.pldmTypes (b : Block) : List Nat := if b.boot.recovery then [0, 5] else [0, 2, 5]

/-- GET_MESSAGE_TYPE_SUPPORT: control messages and PLDM as 0 and 1, SPDM as 2 unless in recovery mode. -/
def Block.doTypeSupport (b : Block) : Block :=
  if b.endpointUp then b.tell 4 (if b.boot.recovery then [0, 1] else [0, 1, 2]) [] else b

def Block.doPldmDiscovery (b : Block) : Block := if b.endpointUp then b.tell 5 b.pldmTypes [] else b

/-- What a sensor reads; nothing where it has no reading yet. -/
def Block.sensor (b : Block) : Sensor → List Nat
  | .plateTemperature p => ((b.module.temp 0 p).map (twos 16)).toList
  | .stackTemperature s => ((b.module.temp 1 s).map (twos 16)).toList
  | .inputPower => b.tim.msMeans.take 1
  | .limit => [b.tim.limit]
  | .partitionPower p => [mget 0 b.tim.ppwr p]
  | .ready => [b2n b.boot.ready]
  | .recovery => [b2n b.boot.recovery]
  | .profileFailed => [b2n b.boot.profileFailed]

def Block.doSensorRead (b : Block) (s : Sensor) : Block := if b.fullyUp then b.tell 6 (b.sensor s) [] else b

/-- PLDM_FIRMWARE_UPDATE of a component: value 1 answers that the endpoint is already in update mode. -/
def Block.doPldmUpdate (b : Block) (e : Env) (target : Nat) (bs : List Byte) : Block :=
  if !b.endpointUp then b
  else if b.boot.update.isSome then b.tell 7 [1] []
  else (b.applyUpdate e target bs).tell 7 [0] []

/-! ## SPDM (R353, R354) -/

/-- An SPDM request that its place in the exchange allows gets its answer; answer 0 names one that it does not allow. -/
def Block.spdm (b : Block) (command need : Nat) (f : Block → Block) : Block :=
  if !b.fullyUp then b else if b.boot.endpoint.spdm < need then b.tell 0 [command] [] else f b

def Block.setSpdm (b : Block) (n : Nat) : Block := b.setEndpoint { b.boot.endpoint with spdm := n }

/-- GET_VERSION: SPDM 1.2. -/
def Block.doGetVersion (b : Block) : Block := b.spdm 8 0 (fun b => (b.setSpdm 1).tell 8 [1, 2] [])

/-- GET_CAPABILITIES: the requests that a responder without key exchange and sessions serves. -/
def Block.doGetCapabilities (b : Block) : Block :=
  b.spdm 9 1 (fun b => (b.setSpdm (max 2 b.boot.endpoint.spdm)).tell 9 [8, 9, 10, 11, 12, 13, 14] [])

/-- NEGOTIATE_ALGORITHMS: ECDSA P-384 and SHA-384 only. -/
def Block.doNegotiate (b : Block) (ecdsaP384 sha384 : Bool) : Block :=
  b.spdm 10 2 (fun b =>
    let b := if ecdsaP384 && sha384 then b.setSpdm 3 else b
    b.tell 10 [b2n ecdsaP384, b2n sha384] [])

def Block.doGetDigests (b : Block) : Block := b.spdm 11 3 (fun b => b.tell 11 [] (Config.sha384 b.boot.flash.cert))

/-- GET_CERTIFICATE: a portion of the identity chain, and what is left behind it. -/
def Block.doGetCertificate (b : Block) (off len : Nat) : Block :=
  b.spdm 12 3 (fun b =>
    let bs := (b.boot.flash.cert.drop off).take len
    b.tell 12 [bs.length, b.boot.flash.cert.length - off - bs.length] bs)

def Block.doChallenge (b : Block) (nonce : List Byte) : Block :=
  b.spdm 13 3 (fun b =>
    let parts := [Config.sha384 b.boot.flash.cert, nonce]
    b.tell 13 [] (parts.flatten ++ Config.identitySign (Config.spdmTranscript 13 parts)))

/-- GET_MEASUREMENTS: index 0 asks for the number of measurements, 255 for all of them. -/
def Block.doGetMeasurements (b : Block) (index : Nat) (nonce : List Byte) : Block :=
  b.spdm 14 3 (fun b =>
    let l := if index = 0 then [] else if index = 255 then [1, 2, 3, 4, 5] else [index]
    let m := if index = 0 then [] else b.measureBlocks l
    b.tell 14 (if index = 0 then [5] else l) (m ++ Config.identitySign (Config.spdmTranscript 14 [m, nonce])))

end Sys2Proof.Machine
end

