-- ==== Sys2Proof/Machine/Shared.lean ====
section
/-! DEFINITION. The operations of a home slice (R233 to R237) and of the frame allocators (R240 to R244) as commands. -/
namespace Sys2Proof.Machine

/-- A reduction of operand bytes at an address, by ROP code; `fmt` is a format code of R32, which some reductions do not read. -/
def Block.doRop (b : Block) (e : Env) (q : Asker) (rop fmt : Nat) (ex : Int) (a : Nat) (bs : List (Byte × Bool)) : Block :=
  match Fmt.ofCode fmt with
  | some f => b.reduceMem e q.req rop f ex false a bs
  | none => b.ewaRefused e q.req rop 1 a

/-- WRITE: a plain store. -/
def Block.doWrite (b : Block) (e : Env) (q : Asker) (cmpr : Bool) (a : Nat) (bs : List (Byte × Bool)) : Block :=
  b.reduceMem e q.req 0 .fp32 0 cmpr a bs

def Block.doWset (b : Block) (e : Env) (q : Asker) (fmt : Nat) (ex : Int) (a : Nat) (bs : List (Byte × Bool)) : Block :=
  b.doRop e q 1 fmt ex a bs
def Block.doWadd (b : Block) (e : Env) (q : Asker) (fmt : Nat) (ex : Int) (a : Nat) (bs : List (Byte × Bool)) : Block :=
  b.doRop e q 2 fmt ex a bs

/-- The integer reductions take their width from the ROP alone. -/
def Block.doIntRop (b : Block) (e : Env) (q : Asker) (rop a : Nat) (bs : List (Byte × Bool)) : Block :=
  b.reduceMem e q.req rop .fp32 0 false a bs

def Block.doFmax (b : Block) (e : Env) (q : Asker) (fmt a : Nat) (bs : List (Byte × Bool)) : Block := b.doRop e q 9 fmt 0 a bs
def Block.doFmin (b : Block) (e : Env) (q : Asker) (fmt a : Nat) (bs : List (Byte × Bool)) : Block := b.doRop e q 10 fmt 0 a bs
def Block.doFadd (b : Block) (e : Env) (q : Asker) (fmt a : Nat) (bs : List (Byte × Bool)) : Block := b.doRop e q 11 fmt 0 a bs
def Block.doGv4add (b : Block) (e : Env) (q : Asker) (fmt a : Nat) (bs : List (Byte × Bool)) : Block := b.doRop e q 12 fmt 0 a bs

/-- GV4ADD_DONE: the controller writes the sum of the oldest forwarded element. -/
def Block.doGv4Done (b : Block) (e : Env) : Block :=
  match b.shc.adds with
  | [] => b
  | x :: _ => b.addDone e x

/-! ## Frames -/

/-- ALLOC: requests, as requester ID and partition, reach allocator `h`; then one hub cycle passes. -/
def Block.doAlloc (b : Block) (h : Nat) (reqs : List (Nat × Nat)) : Block :=
  let x := b.alloc h
  let b := b.setAlloc h { x with pending := x.pending ++ reqs.map (fun r => { id := r.1, part := r.2, forwarded := false }) }
  b.allocCycle h

/-- FORWARDED_ALLOC: the oldest forwarded request joins the rotation of allocator `h`. -/
def Block.doForwarded (b : Block) (h : Nat) : Block :=
  let x := b.alloc h
  match x.forwardedIn with
  | [] => b
  | r :: rs => b.setAlloc h { x with forwardedIn := rs, pending := x.pending ++ [r] }

/-- A requester re-enters its home allocator's rotation. -/
def Block.reenter (b : Block) (r : AllocAnswer) : Block :=
  let h := homeHub r.id
  let x := b.alloc h
  b.setAlloc h { x with pending := x.pending ++ [{ id := r.id, part := r.part, forwarded := false }] }

/-- POOL_EMPTY_ANSWER: the oldest answer of allocator `h` reaches its requester, which re-enters at once where the credit has
risen since the stamp, and otherwise waits. -/
def Block.doPoolEmpty (b : Block) (h : Nat) : Block :=
  let x := b.alloc h
  match x.answers with
  | [] => b
  | r :: rs =>
    let b := b.setAlloc h { x with answers := rs }
    if r.stamp < b.shc.credit then b.reenter r
    else
      let k := homeHub r.id
      let y := b.alloc k
      b.setAlloc k { y with waiting := y.waiting ++ [r] }

/-- CREDIT_REENTRY: the requesters of hub `h` that the credit has risen for re-enter. -/
def Block.doReentry (b : Block) (h : Nat) : Block :=
  let x := b.alloc h
  let go := x.waiting.filter (fun r => decide (r.stamp < b.shc.credit))
  let b := b.setAlloc h { x with waiting := x.waiting.filter (fun r => !decide (r.stamp < b.shc.credit)) }
  go.foldl (fun b r => b.reenter r) b

def Block.doFree (b : Block) (e : Env) (id part f : Nat) : Block := b.freeFrame e id part f
def Block.doGive (b : Block) (e : Env) (id part f newId newPart : Nat) : Block := b.giveFrame e id part f newId newPart
def Block.doZeroed (b : Block) (f : Nat) : Block := b.zeroDone f

/-- FRAMES_RECLAIMED: both sweeps of a partition end; without a reclaim in progress, nothing. -/
def Block.doReclaimed (b : Block) (e : Env) (part : Nat) : Block :=
  match mget 0 b.shc.reclaiming part with
  | 0 => b
  | why + 1 => b.reclaim e part why

/-- Whether quota writes have made a grant possible that was not (R243): the credit rises. -/
def Block.quotaCredit (b old : Block) : Block :=
  if [0, 1].any (fun h => (List.range 9).any (fun i => b.mayGrant h i && !old.mayGrant h i)) then
    { b with shc := { b.shc with credit := b.shc.credit + 1 } }
  else b

/-- SHC_FQ_MIN (R242): refused where it would break the condition on either hub. -/
def Block.doFqMin (b : Block) (e : Env) (i n : Nat) : Block :=
  let n := n % 2 ^ 17
  let t : Block := { b with shc := { b.shc with min := mset 0 b.shc.min i n } }
  if t.quotaFits then t.quotaCredit b
  else (b.bumpShc 0x620 1).post e { cls := 5, sev := 1, code := 0x104, part := 15, source := 0x18
                                    payload := [(28, 1, i), (32, 4, n)] }

/-- SHC_FQ_MAX (R242). -/
def Block.doFqMax (b : Block) (i n : Nat) : Block :=
  let t : Block := { b with shc := { b.shc with max := mset 65536 b.shc.max i (min (n % 2 ^ 17) 65536) } }
  t.quotaCredit b

end Sys2Proof.Machine
end

