-- ==== Sys2Proof/Machine/RegWrite.lean ====
section
/-! DEFINITION. What a register write does (R5 to R7 and the maps of R177, R203, R226, R245, R266, R278, R279, R303, R335 to R337,
R373, R397, R410, R435). A write that has a row of its own acts as that row does; RO registers and reserved offsets ignore it. -/
namespace Sys2Proof.Machine

/-- The nearest value in a range. -/
def clamp (lo hi v : Nat) : Nat := max lo (min hi v)

/-- GLB_TRIP VALID is W1C. -/
def Block.writeGlb (b : Block) (o v : Nat) : Block :=
  if o = 0x114 && bit v 31 then b.setModule { b.module with trip := b.module.trip.map (fun t => { t with valid := false }) } else b

def Block.writeClk (b : Block) (e : Env) (o v : Nat) : Block :=
  match o with
  | 0x004 => b.doPstate e (bits v 31 30) (bit v 29)
  | 0x00C => if bit v 31 then b.doUngate e (v % 128) else b.doGate e (v % 128)
  | 0x014 => b.doDomainReset e (v % 128)
  | 0x01C => b.doSwitch e (v % 16) (bits v 12 8)
  | _ =>
    if !bit v 29 then b
    else if 0x100 ≤ o && o < 0x170 then
      let n := (o - 0x100) / 4
      b.setPll n { mget ({} : Pll) b.clk.plls n with lost := false }
    else if 0x180 ≤ o && o < 0x194 then
      let n := (o - 0x180) / 4
      b.setClk { b.clk with refs := mset {} b.clk.refs n { mget ({} : Ref) b.clk.refs n with lost := false } }
    else b

def Block.writeTim (b : Block) (e : Env) (o v : Nat) : Block :=
  match o with
  | 0x01C => b.modTim (fun t => { t with holdLimit := clamp 1 3600 v })
  | 0x044 => b.doTimHostCap e (v % 65536)
  | 0x048 => b.modTim (fun t => { t with slew := clamp 50 6900 (v % 65536) })
  | 0x04C => b.doTimFloor v
  | _ =>
    if 0x060 ≤ o && o < 0x080 then
      b.modTim (fun t => { t with shares := mset 0 t.shares ((o - 0x060) / 4) (max 1 (v % 256)) })
    else b

/-- FE registers that PF0 alone writes. -/
def Block.writeFe (b : Block) (e : Env) (o v : Nat) : Block :=
  let setFe (f : FrontEnd) : Block := { b with fe := f }
  if 0x10 ≤ o && o < 0x30 then
    b.doFePart e 0 ((o - 0x10) / 4) { valid := bit v 31, first := bits v 7 4, size := v % 4 }
  else if 0x100 ≤ o && o < 0x280 then
    let en := (o - 0x100) / 8
    if o % 8 = 0 then setFe { b.fe with ts := mset 0 b.fe.ts en (clamp 10 100000 v) }
    else setFe { b.fe with dl := mset 0 b.fe.dl en (max 1 (v % 65536)) }
  else if o = 0x400 then setFe { b.fe with aper := v % 2 ^ 18 }
  else b

/-- A word of a queue's window that is no pair. -/
def Block.writeQueue (b : Block) (e : Env) (f q o v : Nat) : Block :=
  if o = 0x08 then b.queueCtl e f q (bit v 31) (bits v 29 26) (bits v 25 20) (bits v 19 16) (v % 128) else b

/-- SYN_CTL: MODE, STEP and, from PF0, PART. -/
def Block.writeSynCtl (b : Block) (e : Env) (f n v : Nat) : Block :=
  if !b.reachesObj f n then b
  else
    let b := if bits v 31 30 = (b.obj n).mode then b else b.doSynMode e f n (bits v 31 30)
    let o := b.obj n
    b.setObj n { o with step := bit v 27, part := if f = 0 then bits v 25 22 else o.part }

/-- SYN_OP: ADD, RELEASE, and the reserved codes, ignored and counted. -/
def Block.writeSynOp (b : Block) (e : Env) (f n v : Nat) : Block :=
  match bits v 31 28 with
  | 0 => b.doAdd e f n (v % 2 ^ 28)
  | 1 => b.doRelease e f n
  | _ => if b.reachesObj f n then b.bumpSyn 0 1 else b

/-- A word of SYN that is no pair. -/
def Block.writeSyn (b : Block) (e : Env) (f o v : Nat) : Block :=
  if o < 0x20000 then
    (if o % 16 = 8 then b.writeSynCtl e f (o / 16) v else if o % 16 = 12 then b.writeSynOp e f (o / 16) v else b)
  else if o < 0x20400 then
    let k := (o - 0x20000) / 16
    let s := b.slot k
    if o % 16 = 8 then b.doGuardSlot e f k s.base (bits v 31 28) (v % 128) s.valid s.obj
    else if o % 16 = 12 then b.doGuardSlot e f k s.base s.part s.len (bit v 31) (v % 8192)
    else b
  else b

/-- An entry of a function's MSI-X table: unmasking a pending vector sends it. -/
def Block.writeMsix (b : Block) (f o v : Nat) : Block :=
  let k := o / 16 % 128
  let key := msixKey f k
  let m := mget ({} : Msix) b.evt.msix key
  let m : Msix := match o % 16 with
    | 0 => { m with addr := m.addr / 2 ^ 32 * 2 ^ 32 + v / 4 * 4 }
    | 4 => { m with addr := v * 2 ^ 32 + m.addr % 2 ^ 32 }
    | 8 => { m with data := v }
    | _ => { m with masked := bit v 0 }
  let go := m.pending && !m.masked
  let b : Block := { b with evt := { b.evt with msix := mset {} b.evt.msix key { m with pending := m.pending && m.masked } } }
  if go then b.fireMsix f k else b

/-- A word of EVT that is no pair. -/
def Block.writeEvt (b : Block) (e : Env) (f o v : Nat) : Block :=
  if o < 0x900 then
    let k := o / 64
    let r := mget ({} : Ring) b.evt.rings k
    if !b.reachesRing f k then b
    else match o % 64 with
      | 0x08 => b.doEvtCtl e f k (bit v 31) (bit v 30) (bits v 19 16) (bits v 15 14) (v % 128)
      | 0x0C => b.setRing k { r with mask := v % 1024 }
      | 0x14 => b.doEvtCons e f k v
      | 0x18 => b.setRing k { r with mod := v % 65536 }
      | _ => b
  else if 0x8000 ≤ o && o < 0x8400 && f = 0 then b.writeMsix 0 (o - 0x8000) v
  else b

/-- GEN registers: the value waits for the job's next step gate. -/
def Block.writeGen (b : Block) (p o v : Nat) : Block :=
  let put (x : Nat) : Block := b.modAux p (fun a => { a with pendRegs := mset 0 a.pendRegs o x })
  match o with
  | 0x008 => put (clamp 100 100000 v)
  | 0x00C => put (clamp 1 100000 v)
  | 0x010 => put (clamp 10 60000 v)
  | 0x014 => put (clamp 100 600000 v)
  | _ => b

/-- The traffic generator's registers. -/
def Block.writeTg (b : Block) (e : Env) (ch o v : Nat) : Block :=
  let c := b.memChan ch
  let set (t : TrafficGen) : Block := b.setChan ch { c with tg := t }
  match o with
  | 0x00 =>
    let b := if bit v 30 then set { c.tg with done := false } else b
    if bit v 0 then b.doTgStart e ch (bits v 29 28) (bits v 27 24)
    else
      let c := b.memChan ch
      b.setChan ch { c with tg := { c.tg with op := bits v 29 28, pattern := bits v 27 24 } }
  | 0x04 => set { c.tg with base := v % 2 ^ 20 }
  | 0x08 => set { c.tg with count := v % 2 ^ 25 }
  | 0x0C => set { c.tg with stride := v }
  | 0x10 => set { c.tg with seed := v }
  | _ => b

def Block.writeMemReg (b : Block) (e : Env) (s o v : Nat) : Block :=
  if o = 0x00C then b.doMapoutPend s v
  else if 0x4000 ≤ o && o < 0x6000 then b.writeTg e (32 * s + (o - 0x4000) / 0x100) (o % 0x100) v
  else if s ≠ 0 then b
  else match o with
    | 0x020 => b.setMem { b.mem with actMax := clamp 8 64 (v % 256) }
    | 0x024 => b.setMem { b.mem with raaimt := clamp 16 64 (v % 256) }
    | 0x028 => b.setMem { b.mem with skewLimit := clamp 24 1024 (v % 65536) }
    | 0x02C => b.setMem { b.mem with scrubPeriod := clamp 1 168 (v % 256) }
    | 0x030 => b.setMem { b.mem with laneLimit := max 1 (v % 65536) }
    | _ =>
      if 0x300 ≤ o && o < 0x400 && o % 8 = 0 then b.doPrange ((o - 0x300) / 8) (v / 65536) (v % 65536) else b

def Block.writeShc (b : Block) (e : Env) (o v : Nat) : Block :=
  if o = 0 then { b with shc := { b.shc with gv4En := v % 512 } }
  else if 0x40 ≤ o && o < 0xD0 then
    let i := (o - 0x40) / 16
    if o % 16 = 0 then b.doFqMin e i v else if o % 16 = 4 then b.doFqMax i v else b
  else b

/-- A coordinate from a CL_COORD half. -/
def coordOf (v : Nat) : Nat := if bit v 15 then coordCode (bits v 9 6) (bits v 5 3) (v % 8) else 0

/-- A write of the topology (R266): ignored and counted while a partition holds a job. -/
def Block.writeTopo (b : Block) (t : Topology) : Block :=
  if (List.range 8).any (fun p => b.holdsJob p) then b.bumpLink 0x2100 1 else { b with topo := t }

def Block.writeCl (b : Block) (e : Env) (n o v : Nat) : Block :=
  if o = 0x004 then
    let p := b.port n
    let b := b.setPort n { p with upHold := v % 65536 }
    let b := if bit v 31 = p.enable then b else b.doClEnable e n (bit v 31)
    if bit v 30 = p.forceX2 then b else b.doForceX2 e n (bit v 30)
  else if o = 0x008 then b.modPort n (fun p => { p with laneLimit := max 1 v })
  else if n ≠ 0 then b
  else if o = 0x2000 then
    b.writeTopo { b.topo with self := bits v 25 16, sx := bits v 11 8 + 1, sy := bits v 6 4 + 1, sz := v % 8 + 1 }
  else if o = 0x2004 then { b with link := { b.link with wCol := max 1 (bits v 15 8), wPipe := max 1 (v % 256) } }
  else if o = 0x2008 then { b with link := { b.link with peerHold := clamp 1 10000 (v % 65536) } }
  else if 0x2800 ≤ o && o < 0x3000 then
    let k := (o - 0x2800) / 4
    b.writeTopo { b.topo with
      coords := mset 0 (mset 0 b.topo.coords (2 * k) (coordOf (v % 65536))) (2 * k + 1) (coordOf (v / 65536)) }
  else b

def Block.writeInt (b : Block) (o v : Nat) : Block :=
  let set (i : Integrity) : Block := { b with int := i }
  match o with
  | 0x004 => set { b.int with
      brkEn := bit v 31, brkN := clamp 6 20 (bits v 28 24), remapAuto := bit v 16, fogLimit := max 1 (v % 256) }
  | 0x008 => set { b.int with proofPeriod := clamp 10 86400 v }
  | 0x00C => set { b.int with fogWindow := clamp 1 168 (v % 256) }
  | _ => b

/-- A word at a PF0 BAR0 offset that belongs to no pair, written by function `f`. Blocks other than queue windows, SYN and the
event rings are PF0's alone. -/
def Block.writeSolo (b : Block) (e : Env) (f a v : Nat) : Block :=
  let o := a % 0x100000
  match a / 0x100000 with
  | 0x4 =>
    if 0x10000 ≤ o && o < 0x20000 then b.writeQueue e f ((o - 0x10000) / 0x100) (o % 0x100) v
    else if f = 0 then b.writeFe e o v else b
  | 0x5 => b.writeSyn e f o v
  | 0x6 => b.writeEvt e f o v
  | n =>
    if f ≠ 0 then b
    else match n with
      | 0x0 => b.writeGlb o v
      | 0x2 => b.writeClk e o v
      | 0x3 => b.writeTim e o v
      | 0x7 => if o < 0x8000 then b.writeGen (o / 0x1000) (o % 0x1000) v else b
      | 0xA => b.writeMemReg e (o / 0x10000) (o % 0x10000) v
      | 0xB => b.writeShc e o v
      | 0xC => if o < 0x90000 then b.writeCl e (o / 0x4000) (o % 0x4000) v else b
      | 0x10 => b.writeInt o v
      | _ => b

/-! ## Pairs (R5) -/

/-- The effect of a pair whose _HI word has been written, with its whole value. -/
def Block.writePair (b : Block) (e : Env) (f a v : Nat) : Block :=
  let o := a % 0x100000
  match a / 0x100000 with
  | 0x4 =>
    let q := (o - 0x10000) / 0x100
    if o < 0x10000 || 0x20000 ≤ o || !b.reachesQueue f q then b
    else match o % 0x100 with
      | 0x00 => b.setQueue q { b.queue q with base := v % 2 ^ 63 / 64 * 64, host := bit v 63 }
      | 0x10 => b.doDoorbell e f q v
      | 0x28 => b.setQueue q { b.queue q with caddr := v % 2 ^ 63 / 8 * 8, caddrHost := bit v 63 }
      | _ => b
  | 0x5 =>
    if o < 0x20000 then b.doSet e f (o / 16) v
    else if o < 0x20400 then
      let k := (o - 0x20000) / 16
      let s := b.slot k
      b.doGuardSlot e f k (v % 2 ^ 48 / 64 * 64) s.part s.len s.valid s.obj
    else b
  | 0x6 =>
    let k := o / 64
    if o < 0x900 && o % 64 = 0 && b.reachesRing f k then b.setRing k { mget ({} : Ring) b.evt.rings k with base := v / 4096 * 4096 }
    else b
  | _ => b

/-- Whether function `f` may stage a write of a pair at all. -/
def Block.reachesPair (b : Block) (f a : Nat) : Bool :=
  let o := a % 0x100000
  match a / 0x100000 with
  | 0x4 => decide (0x10000 ≤ o) && b.reachesQueue f ((o - 0x10000) / 0x100)
  | 0x5 => if o < 0x20000 then b.reachesObj f (o / 16) else f = 0 || decide ((b.slot ((o - 0x20000) / 16)).part = funcPart f)
  | 0x6 => decide (o < 0x900) && b.reachesRing f (o / 64)
  | _ => false

/-- A write of a word at a PF0 BAR0 offset. A _LO word waits for its _HI word; without one before it, the pair's lower half stands
as it is. An access to a pair empties its latch unless it is a read of _LO. -/
def Block.writeWord (b : Block) (e : Env) (f a v : Nat) : Block :=
  let lo := a / 8 * 8
  match b.pair e lo with
  | none => b.writeSolo e f a v
  | some old =>
    let b := b.setLatch 0 lo 0
    if !b.reachesPair f lo then b
    else if a % 8 = 0 then { b with loWrites := mset 0 b.loWrites lo (v + 1) }
    else
      let l := mget 0 b.loWrites lo
      let b : Block := { b with loWrites := mset 0 b.loWrites lo 0 }
      b.writePair e f lo (v * 2 ^ 32 + (if l = 0 then low32 old else l - 1))

/-! ## The functions' windows -/

/-- Where a write to VF(i+1)'s BAR0 goes: a register of the block table, or the VF's own VF_APER and MSI-X table. -/
def Block.writeVf (b : Block) (e : Env) (i o v : Nat) : Block :=
  let f := i + 1
  if o = 0x60000 then { b with fe := { b.fe with vfAper := mset 0 b.fe.vfAper i v } }
  else if 0x70000 ≤ o && o < 0x70800 then b.writeMsix f (o - 0x70000) v
  else if o < 0x10000 || 0x50100 ≤ o then b
  else match b.vfWord i o with
    | .reg a => b.writeWord e f a v
    | .own _ => b

def Block.writeBar0 (b : Block) (e : Env) (f o v : Nat) : Block :=
  if !b.barUp then b else if f = 0 then b.writeWord e 0 o v else b.writeVf e (f - 1) o v

end Sys2Proof.Machine
end

