-- ==== Sys2Proof/Machine/Observe.lean ====
section
/-! DEFINITION. The observation path at work (R400 to R411) and expired deadlines (R315, R316): snapshots, contact sheets,
breakpoints, the OBS registers. -/
namespace Sys2Proof.Machine

def Block.setObs (b : Block) (x : Observe) : Block := { b with obs := x }

/-! ## Snapshots (R405) -/

/-- OBS_SNAP_REQ: ignored and counted while a snapshot is busy. -/
def Block.doSnapReq (b : Block) (e : Env) (plates : Nat) (cells hub : Bool) : Block :=
  if b.obs.snap.isSome then b.bumpObs 0x428 1
  else
    let tick := if e.clk.now < b.obs.snapTick then b.obs.snapTick else e.clk.now + 1
    b.setObs { b.obs with snap := some { tick := tick, plates := plates % 256, cells := cells, hub := hub } }

/-- `n` offsets 8 B apart. -/
def pairsFrom (a n : Nat) : List Nat := (List.range n).map (fun i => a + 8 * i)

/-- The BAR0 offsets of the hub-block counters, ascending. -/
def hubCounters : List Nat :=
  pairsFrom 0x140 2 ++ pairsFrom 0x100100 4 ++ pairsFrom 0x200200 6
    ++ (List.range 100).flatMap (fun d => pairsFrom (0x201008 + 32 * d) 2)
    ++ pairsFrom 0x300100 7 ++ pairsFrom 0x300140 8 ++ pairsFrom 0x400800 8 ++ pairsFrom 0x530000 5
    ++ (List.range 36).map (fun r => 0x600020 + 64 * r) ++ [0x601008]
    ++ (List.range 8).flatMap (fun p => pairsFrom (0x700040 + 0x1000 * p) 4)
    ++ (List.range 16).flatMap (fun s => pairsFrom (0xA00100 + 0x10000 * s) 11
        ++ (if s = 0 then pairsFrom 0xA00200 9 else []) ++ (List.range 32).map (fun c => 0xA04018 + 0x10000 * s + 0x100 * c))
    ++ pairsFrom 0xB00600 11 ++ (List.range 16).flatMap (fun s => pairsFrom (0xB01000 + 0x40 * s) 4)
    ++ (List.range 36).flatMap (fun n => pairsFrom (0xC00100 + 0x4000 * n) 26 ++ (if n = 0 then pairsFrom 0xC02100 3 else []))
    ++ (List.range 6).flatMap (fun x => pairsFrom (0xE00100 + 0x1000 * x) 12) ++ pairsFrom 0x1000100 20

/-- The sum of cell counter `k` over a plate. -/
def Block.cellSum (b : Block) (p k : Nat) : Nat :=
  ((b.plates.cells.filter (fun c => decide (plateOfCell c.1 = p))).map (fun c => mget 0 c.2.counters k)).sum

/-- The thirteen counters of a cluster. -/
def clusterPairs (p c : Nat) : List Nat := pairsFrom (0x2000100 + 0x100000 * p + 0x400 * c) 13

/-- The entries that a snapshot selects, as offset and value. -/
def Block.snapEntries (b : Block) (e : Env) (r : SnapReq) : List (Nat × Nat) :=
  let at_ (a : Nat) : Nat × Nat := (a, (b.pair e a).getD 0)
  (if r.hub then hubCounters.map at_ else [])
    ++ (if r.cells then (List.range 8).flatMap (fun p =>
          (List.range 9).map (fun k => (0xFF000000 + 16 * p + k, b.cellSum p k))) else [])
    ++ ((List.range 8).filter (fun p => bit r.plates p)).flatMap (fun p =>
          (List.range 640).flatMap (fun c => (clusterPairs p c).map at_))

/-- SNAPSHOT_TICK. -/
def Block.doSnapTick (b : Block) (e : Env) : Block :=
  match b.obs.snap with
  | none => b
  | some r =>
    let all := b.snapEntries e r
    let trunc := decide (65536 < all.length)
    let buf := all.take 65536
    (b.setObs { b.obs with snap := none, snapTrunc := trunc, snapBuf := buf }).post e
      { cls := 0, sev := 0, code := 0x106, part := 15, source := 0x1F, payload := [(25, 1, b2n trunc), (28, 4, buf.length)] }

/-! ## Contact sheets (R406, R407) -/

/-- The partitions of a scope. -/
def scopeParts (scope : Nat) : List (Fin 8) := (List.finRange 8).filter (fun p => bit scope 8 || bit scope p)

/-- Whether a scope covers partition `p`; 0xF only device-wide. -/
def inScope (scope p : Nat) : Bool := bit scope 8 || (decide (p < 8) && bit scope p)

/-- A drain request to every region of a scope; a walk stops at once. -/
def Block.drainScope (b : Block) (e : Env) (scope : Nat) : Block :=
  (scopeParts scope).foldl (fun b (p : Fin 8) => (b.liveRegions p).foldl (fun b i => b.doDrainRequest e ⟨p, i⟩) b) b

/-- A sheet begins. -/
def Block.startSheet (b : Block) (e : Env) (r : SheetReq) : Block :=
  let b := b.setObs { b.obs with sheet := some r }
  if r.stop then b.drainScope e r.scope else b

/-- A trigger (R406): served by the sheet being taken when its scope lies within that one's. -/
def Block.askSheet (b : Block) (e : Env) (r : SheetReq) : Block :=
  match b.obs.sheet with
  | none => b.startSheet e r
  | some s =>
    let within := bit s.scope 8 || (!bit r.scope 8 && decide (r.scope % 256 &&& s.scope % 256 = r.scope % 256))
    if !within then b.setObs { b.obs with waiting := b.obs.waiting ++ [r] }
    else if r.trigger = 1 then b
    else (b.setObs { b.obs with after := b.obs.after ++ [r] }).drainScope e r.scope

/-- OBS_CS_REQ. -/
def Block.doCsReq (b : Block) (e : Env) (scope : Nat) (stop : Bool) : Block :=
  b.askSheet e { trigger := 1, scope := scope % 512, stop := stop, tick := e.clk.now, queue := 0, seq := 0 }

/-- The states of the regions of a scope. -/
def Block.scopeStates (b : Block) (scope : Nat) : List SeqState :=
  (scopeParts scope).flatMap (fun (p : Fin 8) => (b.liveRegions p).map (fun i => (b.region ⟨p, i⟩).state))

def stillState (s : SeqState) : Bool := s = .stopped || s = .breakpoint || s = .halted

/-- The 64 B header of a sheet. -/
def Block.sheetHeader (b : Block) (e : Env) (r : SheetReq) : List Byte :=
  let st := b.scopeStates r.scope
  leBytes 4 0x43534831 ++ leBytes 1 1 ++ leBytes 1 r.trigger ++ leBytes 1 (if bit r.scope 8 then 0xFF else r.scope % 256)
    ++ leBytes 1 (b2n r.stop) ++ leBytes 8 r.tick ++ leBytes 8 e.clk.now ++ leBytes 2 r.queue ++ zeros 6 ++ leBytes 8 r.seq
    ++ leBytes 2 (st.filter stillState).length ++ leBytes 2 (st.filter (fun s => !stillState s && s ≠ .idle)).length ++ zeros 4
    ++ leBytes 4 (b.freeWord 0) ++ leBytes 4 (b.freeWord 1) ++ leBytes 4 b.waitingWord ++ zeros 4

/-- The ms since the next command of a queue reached its edges. -/
def Block.waitedMs (b : Block) (e : Env) (x : Queue) : Nat :=
  match nextUp x.running with
  | none => 0
  | some r => if r.due = 0 then 0 else (e.clk.now + (b.deadline e x r.desc - e.clk.now) - r.due) / 1000

/-- What the queue section records of a queue. -/
def Block.queueValues (b : Block) (e : Env) (x : Queue) : List Nat :=
  let d := (x.running.head?).map (fun r => r.desc)
  [x.ctlWord, x.submitted, x.completed, x.statusWord, x.abnd] ++ (match d with
    | some d => [d.opc, d.flags, d.deadline, d.waitSo, d.sigSo, d.waitVal] ++ d.deps.flatMap (fun p => [p.1, p.2]) ++ [d.arg, d.imm]
    | none => []) ++ [b.waitedMs e x]

/-- The queue that an engine record describes: the one served, or the first that waits on it. -/
def Block.engineQueue (b : Block) (en : Nat) : Option Nat :=
  ((b.engine en).serving).orElse (fun _ =>
    (b.fe.queues.find? (fun q => decide (q.2.engine = en) && q.2.enable && (nextUp q.2.running).isSome)).map Prod.fst)

/-- The wait kind of a queue's engine and what it waits on. -/
def Block.waitOf (b : Block) (q : Nat) : Nat × List Nat :=
  let x := b.queue q
  match nextUp x.running with
  | none =>
    if x.active.any (fun r => decide (r.desc.opc = 5)) then (5, []) else (0, [])
  | some r =>
    let d := r.desc
    if r.phase = .edge then
      match d.deps.find? (fun p => p.2 ≠ 0 && !(b.queue p.1).satisfies p.2) with
      | some p => (1, [p.1, p.2])
      | none => (0, [])
    else if d.acq then (3, [d.waitObj, (b.obj d.waitObj).holder])
    else (2, [d.waitObj, (b.obj d.waitObj).val, d.waitVal])

def Block.engineByte (b : Block) (e : Env) (scope en off k : Nat) : Byte :=
  match b.engineQueue en with
  | none => 0
  | some q =>
    let x := b.queue q
    if !inScope scope x.part then 0
    else
      let w := b.waitOf q
      if k < 8 then Config.sheetByte off [x.state, q, ((x.running.head?).map (fun r => r.seq)).getD 0]
      else if k = 8 then BitVec.ofNat 8 w.1
      else if 16 ≤ k && k < 32 then Config.sheetByte off w.2
      else if 32 ≤ k && k < 40 then (leBytes 8 (b.waitedMs e x)).getD (k - 32) 0
      else 0

/-- The 16 B of a sync object and of a guard slot. -/
def Block.objBytes (b : Block) (n : Nat) : List Byte := leBytes 8 (b.obj n).pair ++ leBytes 4 (b.synCtl n) ++ zeros 4
def Block.slotBytes (b : Block) (k : Nat) : List Byte :=
  leBytes 8 (b.slot k).base ++ leBytes 4 (b.slot k).lenWord ++ leBytes 4 (b.slot k).objWord

/-- The 4 B of a frame descriptor. -/
def Frame.word (f : Frame) : Nat := field f.state 2 30 + field f.part 4 26 + field f.owner 16 0

/-- What a port record holds. -/
def Block.portValues (b : Block) (n : Nat) : List Nat :=
  let p := b.port n
  [b.clWord n 0] ++ (List.range 8).map (fun k => mget 0 p.credits k) ++ (List.range 8).map (fun k => mget 0 p.owed k)
    ++ [p.replay.length, p.tx.length, p.rx.length]

/-- What a cluster record holds. -/
def Block.clusterValues (b : Block) (cx cy : Nat) : List Nat :=
  let c := b.cluster cx cy
  let r := b.clusterRegion cx cy
  [b.cluCtl cx cy, r.pc, b.cluWalk cx cy 0, b.cluWalk cx cy 1, b.cluWalk cx cy 2]
    ++ (List.range 8).map (fun k => mget 0 r.ctrs k) ++ (List.range 8).map (fun k => b2n (r.cmp k))
    ++ (List.range 16).map (fun k => mget 0 c.areg k)
    ++ (List.range 4).flatMap (fun k =>
      let s := c.chan k
      [s.queue.length, ((s.queue.head?).map (fun f => f.served)).getD 0, s.held.length, s.credit])
    ++ (List.range 9).map (fun k => mget 0 c.counters (0x100 + 8 * k)) ++ [r.frozenCause]

/-- Byte `off` of the slot's first 3 MiB. -/
def Block.sheetByte (b : Block) (e : Env) (r : SheetReq) (off : Nat) : Byte :=
  let at_ (base size : Nat) : Nat × Nat := ((off - base) / size, (off - base) % size)
  if off < 0x1000 then (b.sheetHeader e r).getD off 0
  else if off < 0x5000 then
    let q := b.queue (at_ 0x1000 64).1
    if inScope r.scope q.part then Config.sheetByte off (b.queueValues e q) else 0
  else if off < 0x25000 then (b.objBytes (at_ 0x5000 16).1).getD (at_ 0x5000 16).2 0
  else if off < 0x25400 then (b.slotBytes (at_ 0x25000 16).1).getD (at_ 0x25000 16).2 0
  else if off < 0x26000 then Config.sheetByte off ((List.range 64).map (fun k => (b.slot k).staged.length))
  else if off < 0x27800 then b.engineByte e r.scope (at_ 0x26000 128).1 off (at_ 0x26000 128).2
  else if off < 0x28000 then 0
  else if off < 0x68000 then (leBytes 4 (b.frame (at_ 0x28000 4).1).word).getD (at_ 0x28000 4).2 0
  else if off < 0x6C800 then Config.sheetByte off (b.portValues (at_ 0x68000 512).1)
  else if off < 0x70000 then 0
  else if off < 0x71800 then
    Config.sheetByte off ([b.colWord (at_ 0x70000 1024).1 0] ++ (List.range 8).map (fun p => b.colWord (at_ 0x70000 1024).1 (0x10 + 4 * p)))
  else if off < 0x80000 then 0
  else
    let i := (at_ 0x80000 512).1
    let k := clusterOf (i / 640) (i % 640)
    if inScope r.scope (b.partOfPlate (i / 640)) then Config.sheetByte off (b.clusterValues k.1 k.2) else 0

/-- Writes a sheet into a slot: 3 MiB of sections, the rest zero. -/
def Block.writeSheet (b : Block) (e : Env) (r : SheetReq) (slot : Nat) : Block :=
  let a := sheetAddr slot
  let inside (x : Nat) : Bool := decide (a ≤ x) && decide (x < a + 0x2000000)
  let bytes := b.mem.bytes.filter (fun x => !inside x.1)
  { b with mem := { b.mem with
      bytes := (List.range 0x300000).foldl (fun m off => mset 0 m (a + off) (b.sheetByte e r off)) bytes
      poison := b.mem.poison.filter (fun x => !inside (64 * x.1)) } }

/-- The first slot in rotation that is not kept. -/
def Observe.freeSlot (x : Observe) : Option Nat :=
  ((List.range 8).map (fun i => (x.nextSlot + i) % 8)).find? (fun k => !bit x.keep k)

/-- A partition's regions stay stopped for another reason: a breakpoint, or a time slice that is over. -/
def Block.heldStopped (b : Block) (p : Nat) : Bool :=
  decide (mget 0 b.obs.bpFrom p ≠ 0) || (b.engine (mget ({} : Part) b.fe.parts p).first).sliceOver

/-- The regions that a host's sheet stopped go on; `cycles` is how long they stood. -/
def Block.resumeScope (b : Block) (scope cycles : Nat) : Block :=
  (scopeParts scope).foldl (fun b (p : Fin 8) =>
    if b.heldStopped p then b
    else (b.liveRegions p).foldl (fun b i =>
      (b.modRegion ⟨p, i⟩ (fun x => { x with drain := false })).doResumeStop ⟨p, i⟩ cycles) b) b

/-- What follows a deadline's sheet (R316): the partition's reset, a job fault where it holds a job; for PF0, GE and ME a retained
reset. -/
def Block.afterDeadline (b : Block) (e : Env) (r : SheetReq) : Block :=
  if bit r.scope 8 then (b.bumpFe 0x818 1).retainedReset e 3
  else
    (scopeParts r.scope).foldl (fun b (p : Fin 8) => (b.partitionReset e p 3).jobFaultWith e p 4 false) b

/-- The partition of a sheet's record. -/
def sheetPart (scope : Nat) : Nat :=
  match scopeParts scope with
  | [p] => p
  | _ => 15

/-- CONTACT_SHEET: the sheet being taken is written, or dropped when every slot is kept; then what its triggers ask for follows and
the next sheet begins. -/
def Block.doContactSheet (b : Block) (e : Env) (cycles : Nat) : Block :=
  match b.obs.sheet with
  | none => b
  | some r =>
    let running := ((b.scopeStates r.scope).filter (fun s => !stillState s && s ≠ .idle)).length
    let b := match b.obs.freeSlot with
      | some k =>
        let b := (b.writeSheet e r k).bumpObs 0x400 1
        (b.setObs { b.obs with lastSlot := k, nextSlot := (k + 1) % 8 }).obsEvent e 0x101 1 (sheetPart r.scope) k
          [(25, 1, r.trigger), (28, 2, running)]
      | none => (b.bumpObs 0x408 1).obsEvent e 0x102 1 (sheetPart r.scope) 0 [(25, 1, r.trigger)]
    let due := (if r.trigger = 0 then [r] else []) ++ b.obs.after
    let next := b.obs.waiting
    let b := b.setObs { b.obs with sheet := none, after := [], waiting := next.drop 1 }
    let b := if r.trigger = 1 && r.stop then b.resumeScope r.scope cycles else b
    let b := due.foldl (fun b d => b.afterDeadline e d) b
    match next with
    | [] => b
    | n :: _ => b.startSheet e n

/-! ## Deadlines (R315, R316) -/

/-- Whether the deadlines of a queue run now. -/
def Block.deadlinesRun (b : Block) (x : Queue) : Bool :=
  decide (x.pausedAt = 0) && decide (b.clk.pstate ≠ 2) && decide (mget 0 b.obs.bpFrom x.part = 0)

/-- The command of a queue whose deadline comes first. -/
def Queue.firstDue (x : Queue) : Option Running :=
  (x.running.filter (fun r => r.due ≠ 0 && r.phase ≠ .finished && r.phase ≠ .abandoned)).foldl (fun best r =>
    match best with
    | none => some r
    | some s => if r.due < s.due then some r else some s) none

/-- The campus tick at which a queue's next deadline expires: the first millisecond tick at or after it. -/
def Block.deadlineDue (b : Block) (q : Nat) : Option Nat :=
  let x := b.queue q
  if b.deadlinesRun x then x.firstDue.map (fun r => ceilDiv r.due 1000 * 1000) else none

/-- DEADLINE_EXPIRY. -/
def Block.doDeadline (b : Block) (e : Env) (q : Nat) : Block :=
  let x := b.queue q
  match (if b.deadlinesRun x then x.firstDue else none) with
  | none => b
  | some r =>
    if e.clk.now < r.due then b
    else
      let wide := decide (8 ≤ x.part) || decide (46 ≤ x.engine)
      let b := (b.bumpFe 0x810 1).queueEvent e q 3 2 r.seq [(25, 1, x.engine), (26, 1, b2n wide)]
      let b := b.abandonCmd e q r.seq
      b.askSheet e { trigger := 0, scope := if wide then 256 else 2 ^ x.part, stop := true, tick := e.clk.now, queue := q, seq := r.seq }

/-- When a partition's reset by a deadline is overdue. -/
def Block.hangDue (b : Block) (p : Nat) : Option Nat :=
  match mget none b.clk.parts p with
  | some run => if run.trigger = 3 then some (run.since + 10000) else none
  | none => none

/-- HANG_ESCALATION: the partition is not idle 10 ms after the reset began. -/
def Block.doHang (b : Block) (e : Env) (p : Nat) : Block :=
  match b.hangDue p with
  | none => b
  | some t => if e.clk.now < t then b else (b.bumpFe 0x818 1).retainedReset e 3

/-! ## Breakpoints (R408) -/

/-- Why arming a unit is refused; 0: it is not. -/
def Block.armRefusal (b : Block) (u : BpUnit) : Nat :=
  if 8 ≤ u.part then 3
  else if 1 < (b.gen u.part).job.devices.length then 1
  else if !b.holdsPlate u.part u.plate || 640 ≤ u.cluster then 2
  else 0

/-- OBS_BP_ARM: a write of OBS_BPu_CTL. -/
def Block.doBpArm (b : Block) (k : Nat) (arm scope : Bool) (part plate cluster pc : Nat) : Block :=
  let u : BpUnit := { b.bp k with arm := arm, scope := scope, part := part, plate := plate, cluster := cluster, pc := pc }
  if !arm then b.setBp k { u with state := 0, reason := 0 }
  else
    let c := b.armRefusal u
    if c = 0 then b.setBp k { u with state := 1, reason := 0, hits := 0 } else b.setBp k { u with state := 5, reason := c }

/-- The deadlines of a partition's commands go on. -/
def Block.extendDeadlines (b : Block) (p d : Nat) : Block :=
  { b with fe := { b.fe with queues := b.fe.queues.map (fun q =>
      (q.1, if q.2.part = p then
          { q.2 with running := q.2.running.map (fun r => if r.due = 0 then r else { r with due := r.due + d }) }
        else q.2)) } }

/-- A partition's stopped regions go on, its units are armed anew, a drain request of a slice that is over is served. -/
def Block.resumePart (b : Block) (e : Env) (p : Fin 8) (cycles : Nat) : Block :=
  let b := (b.liveRegions p).foldl (fun b i => b.doResumeStop ⟨p, i⟩ cycles) b
  let b := (List.range 16).foldl (fun b k =>
    let u := b.bp k
    if u.part = p.val && u.state = 3 then b.setBp k { u with state := 1, hits := 0 } else b) b
  let since := mget 0 b.obs.bpFrom p
  let b := if since = 0 then b else b.extendDeadlines p (e.clk.now + 1 - since)
  let b := b.setObs { b.obs with bpFrom := mset 0 b.obs.bpFrom p 0 }
  if (b.engine (mget ({} : Part) b.fe.parts p).first).sliceOver then b.requestDrainAll p else b

/-- OBS_BP_RESUME: bit i names partition i. -/
def Block.doBpResume (b : Block) (e : Env) (mask cycles : Nat) : Block :=
  (List.finRange 8).foldl (fun b (p : Fin 8) => if bit mask p then b.resumePart e p cycles else b) b

/-! ## The OBS registers (R410) -/

def Block.writeObs (b : Block) (e : Env) (o v : Nat) : Block :=
  let x := b.obs
  let t := x.trace
  match o with
  | 0x004 => b.setObs { x with mirror := v % 16 }
  | 0x008 => b.setObs { x with cellPlate := bits v 18 16, cellCluster := if 640 ≤ v % 1024 then 0 else v % 1024 }
  | 0x00C => b.setObs { x with sheetSlot := v % 8, sheetOff := bits v 10 8 }
  | 0x010 => b.setObs { x with keep := v % 256 }
  | 0x014 => b.doCsReq e (v % 512) (bit v 31)
  | 0x018 => if bit v 31 then b.doSnapReq e (bits v 15 8) (bit v 1) (bit v 0) else b
  | 0x040 =>
    let en := bit v 31
    b.setTrace { t with en := en, wrap := bit v 30, src := v % 64, on := en && (t.on || !t.startEn) }
  | 0x044 => b.setTrace { t with plate := bits v 18 16, cluster := bits v 15 6, port := v % 64 }
  | 0x048 => b.setTrace { t with stopEn := bit v 31, startEn := bit v 30, cls := bits v 19 16, code := v % 65536 }
  | 0x200 => b.doBpResume e (v % 256) 0
  | _ =>
    if 0x100 ≤ o && o < 0x200 then
      let k := (o - 0x100) / 16
      match o % 16 with
      | 0 => b.doBpArm k (bit v 31) (bit v 30) (bits v 29 26) (bits v 25 23) (bits v 22 13) (v % 2048)
      | 4 => b.setBp k { b.bp k with n := v % 2 ^ 24 }
      | _ => b
    else b

/-- A write to BAR2 of PF0: the OBS registers, OBS_SNAP_TICK with its _HI word. -/
def Block.writeBar2 (b : Block) (e : Env) (o v : Nat) : Block :=
  let lo := o / 8 * 8
  let k := 0x80000000 + lo
  if 0x10000 ≤ o then b
  else if lo = 0x020 then
    let b := b.setLatch 1 k 0
    if o = lo then { b with loWrites := mset 0 b.loWrites k (v + 1) }
    else
      let l := mget 0 b.loWrites k
      let b : Block := { b with loWrites := mset 0 b.loWrites k 0 }
      b.setObs { b.obs with snapTick := v * 2 ^ 32 + (if l = 0 then low32 b.obs.snapTick else l - 1) }
  else b.writeObs e o v

/-- REGISTER_WRITE: a word written through BAR0 of a function, or through the observation window, which PF0 alone has. -/
def Block.doRegWrite (b : Block) (e : Env) (f : Nat) (obs : Bool) (o v : Nat) : Block :=
  let a := o / 4 * 4
  let v := v % 2 ^ 32
  if obs then (if f = 0 && b.boot.stage = 6 then b.writeBar2 e (a % 0x1000000) v else b)
  else b.writeBar0 e f (if f = 0 then a % 0x4000000 else a % 0x100000) v

end Sys2Proof.Machine
end

