-- ==== Sys2Proof/Machine/State.lean ====
section
/-! DEFINITION. The state of the machine, what stops it, and reset. -/
namespace Sys2Proof.Machine

/-- The module: campus time (R179), CUR_GEN of each partition's generational regions (R17, R177), everything else, and the
commands that wait, first in, first out. -/
structure State where
  time : Clock
  cur : SMap Nat
  blk : Block
  pending : List Instr
deriving DecidableEq, Repr

/-- Why the machine stops. -/
inductive Fault where
  /-- Raised by POWER_SAMPLE alone (R432): the module input is above 72 V or 200 A, beyond its absolute maximum ratings, where
  the rule promises no behaviour. Safe: the model claims nothing of a module beyond its ratings. -/
  | absoluteMaximum
deriving DecidableEq, Repr

/-- Why a command is refused. -/
inductive Refusal where
  /-- Raised by an arm of `exec` without a meaning; no arm is left that raises it. Safe: the machine stops. -/
  | notModelled (mnemonic : String)
deriving DecidableEq, Repr

/-- The module right after reset, before its cold start: every register at its COLD value, memory and buffers empty, flash as
shipped, no command waiting. -/
def State.reset : State := { time := {}, cur := [], blk := {}, pending := [] }

end Sys2Proof.Machine
end

