-- ==== Sys2Proof/Machine/Exec.lean ====
section
/-! DEFINITION. How a command reaches the block: what must be up for it, and the campus time at which it takes effect. -/
namespace Sys2Proof.Machine

/-- What a command answers. -/
abbrev Answer := Host.Outcome State Fault Refusal

/-- What an effect may read beside the block. -/
def State.env (s : State) : Env := { clk := s.time, tstate := s.blk.tim.tstate, cur := s.cur }

/-- Changes the block, whatever its supply. -/
def State.always (s : State) (f : Block → Block) : State := { s with blk := f s.blk }

/-- Changes the block of a module that is powered and out of RESET_N. -/
def State.onBlock (s : State) (f : Env → Block → Block) : State :=
  if s.blk.module.up then { s with blk := f s.env s.blk } else s

/-- Changes the block and the current generations. -/
def State.onCur (s : State) (f : Env → Block → Block × SMap Nat) : State :=
  if s.blk.module.up then { s with blk := (f s.env s.blk).1, cur := (f s.env s.blk).2 } else s

/-- Changes the block and the current generation of partition `p`. -/
def State.onPart (s : State) (p : Nat) (f : Env → Block → Block × Nat) : State :=
  s.onCur (fun e b => ((f e b).1, mset 0 e.cur p (f e b).2))

/-- A register write through PCIe: dropped before step 6 and during a retained reset (R299, R339). -/
def State.onHost (s : State) (f : Env → Block → Block) : State := s.onBlock (fun e b => if b.barUp then f e b else b)

/-- A write of the observation path, which a retained reset leaves up (R400). -/
def State.onObs (s : State) (f : Env → Block → Block) : State := s.onBlock (fun e b => if b.boot.stage = 6 then f e b else b)

/-- The TAP works while the module has power (R419). -/
def State.onTap (s : State) (f : Block → Block) : State := if s.blk.module.powered then s.always f else s

/-- The domain of a port's direction (R359); port 36 stands for the device itself. -/
def portDom (n : Nat) : Nat := 80 + portDir n

/-- Whether what arrives on port `n` crosses into the hub: its direction's domain runs. -/
def Block.crosses (b : Block) (n : Nat) : Bool := decide (36 ≤ n) || decide ((b.dom (portDom n)).state = 0)

/-- A word that reaches the guard of a domain that does not run: dropped and counted (R365). -/
def Block.guardDrop (b : Block) (d : Nat) : Block :=
  b.setDom d { b.dom d with drops := sat48 (b.dom d).drops 1, dropsNew := (b.dom d).dropsNew + 1 }

/-- What arrives on port `n`. -/
def State.onCrossing (s : State) (n : Nat) (f : Env → Block → Block) : State :=
  s.onBlock (fun e b => if b.crosses n then f e b else b.guardDrop (portDom n))

/-- What port `n` does itself, while its direction's domain runs. -/
def State.onLive (s : State) (n : Nat) (f : Env → Block → Block) : State :=
  s.onBlock (fun e b => if b.crosses n then f e b else b)

/-! ## Campus time -/

/-- Campus time reaches `t`, unless it is past it. -/
def State.advanceTo (s : State) (t : Nat) : State :=
  if s.time.now < t then
    { s with time := { now := t, frac := 0 }, blk := if s.blk.module.up then s.blk.elapse s.time.now t else s.blk }
  else s

/-- A command that stands for a timed event: campus time reaches the moment when the event is due. -/
def State.eventAt (s : State) (due : Option Nat) : State :=
  match due with
  | none => s
  | some t => s.advanceTo t

/-- A tick-scheduled event (R183): one whose tick has passed is counted late. -/
def State.scheduled (s : State) (due : Option Nat) : State :=
  match due with
  | none => s
  | some t => if t < s.time.now then s.onBlock (fun e b => b.lateTick e t) else s.advanceTo t

/-- The next multiple of `period` µs that has not passed. -/
def State.slot (s : State) (period : Nat) : Nat := ceilDiv s.time.now period * period

/-- The millisecond tick after this one. -/
def State.nextMs (s : State) : Nat := (s.time.now / 1000 + 1) * 1000

/-- A campus tick in which no command is at work. -/
def State.idleTick (s : State) : State := s.advanceTo (s.time.now + 1)

/-! ## Synchronisation, samples, cold start -/

/-- What follows when the timebase leaves TSTATE 0 or 1, where it was in `was` (R184). -/
def State.woken (s : State) (was : Nat) : State := s.onCur (fun e b => b.wake e was)

/-- PTP_SYNC: the count steps where R182 lets it. -/
def State.ptpSync (s : State) (us frac : Nat) : State :=
  let t := s.onBlock (fun e b => b.doPtpSync e us frac)
  let t : State := if s.blk.module.up && s.blk.syncSteps s.time us frac then { t with time := { now := us, frac := frac } } else t
  t.woken s.blk.tim.tstate

/-- CT_MS_EDGE, at the moment that the edge marks. -/
def State.ctMsEdge (s : State) (dev dis : Int) : State :=
  ((s.eventAt (some (s.blk.tim.edgeAt s.time.now))).onBlock (fun e b => b.doCtMsEdge e dev dis)).woken s.blk.tim.tstate

/-- THERMAL_SAMPLE: sensors are read while the module has power, also after a trip (R428, R431). -/
def State.thermalSample (s : State) (readings : List Reading) : State :=
  let s := s.eventAt (some (s.slot 100))
  if s.blk.module.powered then { s with blk := s.blk.doThermalSample s.env readings } else s

/-- COLD_RESET: campus time starts at 0, and step 6 ends `ms` milliseconds later. Without power, or while a trip holds, only the
pin is high again. -/
def State.coldReset (s : State) (f : BootFinds) : State :=
  if s.blk.mayStart then
    let e : Env := { clk := {}, tstate := 0, cur := [] }
    let done : Env := { clk := { now := 1000 * f.ms }, tstate := 1, cur := [] }
    { s with time := done.clk, cur := [], blk := s.blk.coldStart e done f }
  else s.always (fun b => b.setModule { b.module with resetLow := false })

end Sys2Proof.Machine
end

