-- ==== Sys2Proof/Machine/ExecCache.lean ====
section
/-! DEFINITION. Meanings: shared cache and frames (R233 to R244). -/
namespace Sys2Proof.Machine

/-- WRITE (R233). Plain store at the home slice. -/
def execWrite (q : Asker) (cmpr : Bool) (a : Fin (2 ^ 48)) (bs : List (Byte × Bool)) (s : State) : Answer :=
  .next (s.onBlock (fun e b => b.doWrite e q cmpr a bs))

/-- WSET (R234). Sets an ACC96 word of an exact region and its side state from the operand. -/
def execWset (q : Asker) (fmt : Fin 32) (ex : Int) (a : Fin (2 ^ 48)) (bs : List (Byte × Bool)) (s : State) : Answer :=
  .next (s.onBlock (fun e b => b.doWset e q fmt ex a bs))

/-- WADD (R235). Adds the operand exactly into an ACC96 word and merges side state. -/
def execWadd (q : Asker) (fmt : Fin 32) (ex : Int) (a : Fin (2 ^ 48)) (bs : List (Byte × Bool)) (s : State) : Answer :=
  .next (s.onBlock (fun e b => b.doWadd e q fmt ex a bs))

/-- IADD32 (R233). 32-bit integer atomic add at the home slice. -/
def execIadd32 (q : Asker) (a : Fin (2 ^ 48)) (bs : List (Byte × Bool)) (s : State) : Answer :=
  .next (s.onBlock (fun e b => b.doIntRop e q 3 a bs))

/-- IADD64 (R233). 64-bit integer atomic add at the home slice. -/
def execIadd64 (q : Asker) (a : Fin (2 ^ 48)) (bs : List (Byte × Bool)) (s : State) : Answer :=
  .next (s.onBlock (fun e b => b.doIntRop e q 4 a bs))

/-- SMAX64 (R233). Signed 64-bit atomic maximum. -/
def execSmax64 (q : Asker) (a : Fin (2 ^ 48)) (bs : List (Byte × Bool)) (s : State) : Answer :=
  .next (s.onBlock (fun e b => b.doIntRop e q 5 a bs))

/-- SMIN64 (R233). Signed 64-bit atomic minimum. -/
def execSmin64 (q : Asker) (a : Fin (2 ^ 48)) (bs : List (Byte × Bool)) (s : State) : Answer :=
  .next (s.onBlock (fun e b => b.doIntRop e q 6 a bs))

/-- UMAX64 (R233). Unsigned 64-bit atomic maximum. -/
def execUmax64 (q : Asker) (a : Fin (2 ^ 48)) (bs : List (Byte × Bool)) (s : State) : Answer :=
  .next (s.onBlock (fun e b => b.doIntRop e q 7 a bs))

/-- UMIN64 (R233). Unsigned 64-bit atomic minimum. -/
def execUmin64 (q : Asker) (a : Fin (2 ^ 48)) (bs : List (Byte × Bool)) (s : State) : Answer :=
  .next (s.onBlock (fun e b => b.doIntRop e q 8 a bs))

/-- FMAX (R233). FP32 or BF16 atomic maximum. -/
def execFmax (q : Asker) (fmt : Fin 32) (a : Fin (2 ^ 48)) (bs : List (Byte × Bool)) (s : State) : Answer :=
  .next (s.onBlock (fun e b => b.doFmax e q fmt a bs))

/-- FMIN (R233). FP32 or BF16 atomic minimum. -/
def execFmin (q : Asker) (fmt : Fin 32) (a : Fin (2 ^ 48)) (bs : List (Byte × Bool)) (s : State) : Answer :=
  .next (s.onBlock (fun e b => b.doFmin e q fmt a bs))

/-- FADD (R237). Order-dependent IEEE atomic add at the slice, reported to the generation unit. -/
def execFadd (q : Asker) (fmt : Fin 32) (a : Fin (2 ^ 48)) (bs : List (Byte × Bool)) (s : State) : Answer :=
  .next (s.onBlock (fun e b => b.doFadd e q fmt a bs))

/-- GV4ADD (R237). Places the line in M and forwards an FP32 add to the memory controller, if GV4_EN permits. -/
def execGv4add (q : Asker) (fmt : Fin 32) (a : Fin (2 ^ 48)) (bs : List (Byte × Bool)) (s : State) : Answer :=
  .next (s.onBlock (fun e b => b.doGv4add e q fmt a bs))

/-- GV4ADD_DONE (R237). The controller writes the GV4ADD sum and the line returns to I. -/
def execGv4addDone (s : State) : Answer := .next (s.onBlock (fun e b => b.doGv4Done e))

/-- ALLOC (R243). The allocator chooses one pending request by rotation and grants a frame, forwards it or answers
pool empty. -/
def execAlloc (hub : Fin 2) (reqs : List (Fin 65536 × Fin 16)) (s : State) : Answer :=
  .next (s.onBlock (fun _ b => b.doAlloc hub (reqs.map (fun r => (r.1.val, r.2.val)))))

/-- FORWARDED_ALLOC (R243). A forwarded ALLOC reaches the other hub's allocator and competes in its rotation. -/
def execForwardedAlloc (hub : Fin 2) (s : State) : Answer := .next (s.onBlock (fun _ b => b.doForwarded hub))

/-- POOL_EMPTY_ANSWER (R243). A pool-empty answer reaches its requester, which waits on the non-empty credit. -/
def execPoolEmptyAnswer (hub : Fin 2) (s : State) : Answer := .next (s.onBlock (fun _ b => b.doPoolEmpty hub))

/-- CREDIT_REENTRY (R243). The pool credit rises and a waiting requester re-enters its home allocator's rotation. -/
def execCreditReentry (hub : Fin 2) (s : State) : Answer := .next (s.onBlock (fun _ b => b.doReentry hub))

/-- FREE (R241). Returns a frame to zeroing, or is refused or ignored after the owner check. -/
def execFree (id : Fin 65536) (part : Fin 16) (frame : Fin 65536) (s : State) : Answer :=
  .next (s.onBlock (fun e b => b.doFree e id part frame))

/-- GIVE (R241). Re-tags an allocated frame to a new owner, or is refused or ignored. -/
def execGive (id : Fin 65536) (part : Fin 16) (frame : Fin 65536) (newId : Fin 65536) (newPart : Fin 16) (s : State) : Answer :=
  .next (s.onBlock (fun e b => b.doGive e id part frame newId newPart))

/-- FRAME_ZEROING_DONE (R240). A freed frame finishes zeroing and rejoins its hub's free list. -/
def execFrameZeroingDone (frame : Fin 65536) (s : State) : Answer := .next (s.onBlock (fun _ b => b.doZeroed frame))

/-- FRAMES_RECLAIMED (R244). Both allocators finish sweeping a partition's frames and the reclaim is reported. -/
def execFramesReclaimed (p : Fin 8) (s : State) : Answer := .next (s.onBlock (fun e b => b.doReclaimed e p))

/-- SHC_FQ_MIN (R242). PF0 write of a partition's guaranteed frame share, refused if it breaks the quota condition. -/
def execShcFqMin (i : Fin 9) (n : Fin (2 ^ 32)) (s : State) : Answer := .next (s.onHost (fun e b => b.doFqMin e i n))

/-- SHC_FQ_MAX (R242). PF0 write of a partition's frame ceiling. -/
def execShcFqMax (i : Fin 9) (n : Fin (2 ^ 32)) (s : State) : Answer := .next (s.onHost (fun _ b => b.doFqMax i n))

end Sys2Proof.Machine
end

