-- ==== Sys2Proof/Machine/ExecCell.lean ====
section
/-! DEFINITION. Meanings: the cell operations (R60, R67 to R86, R386, R437). -/
namespace Sys2Proof.Machine

/-- OP_NOP (R67). Cell op-table operation that does nothing, also issued for entries with VALID clear. -/
def execOpNop (x : Fin 640) (y : Fin 512) (s : State) : Answer := .next (s.onBlock (fun _ b => b.doOpNop x y))

/-- MMA (R70). Cell performs one matrix pass, adding exact products into the accumulator window. -/
def execMma (x : Fin 640) (y : Fin 512) (fog : Option Nat) (s : State) : Answer :=
  .next (s.onBlock (fun e b => b.doMma e x y fog))

/-- SPILL_COMPLETE (R76). The background spill drain finishes adding the captured values into the ACC96 words. -/
def execSpillComplete (x : Fin 640) (y : Fin 512) (s : State) : Answer :=
  .next (s.onBlock (fun e b => b.doSpillComplete e x y))

/-- OVERFLOW_REPLAY_RESTART (R77). After 32 executed cycles, frozen regions clear the group and restart it from its
first pass at E+8. -/
def execOverflowReplayRestart (r : RegionId) (s : State) : Answer := .next (s.onBlock (fun _ b => b.doReplayRestart r))

/-- DRAIN (R81). Merges spill words and entries, applies the epilogue and scale, rounds once and writes the output. -/
def execDrain (x : Fin 640) (y : Fin 512) (fog : Option Nat) (crowded : Bool) (s : State) : Answer :=
  .next (s.onBlock (fun e b => b.doDrain e x y fog crowded))

/-- BRACKET_RECORD_WRITE (R386). A sampled group writes its bracket record into pool frames in unused port cycles, or
is skipped. -/
def execBracketRecordWrite (x : Fin 640) (y : Fin 512) (free : Bool) (s : State) : Answer :=
  .next (s.onBlock (fun e b => b.doBracketRecord e x y free))

/-- CHAIN (R80). Receives ACC96 running sums, adds its own totals and passes them on along the chain. -/
def execChain (x : Fin 640) (y : Fin 512) (fog : Option Nat) (s : State) : Answer :=
  .next (s.onBlock (fun e b => b.doChain e x y fog))

/-- SAVE (R86). Saves the cell state record into the plate's context-save area at a drain point. -/
def execSave (x : Fin 640) (y : Fin 512) (s : State) : Answer := .next (s.onBlock (fun e b => b.doSave e x y))

/-- RESTORE (R86). Restores the cell state record and recomputes the residues. -/
def execRestore (x : Fin 640) (y : Fin 512) (s : State) : Answer := .next (s.onBlock (fun e b => b.doRestore e x y))

/-- ACLR (R67). Sets Mc × 8 accumulator entries to +0, finite and not poisoned. -/
def execAclr (x : Fin 640) (y : Fin 512) (s : State) : Answer := .next (s.onBlock (fun e b => b.doAclr e x y))

/-- VLD (R83). Loads 16 elements into a vector register, converting to FP32. -/
def execVld (x : Fin 640) (y : Fin 512) (crowded : Bool) (s : State) : Answer :=
  .next (s.onBlock (fun e b => b.doVld e x y crowded))

/-- VST (R83). Stores a vector register in the output format with one rounding. -/
def execVst (x : Fin 640) (y : Fin 512) (crowded : Bool) (s : State) : Answer :=
  .next (s.onBlock (fun e b => b.doVst e x y crowded))

/-- VADD (R83). Lanewise FP32 addition rounded by RNE. -/
def execVadd (x : Fin 640) (y : Fin 512) (s : State) : Answer := .next (s.onBlock (fun e b => b.doVadd e x y))

/-- VSUB (R83). Lanewise FP32 subtraction rounded by RNE. -/
def execVsub (x : Fin 640) (y : Fin 512) (s : State) : Answer := .next (s.onBlock (fun e b => b.doVsub e x y))

/-- VMUL (R83). Lanewise FP32 multiplication rounded by RNE. -/
def execVmul (x : Fin 640) (y : Fin 512) (s : State) : Answer := .next (s.onBlock (fun e b => b.doVmul e x y))

/-- VFMA (R83). Lanewise fused multiply-add VA·VB + VC rounded by RNE. -/
def execVfma (x : Fin 640) (y : Fin 512) (s : State) : Answer := .next (s.onBlock (fun e b => b.doVfma e x y))

/-- VMAX (R437). Lanewise maximum with canonical NaN and −0 below +0. -/
def execVmax (x : Fin 640) (y : Fin 512) (s : State) : Answer := .next (s.onBlock (fun e b => b.doVmax e x y))

/-- VMIN (R437). Lanewise minimum by the same rules. -/
def execVmin (x : Fin 640) (y : Fin 512) (s : State) : Answer := .next (s.onBlock (fun e b => b.doVmin e x y))

/-- VCMPGT (R437). Writes 1.0 where VA > VB and +0 otherwise. -/
def execVcmpgt (x : Fin 640) (y : Fin 512) (s : State) : Answer := .next (s.onBlock (fun e b => b.doVcmpgt e x y))

/-- VCVT (R437). Rounds lanes into a format as a VST would and returns the stored value as FP32. -/
def execVcvt (x : Fin 640) (y : Fin 512) (s : State) : Answer := .next (s.onBlock (fun e b => b.doVcvt e x y))

/-- VEXP2 (R60). Lanewise exp2 within 1 ulp. -/
def execVexp2 (x : Fin 640) (y : Fin 512) (s : State) : Answer := .next (s.onBlock (fun e b => b.doVexp2 e x y))

/-- VLOG2 (R60). Lanewise log2 within 1 ulp. -/
def execVlog2 (x : Fin 640) (y : Fin 512) (s : State) : Answer := .next (s.onBlock (fun e b => b.doVlog2 e x y))

/-- VRCP (R60). Lanewise reciprocal within 1 ulp. -/
def execVrcp (x : Fin 640) (y : Fin 512) (s : State) : Answer := .next (s.onBlock (fun e b => b.doVrcp e x y))

/-- VRSQRT (R60). Lanewise reciprocal square root within 1 ulp. -/
def execVrsqrt (x : Fin 640) (y : Fin 512) (s : State) : Answer := .next (s.onBlock (fun e b => b.doVrsqrt e x y))

/-- VTANH (R60). Lanewise tanh within 2 ulp. -/
def execVtanh (x : Fin 640) (y : Fin 512) (s : State) : Answer := .next (s.onBlock (fun e b => b.doVtanh e x y))

/-- VSIGM (R60). Lanewise sigmoid within 2 ulp. -/
def execVsigm (x : Fin 640) (y : Fin 512) (s : State) : Answer := .next (s.onBlock (fun e b => b.doVsigm e x y))

/-- VERF (R60). Lanewise erf within 2 ulp. -/
def execVerf (x : Fin 640) (y : Fin 512) (s : State) : Answer := .next (s.onBlock (fun e b => b.doVerf e x y))

/-- VSUMW (R75). Adds each lane into an accumulator entry through the auxiliary write port. -/
def execVsumw (x : Fin 640) (y : Fin 512) (s : State) : Answer := .next (s.onBlock (fun e b => b.doVsumw e x y))

/-- VMAXR (R437). Writes the largest lane of VA into lane 0 of VD. -/
def execVmaxr (x : Fin 640) (y : Fin 512) (s : State) : Answer := .next (s.onBlock (fun e b => b.doVmaxr e x y))

/-- VACC (R67). Converts accumulator entries to FP32 lanes by RNE. -/
def execVacc (x : Fin 640) (y : Fin 512) (s : State) : Answer := .next (s.onBlock (fun e b => b.doVacc e x y))

end Sys2Proof.Machine
end

