-- ==== Sys2Proof/Machine/ExecClock.lean ====
section
/-! DEFINITION. Meanings: clock domains and power states (R360 to R372). -/
namespace Sys2Proof.Machine

/-- GATE (R360). CLK_GATE_REQ operation that gates a domain or is refused with a code. -/
def execGate (d : Fin 128) (s : State) : Answer := .next (s.onBlock (fun e b => b.doGate e d))

/-- UNGATE (R360). CLK_GATE_REQ operation that ungates a domain or is refused with a code. -/
def execUngate (d : Fin 128) (s : State) : Answer := .next (s.onBlock (fun e b => b.doUngate e d))

/-- DOMAIN_RESET (R370). CLK_DRST_REQ resets one domain with its guards, or is refused. -/
def execDomainReset (d : Fin 128) (s : State) : Answer := .next (s.onBlock (fun e b => b.doDomainReset e d))

/-- SWITCH (R362). CLK_SWITCH_REQ schedules a partition's plate source switch at the next millisecond tick, or is
refused. -/
def execSwitch (p : Fin 8) (fstep : Fin 32) (s : State) : Answer := .next (s.onBlock (fun e b => b.doSwitch e p fstep))

/-- ACTIVE (R372). Power-state request to return to Active. -/
def execActive (s : State) : Answer := .next (s.onBlock (fun e b => b.doPstate e 0 false))

/-- HOLD (R371). Power-state request for Hold, ramped down before entry. -/
def execHold (s : State) : Answer := .next (s.onBlock (fun e b => b.doPstate e 1 false))

/-- SAFELIGHT (R371). Power-state request for Safelight, keeping local stores if SL_LS is set. -/
def execSafelight (slLs : Bool) (s : State) : Answer := .next (s.onBlock (fun e b => b.doPstate e 2 slLs))

/-- OFF (R371). Power-state request for Off. -/
def execOff (s : State) : Answer := .next (s.onBlock (fun e b => b.doPstate e 3 false))

/-- PSTATE_ENTERED (R371). The draw reaches the target state's level after the ramp and the entry completes. -/
def execPstateEntered (s : State) : Answer := .next (s.onBlock (fun e b => b.doPstateEntered e))

/-- CLOCK_LOST (R364). A monitor finds a clock missing or in error and safe states are forced. -/
def execClockLost (n : Fin 33) (missing : Bool) (s : State) : Answer :=
  .next (s.onBlock (fun e b => b.doClockLost e n missing))

/-- CLOCK_RECOVERY (R364). The failed source is READY again and its recovery reset runs. -/
def execClockRecovery (n : Fin 33) (s : State) : Answer := .next (s.onBlock (fun e b => b.doClockRecovery e n))

/-- GUARD_REJOINED (R366). A crossing's rejoin handshake completes after both sides are ready. -/
def execGuardRejoined (d : Fin 128) (s : State) : Answer := .next (s.onBlock (fun e b => b.doGuardRejoined e d))

end Sys2Proof.Machine
end

