-- ==== Sys2Proof/Machine/ExecColl.lean ====
section
/-! DEFINITION. Meanings: collective exchange (R281 to R288). -/
namespace Sys2Proof.Machine

/-- COLL (R281). Collective command: the lead engine splits it into parts for each engine it uses. -/
def execColl (q : Fin 256) (s : State) : Answer := .next (s.onBlock (fun e b => b.doColl e q))

/-- REDUCE_SCATTER (R285). Collective operation that reduces along chains and leaves each device its shard. -/
def execReduceScatter (x : Fin 6) (p : Fin 8) (s : State) : Answer := .next (s.onBlock (fun e b => b.doCollOp e x p 0))

/-- ALL_GATHER (R286). Collective operation that copies each shard to every member. -/
def execAllGather (x : Fin 6) (p : Fin 8) (s : State) : Answer := .next (s.onBlock (fun e b => b.doCollOp e x p 1))

/-- ALL_REDUCE (R286). Collective reduce-scatter, one conversion, then all-gather. -/
def execAllReduce (x : Fin 6) (p : Fin 8) (s : State) : Answer := .next (s.onBlock (fun e b => b.doCollOp e x p 2))

/-- BROADCAST (R286). Collective operation that spreads PEER's data over the rings. -/
def execBroadcast (x : Fin 6) (p : Fin 8) (s : State) : Answer := .next (s.onBlock (fun e b => b.doCollOp e x p 3))

/-- ALL_TO_ALL (R286). Collective operation that sends block k to ring coordinate k. -/
def execAllToAll (x : Fin 6) (p : Fin 8) (s : State) : Answer := .next (s.onBlock (fun e b => b.doCollOp e x p 4))

/-- SEND (R286). Collective operation that sends ordered PUTs to a queue of PEER. -/
def execSend (x : Fin 6) (p : Fin 8) (s : State) : Answer := .next (s.onBlock (fun e b => b.doSend e x p))

/-- RECV (R286). Collective operation that takes elements from a receive queue into DST. -/
def execRecv (x : Fin 6) (p : Fin 8) (s : State) : Answer := .next (s.onBlock (fun e b => b.doRecv e x p))

/-- COLLECTIVE_PART_START (R281). An engine starts a queued part, reads the exposure and grants credits, or refuses
the command. -/
def execCollectivePartStart (x : Fin 6) (p : Fin 8) (s : State) : Answer :=
  .next (s.onBlock (fun e b => b.doPartStart e x p))

/-- COLLECTIVE_DATA (R287). A data segment arrives and the engine adds, encodes, forwards or delivers it. -/
def execCollectiveData (x : Fin 6) (m : Msg) (s : State) : Answer := .next (s.onBlock (fun e b => b.doCollData e x m))

/-- COLLECTIVE_CREDIT (R288). A credit segment arrives and grants pieces to the sending engine. -/
def execCollectiveCredit (x : Fin 6) (m : Msg) (s : State) : Answer := .next (s.onBlock (fun e b => b.doCollCredit e x m))

end Sys2Proof.Machine
end

