-- ==== Sys2Proof/Machine/ExecGen.lean ====
section
/-! DEFINITION. Meanings: generation control (R159 to R171). -/
namespace Sys2Proof.Machine

/-- MAXIMA (R159). A generation unit receives MAXIMA from a child, merges the auto-exposure maxima and forwards them
when complete. -/
def execMaxima (p : Fin 8) (m : GenMsg) (s : State) : Answer := .next (s.onBlock (fun e b => b.doMaxima e p m))

/-- EXPOSE (R160). A device receives EXPOSE and writes the new exposures into its latent RNG slots, or holds them
until the RNG copy. -/
def execExpose (p : Fin 8) (m : GenMsg) (s : State) : Answer := .next (s.onBlock (fun e b => b.doExpose e p m))

/-- READY (R159). A generation unit receives READY from a child and forwards READY when its own latent generation is
complete. -/
def execReady (p : Fin 8) (m : GenMsg) (s : State) : Answer := .next (s.onBlock (fun e b => b.doReady e p m))

/-- ORDER (R163). A device receives ORDER with the fix tick and next step gate, or sends ABORT if it arrives late. -/
def execOrder (p : Fin 8) (m : GenMsg) (s : State) : Answer := .next (s.onBlock (fun e b => b.doOrder e p m))

/-- FIX_TICK (R164). At the fix tick a device holding ORDER and no ABORT switches every region's current bank and
updates its metadata in one hub cycle. -/
def execFixTick (p : Fin 8) (s : State) : Answer := .next ((s.scheduled (s.blk.fixDue p)).onCur (fun e b => b.doFixTick e p))

/-- FIXED (R159). A generation unit receives FIXED from a child and forwards it once it has fixed. -/
def execFixed (p : Fin 8) (m : GenMsg) (s : State) : Answer := .next (s.onBlock (fun e b => b.doFixed e p m))

/-- CONFIRM (R166). A device receives CONFIRM and makes g+1 visible outside the job, releasing waits on BANK(g). -/
def execConfirm (p : Fin 8) (m : GenMsg) (s : State) : Answer := .next (s.onBlock (fun e b => b.doConfirm e p m))

/-- ABORT (R168). A device receives an ABORT, forwards it once per epoch, discards latent state and applies a
partition reset. -/
def execAbort (p : Fin 8) (m : GenMsg) (s : State) : Answer := .next (s.onBlock (fun e b => b.doAbort e p m))

/-- REWOUND (R169). A generation unit receives REWOUND from a child; the root chooses the rewind target and sends
RESTART or stops the job. -/
def execRewound (p : Fin 8) (m : GenMsg) (s : State) : Answer := .next (s.onCur (fun e b => b.doRewound e p m))

/-- RESTART (R170). A device receives RESTART, switches back to the target bank and schedules the restart gate, or
stops if flagged. -/
def execRestart (p : Fin 8) (m : GenMsg) (s : State) : Answer := .next (s.onCur (fun e b => b.doRestart e p m))

/-- RESTART_GATE (R170). At the restart gate the device confirms the target and restarts the job's step. -/
def execRestartGate (p : Fin 8) (s : State) : Answer :=
  .next ((s.scheduled (s.blk.gateDue p)).onBlock (fun e b => b.doRestartGate e p))

/-- LOADED (R167). A generation unit receives LOADED from a child; the root compares G0 values and sends RESTART. -/
def execLoaded (p : Fin 8) (m : GenMsg) (s : State) : Answer := .next (s.onCur (fun e b => b.doLoaded e p m))

/-- LOADED_REPEAT (R167). Every 10 ms without RESTART, the device repeats LOADED to its parent. -/
def execLoadedRepeat (p : Fin 8) (s : State) : Answer :=
  .next ((s.eventAt (s.blk.loadedDue p)).onBlock (fun e b => b.doLoadedRepeat e p))

/-- ORDER_TIMEOUT (R165). ORDER_TIMEOUT passes after READY with no ORDER and the device sends ABORT with cause order
timeout. -/
def execOrderTimeout (p : Fin 8) (s : State) : Answer :=
  .next ((s.eventAt (s.blk.orderDue p)).onBlock (fun e b => b.doOrderTimeout e p))

/-- EXPOSE_TIMEOUT (R165). ORDER_TIMEOUT passes after MAXIMA with no EXPOSE and the device sends ABORT. -/
def execExposeTimeout (p : Fin 8) (s : State) : Answer :=
  .next ((s.eventAt (s.blk.exposeDue p)).onBlock (fun e b => b.doExposeTimeout e p))

/-- REJOIN_TIMEOUT (R171). No RESTART arrives within REJOIN_TIMEOUT of an ABORT or LOAD, so the device stops the job. -/
def execRejoinTimeout (p : Fin 8) (s : State) : Answer :=
  .next ((s.eventAt (s.blk.rejoinDue p)).onBlock (fun e b => b.doRejoinTimeout e p))

end Sys2Proof.Machine
end

