-- ==== Sys2Proof/Machine/ExecHost.lean ====
section
/-! DEFINITION. Meanings: host interface, queues, sync objects, events, functions (R173, R299 to R339). -/
namespace Sys2Proof.Machine

/-- DOORBELL (R304). Host writes the highest submitted sequence number, accepted or rejected by range. -/
def execDoorbell (f : Fin 9) (q : Fin 256) (v : Fin (2 ^ 64)) (s : State) : Answer :=
  .next (s.onBlock (fun e b => b.doDoorbell e f q v))

/-- COMMAND_START (R308). A command whose predecessor retired and whose edges, waits and lock are satisfied starts
executing. -/
def execCommandStart (q : Fin 256) (s : State) : Answer := .next (s.onBlock (fun e b => b.doCommandStart e q))

/-- COMMAND_COMPLETE (R308). A command's writes become visible, its sync object is signalled and COMPLETED advances in
order. -/
def execCommandComplete (q : Fin 256) (s : State) : Answer := .next (s.onBlock (fun e b => b.doCommandComplete e q))

/-- CMD_NOP (R306). Command that does nothing. -/
def execCmdNop (q : Fin 256) (s : State) : Answer := .next (s.onBlock (fun _ b => b.doCmdNop q))

/-- LOAD (R317). Checks and loads a job image into a partition and makes G0 current. -/
def execLoad (q : Fin 256) (s : State) : Answer := .next (s.onCur (fun e b => b.doLoad e q))

/-- UNLOAD (R317). Stops the job, resets the partition and releases its resources. -/
def execUnload (q : Fin 256) (s : State) : Answer := .next (s.onBlock (fun e b => b.doUnload e q))

/-- RUN (R306). Runs a fused command of the loaded program image on the plate engine. -/
def execRun (q : Fin 256) (s : State) : Answer := .next (s.onBlock (fun e b => b.doRun e q))

/-- DMA (R310). DMA command executing a DMA block. -/
def execDma (q : Fin 256) (s : State) : Answer := .next (s.onBlock (fun e b => b.doDma e q))

/-- COPY (R310). DMA kind that copies LEN bytes, optionally under a reduction. -/
def execCopy (q : Fin 256) (s : State) : Answer := .next (s.onBlock (fun e b => b.doCopy e q))

/-- FILL (R310). DMA kind that fills LEN bytes with a 32-bit pattern. -/
def execFill (q : Fin 256) (s : State) : Answer := .next (s.onBlock (fun e b => b.doFill e q))

/-- PRINT (R173). DMA kind that exports a fixed generation with a header and pins its bank. -/
def execPrint (q : Fin 256) (s : State) : Answer := .next (s.onBlock (fun e b => b.doPrint e q))

/-- SYNC (R306). Command that adds an amount to its sync object. -/
def execSync (q : Fin 256) (s : State) : Answer := .next (s.onBlock (fun _ b => b.doSync q))

/-- MGMT (R351). PF0 management command executing a management block. -/
def execMgmt (q : Fin 256) (s : State) : Answer := .next (s.onBlock (fun e b => b.doMgmt e q))

/-- INFO (R351). Management operation that writes GLB and CFG bytes to DST. -/
def execInfo (q : Fin 256) (s : State) : Answer := .next (s.onBlock (fun e b => b.doInfo e q))

/-- OVERRIDE (R350). Management operation that names a profile for later retained resets, or cancels it. -/
def execOverride (q : Fin 256) (s : State) : Answer := .next (s.onBlock (fun e b => b.doOverride e q))

/-- FLASH_WRITE (R351). Management operation that verifies and writes a firmware image or profile half into flash. -/
def execFlashWrite (q : Fin 256) (s : State) : Answer := .next (s.onBlock (fun e b => b.doFlashWrite e q))

/-- RETAINED_RESET (R351). Management operation that completes and then applies a retained reset within 1 ms. -/
def execRetainedReset (q : Fin 256) (s : State) : Answer := .next (s.onBlock (fun e b => b.doRetainedReset e q))

/-- MEASURE (R351). Management operation that writes signed measurement blocks to DST. -/
def execMeasure (q : Fin 256) (s : State) : Answer := .next (s.onBlock (fun e b => b.doMeasure e q))

/-- OWNER_KEY (R351). Management operation that programs a hash into a blank owner fuse slot. -/
def execOwnerKey (q : Fin 256) (s : State) : Answer := .next (s.onBlock (fun e b => b.doOwnerKey e q))

/-- DEADLINE_EXPIRY (R316). A command's deadline expires: it is abandoned, a contact sheet taken and its partition
reset. -/
def execDeadlineExpiry (q : Fin 256) (s : State) : Answer :=
  .next ((s.scheduled (s.blk.deadlineDue q)).onBlock (fun e b => b.doDeadline e q))

/-- HANG_ESCALATION (R316). A partition not idle 10 ms after its deadline reset triggers a retained reset of the
device. -/
def execHangEscalation (p : Fin 8) (s : State) : Answer :=
  .next ((s.eventAt (s.blk.hangDue p)).onBlock (fun e b => b.doHang e p))

/-- TIME_SLICE_END (R314). An engine's slice ends and it switches queues at its next switch point. -/
def execTimeSliceEnd (en : Fin 48) (s : State) : Answer :=
  .next ((s.scheduled (s.blk.sliceDue en)).onBlock (fun e b => b.doSliceEnd e en))

/-- QUEUE_ENABLE (R304). Setting ENABLE on a queue clears SUBMITTED and COMPLETED. -/
def execQueueEnable (f : Fin 9) (q : Fin 256) (s : State) : Answer := .next (s.onBlock (fun e b => b.doQueueEnable e f q))

/-- QUEUE_DISABLE (R311). Clearing ENABLE abandons the queue's commands that have not completed. -/
def execQueueDisable (f : Fin 9) (q : Fin 256) (s : State) : Answer := .next (s.onBlock (fun e b => b.doQueueDisable e f q))

/-- QUEUE_BIND (R312). Write of a queue's engine or partition binding, refused when it breaks the binding table. -/
def execQueueBind (f : Fin 9) (q : Fin 256) (engine : Fin 64) (part : Fin 16) (s : State) : Answer :=
  .next (s.onBlock (fun e b => b.doQueueBind e f q engine part))

/-- FE_PART (R303). PF0 write of a partition layout, refused or applied with a partition reset. -/
def execFePart (f : Fin 9) (i : Fin 8) (valid : Bool) (first : Fin 16) (size : Fin 4) (s : State) : Answer :=
  .next (s.onBlock (fun e b => b.doFePart e f i { valid := valid, first := first, size := size }))

/-- ADD (R323). SYN_OP operation that adds N to a counter sync object. -/
def execAdd (f : Fin 9) (n : Fin 8192) (amount : Fin (2 ^ 28)) (s : State) : Answer :=
  .next (s.onBlock (fun e b => b.doAdd e f n amount))

/-- RELEASE (R324). SYN_OP operation that releases a lock, publishing staged lines of a sequence lock. -/
def execRelease (f : Fin 9) (n : Fin 8192) (s : State) : Answer := .next (s.onBlock (fun e b => b.doRelease e f n))

/-- ACQUIRE (R324). A read of SYN_OP attempts to acquire a lock and returns granted, orphan or busy. -/
def execAcquire (f : Fin 9) (n : Fin 8192) (s : State) : Answer := .next (s.onBlock (fun e b => b.doAcquire e f n))

/-- SET (R323). Write of SYN_VAL_HI that sets a counter's value. -/
def execSet (f : Fin 9) (n : Fin 8192) (v : Fin (2 ^ 64)) (s : State) : Answer :=
  .next (s.onBlock (fun e b => b.doSet e f n v))

/-- SYN_CTL_MODE (R322). Write of a sync object's MODE, applied as an update or refused. -/
def execSynCtlMode (f : Fin 9) (n : Fin 8192) (mode : Fin 4) (s : State) : Answer :=
  .next (s.onBlock (fun e b => b.doSynMode e f n mode))

/-- GUARD_SLOT_WRITE (R325). Write of a guard slot's window or object, refused while the rules are broken. -/
def execGuardSlotWrite (f : Fin 9) (k : Fin 64) (base : Fin (2 ^ 48)) (part : Fin 16) (len : Fin (2 ^ 32)) (valid : Bool) (obj : Fin 8192) (s : State) : Answer :=
  .next (s.onBlock (fun e b => b.doGuardSlot e f k base part len valid obj))

/-- EVT_CONS (R330). Host write of a ring's consumer count, accepted within range and followed by a GAP record when
space returns. -/
def execEvtCons (f : Fin 9) (k : Fin 36) (v : Fin (2 ^ 32)) (s : State) : Answer :=
  .next (s.onBlock (fun e b => b.doEvtCons e f k v))

/-- EVT_CTL (R339). Write of a ring's control; enabling the first PF0 ring delivers the boot log. -/
def execEvtCtl (f : Fin 9) (k : Fin 36) (enable : Bool) (mirror : Bool) (size : Fin 16) (minsev : Fin 4) (vector : Fin 128) (s : State) : Answer :=
  .next (s.onBlock (fun e b => b.doEvtCtl e f k enable mirror size minsev vector))

/-- MSIX_MODERATION_EXPIRY (R330). A ring's MOD interval passes and its pending MSI-X vector fires. -/
def execMsixModerationExpiry (k : Fin 36) (s : State) : Answer :=
  .next ((s.eventAt (s.blk.modDue k)).onBlock (fun e b => b.doModeration e k))

/-- FLR_VF (R302). Function Level Reset of VF(i+1) applies a partition reset to partition i. -/
def execFlrVf (i : Fin 8) (s : State) : Answer := .next (s.onBlock (fun e b => b.doFlrVf e i))

/-- FLR_PF0 (R302). Function Level Reset of PF0 applies a retained reset to the device. -/
def execFlrPf0 (s : State) : Answer := .next (s.onBlock (fun e b => b.doFlrPf0 e))

/-- APERTURE_READ (R301). A host read through BAR4 or VF BAR2 is served by the home slice. -/
def execApertureRead (f : Fin 9) (off : Fin (2 ^ 36)) (n : Fin 4097) (s : State) : Answer :=
  .next (s.onBlock (fun e b => b.doApertureRead e f off n))

/-- APERTURE_WRITE (R301). A host write through an aperture is applied or dropped. -/
def execApertureWrite (f : Fin 9) (off : Fin (2 ^ 36)) (bs : List Byte) (ep : Bool) (s : State) : Answer :=
  .next (s.onBlock (fun e b => b.doApertureWrite e f off bs ep))

/-- HOST_READ_ERROR (R302). A host read returns UR, CA, poison or times out, so the bytes are poisoned and reported. -/
def execHostReadError (q : Fin 256) (kind : Fin 4) (a : Fin (2 ^ 64)) (n : Nat) (s : State) : Answer :=
  .next (s.onBlock (fun e b => b.doHostReadError e q kind a n))

/-- PCIE_LINK_DOWN (R299). One PCIe link goes down and every agent masters through the other port. -/
def execPcieLinkDown (portB : Bool) (s : State) : Answer := .next (s.onBlock (fun _ b => b.setPcie portB false))

/-- PERST_N (R339). PERST_N deasserts and the PCIe link trains. -/
def execPerstN (portB : Bool) (s : State) : Answer := .next (s.onBlock (fun _ b => b.setPcie portB true))

end Sys2Proof.Machine
end

