-- ==== Sys2Proof/Machine/ExecInt.lean ====
section
/-! DEFINITION. Meanings: integrity, observation, the module and registers (R5, R7, R376 to R436). -/
namespace Sys2Proof.Machine

/-- BRACKET_COMPARE (R387). A bracketing recompute finishes and compares its totals, freeing the record or raising
fog. -/
def execBracketCompare (k : Nat) (ox : Fin 640) (oy : Fin 512) (equal : Bool) (s : State) : Answer :=
  .next (s.onBlock (fun e b => b.doBracketCompare e k ox oy equal))

/-- BRACKET_VOTE (R387). A third recompute decides which cell is charged for a bracketing mismatch. -/
def execBracketVote (k : Nat) (vote : Fin 4) (s : State) : Answer := .next (s.onBlock (fun e b => b.doBracketVote e k vote))

/-- PROOF_KERNEL_DONE (R390). A proof kernel finishes and its CRC is compared, repeating once on a mismatch. -/
def execProofKernelDone (plate : Fin 8) (col : Fin 160) (phys : Fin 258) (kernel : Fin 256) (ok : Bool) (s : State) : Answer :=
  .next (s.onBlock (fun e b => b.doProofDone e plate col phys kernel ok))

/-- PROOF_OVERDUE_HOUR (R389). Each overdue cell-hour is counted. -/
def execProofOverdueHour (s : State) : Answer := .next (s.onBlock (fun _ b => b.doProofOverdue))

/-- UNCORRECTED_CONTROL (R376). An uncorrectable error in hub control state causes a retained reset. -/
def execUncorrectedControl (kind : Fin 256) (s : State) : Answer :=
  .next (s.onBlock (fun e b => b.doUncorrectedControl e kind))

/-- OBS_SNAP_REQ (R405). Write that schedules a counter snapshot, ignored while one is busy. -/
def execObsSnapReq (plates : Fin 256) (cells : Bool) (hub : Bool) (s : State) : Answer :=
  .next (s.onObs (fun e b => b.doSnapReq e plates cells hub))

/-- SNAPSHOT_TICK (R405). At the snapshot tick the selected counters are latched and written to the buffer. -/
def execSnapshotTick (s : State) : Answer :=
  .next ((s.eventAt (s.blk.obs.snap.map SnapReq.tick)).onBlock (fun e b => b.doSnapTick e))

/-- OBS_CS_REQ (R406). Write that requests a contact sheet for a scope, optionally stopping regions. -/
def execObsCsReq (scope : Fin 512) (stop : Bool) (s : State) : Answer := .next (s.onObs (fun e b => b.doCsReq e scope stop))

/-- CONTACT_SHEET (R406). After drain stops or 1 ms, the sheet is written into a free slot and regions resume. -/
def execContactSheet (cycles : Nat) (s : State) : Answer := .next (s.onBlock (fun e b => b.doContactSheet e cycles))

/-- OBS_BP_ARM (R408). Write of a breakpoint unit's control that arms it or is refused. -/
def execObsBpArm (k : Fin 16) (arm : Bool) (scope : Bool) (part : Fin 16) (plate : Fin 8) (cluster : Fin 1024) (pc : Fin 2048) (s : State) : Answer :=
  .next (s.onObs (fun _ b => b.doBpArm k arm scope part plate cluster pc))

/-- OBS_BP_RESUME (R408). Write that resumes every stopped region of a partition and re-arms the unit. -/
def execObsBpResume (mask : Fin 256) (cycles : Nat) (s : State) : Answer :=
  .next (s.onObs (fun e b => b.doBpResume e mask cycles))

/-- THERMAL_SAMPLE (R428). Every 100 µs the sensors are read and compared with their thresholds. -/
def execThermalSample (readings : List Reading) (s : State) : Answer := .next (s.thermalSample readings)

/-- TLIMIT_UPDATE (R430). Every 100 ms TLIMIT falls, holds or rises by the thermal state. -/
def execTlimitUpdate (s : State) : Answer := .next ((s.eventAt (some (s.slot 100000))).onBlock (fun e b => b.doTlimit e))

/-- MODULE_POWER_UP (R423). VIN rises to 46 V and the module sequences its rails to power good. -/
def execModulePowerUp (s : State) : Answer := .next (s.always (fun b => b.doPowerUp))

/-- POWER_FAIL (R421). VIN stays below 42 V over 100 µs and every rail except always-on shuts down. -/
def execPowerFail (s : State) : Answer := .next (s.always (fun b => b.doPowerFail))

/-- INPUT_LOW (R421). Once per second with VIN between 42 and 48 V, INPUT_LOW is written. -/
def execInputLow (s : State) : Answer := .next (s.onBlock (fun e b => b.doInputLow e))

/-- INPUT_HIGH (R421). Once per second with VIN above 62 V, INPUT_HIGH is written. -/
def execInputHigh (s : State) : Answer := .next (s.onBlock (fun e b => b.doInputHigh e))

/-- BYPASS (R419). JTAG instruction selecting the bypass register. -/
def execBypass (s : State) : Answer := .next (s.onTap (fun b => b.doBypass))

/-- IDCODE (R419). JTAG instruction reading the stepping and ID code. -/
def execIdcode (s : State) : Answer := .next (s.onTap (fun b => b.doIdcode))

/-- SAMPLE (R419). JTAG boundary-scan sample instruction. -/
def execSample (s : State) : Answer := .next (s.onTap (fun b => b.doSample))

/-- EXTEST (R419). JTAG EXTEST or 1149.6 instruction, accepted only while RESET_N is low. -/
def execExtest (s : State) : Answer := .next (s.onTap (fun b => b.doExtest))

/-- REGISTER_WRITE (R7). A write to a register field that has no row of its own, applied by its access type. -/
def execRegisterWrite (f : Fin 9) (obs : Bool) (off : Fin (2 ^ 26)) (v : Fin (2 ^ 32)) (s : State) : Answer :=
  .next (s.onBlock (fun e b => b.doRegWrite e f obs off v))

/-- RESET_N_ASSERTION (R419). RESET_N goes low, putting the module into cold reset, restarting a cold start in
progress, and releasing a thermal trip once the sensors are cool. -/
def execResetNAssertion (s : State) : Answer := .next (s.always (fun b => b.doResetAssert))

/-- PARTITION_RESET_DONE (R367). A partition reset finishes within 5 ms, the partition's queues are ready again, and a
rewinding device may then send its REWOUND. -/
def execPartitionResetDone (p : Fin 8) (s : State) : Answer := .next (s.onPart p (fun e b => b.doPartResetDone e p))

/-- FOG_CHARGE_EXPIRY (R391). A fog charge leaves FOG_WINDOW, lowering the row's FOG count and possibly returning a
suspect row to good. -/
def execFogChargeExpiry (plate : Fin 8) (phys : Fin 258) (s : State) : Answer :=
  .next (s.onBlock (fun _ b => b.doFogExpiry plate phys))

/-- PCIE_LINK_UP (R299). A PCIe port whose link was down trains up again, ending failover through the other port. -/
def execPcieLinkUp (portB : Bool) (s : State) : Answer := .next (s.onBlock (fun _ b => b.setPcie portB true))

/-- CABLING_CHANGE (R250). The cabling of a MISWIRED port changes, and the port returns to IDLE. -/
def execCablingChange (n : Fin 36) (s : State) : Answer := .next (s.onBlock (fun _ b => b.doCablingChange n))

/-- REGISTER_PAIR_READ (R5). A read of the _LO or _HI word of a 64-bit pair through one access path captures the upper
half into, or empties, that path's latch. -/
def execRegisterPairRead (f : Fin 9) (obs : Bool) (off : Fin (2 ^ 26)) (s : State) : Answer :=
  .next (s.onBlock (fun e b => b.doPairRead e f obs off))

end Sys2Proof.Machine
end

