-- ==== Sys2Proof/Machine/ExecLink.lean ====
section
/-! DEFINITION. Meanings: ciosh Link (R250 to R274). -/
namespace Sys2Proof.Machine

/-- CL_ENABLE (R250). Setting or clearing a port's ENABLE moves it from or into DISABLED. -/
def execClEnable (n : Fin 36) (on : Bool) (s : State) : Answer := .next (s.onHost (fun e b => b.doClEnable e n on))

/-- FORCE_X2 (R253). Setting FORCE_X2 retrains the port and keeps it at x2. -/
def execForceX2 (n : Fin 36) (on : Bool) (s : State) : Answer := .next (s.onHost (fun e b => b.doForceX2 e n on))

/-- LANE_SIGNAL_DETECT (R250). Signal appears on at least 2 lanes and the idle port starts EQUALISE. -/
def execLaneSignalDetect (n : Fin 36) (lanes : Fin 16) (s : State) : Answer :=
  .next (s.onLive n (fun _ b => b.doLaneSignal n lanes))

/-- EQUALISE_DONE (R250). The PMD start-up protocol completes and the port moves to ALIGN. -/
def execEqualiseDone (n : Fin 36) (s : State) : Answer := .next (s.onLive n (fun _ b => b.doEqualiseDone n))

/-- ALIGN_DONE (R250). FEC lock and deskew complete and the port moves to FLIT_SYNC. -/
def execAlignDone (n : Fin 36) (lanes : Fin 16) (s : State) : Answer := .next (s.onLive n (fun _ b => b.doAlignDone n lanes))

/-- TRAINING_TIMEOUT (R251). A training state exceeds its limit and the port retrains, failing after 3 passes. -/
def execTrainingTimeout (n : Fin 36) (s : State) : Answer := .next (s.onLive n (fun e b => b.doTrainingTimeout e n))

/-- INIT (R252). An INIT flit is received and the port chooses its width, checks its peer and exchanges credits. -/
def execInit (n : Fin 36) (a : Arrival) (s : State) : Answer := .next (s.onCrossing n (fun e b => b.doInit e n a))

/-- IDLE (R257). An IDLE flit is received, carrying only ACK and credits. -/
def execIdle (n : Fin 36) (a : Arrival) (s : State) : Answer := .next (s.onCrossing n (fun e b => b.doIdleFlit e n a))

/-- DATA (R259). A sequenced DATA flit is received, accepted in order or discarded with a NAK. -/
def execData (n : Fin 36) (a : Arrival) (s : State) : Answer := .next (s.onCrossing n (fun e b => b.doData e n a))

/-- NAK (R259). A NAK is received and the transmitter replays from the named SEQ, or drops after 8 tries. -/
def execNak (n : Fin 36) (a : Arrival) (s : State) : Answer := .next (s.onCrossing n (fun e b => b.doNak e n a))

/-- NAK_RETRY_TIMEOUT (R259). The expected SEQ has not arrived 2 µs after a NAK, so the NAK is sent again. -/
def execNakRetryTimeout (n : Fin 36) (s : State) : Answer :=
  .next ((s.eventAt ((s.blk.port n).nakDue)).onBlock (fun e b => b.doNakRetry e n))

/-- DROPPED (R260). A DROPPED flit is received and the final receiver poisons the lost blocks and resumes decoding. -/
def execDropped (n : Fin 36) (a : Arrival) (s : State) : Answer := .next (s.onCrossing n (fun e b => b.doDropped e n a))

/-- RESUME (R254). A RESUME flit is received and the message continues from the given offset on this port. -/
def execResume (n : Fin 36) (a : Arrival) (s : State) : Answer := .next (s.onCrossing n (fun e b => b.doResumeFlit e n a))

/-- RETRAIN_REQ (R257). A RETRAIN_REQ flit is received and the port enters RETRAIN. -/
def execRetrainReq (n : Fin 36) (a : Arrival) (s : State) : Answer :=
  .next (s.onCrossing n (fun e b => b.doRetrainReq e n a))

/-- LANE_DEGRADE (R253). A lane's errors pass their limit or it loses signal, so the port retrains to x2. -/
def execLaneDegrade (n : Fin 36) (lane : Fin 4) (s : State) : Answer :=
  .next (s.onLive n (fun e b => b.doLaneDegrade e n lane))

/-- UPGRADE_ATTEMPT (R253). UPGRADE_HOLD passes and the x2 port tries x4 again. -/
def execUpgradeAttempt (n : Fin 36) (s : State) : Answer :=
  .next ((s.eventAt ((s.blk.port n).upgradeDue)).onBlock (fun e b => b.doUpgradeAttempt e n))

/-- DIRECTION_LOST (R255). No port of a direction has been active for PEER_HOLD, so held messages close and peers are
told. -/
def execDirectionLost (d : Fin 6) (s : State) : Answer :=
  .next ((s.eventAt (s.blk.link.lostDue d)).onBlock (fun e b => b.doDirectionLost e d))

/-- PUT (R272). A PUT is checked and written at its address under ROP, or linked into a receive queue. -/
def execPut (n : Fin 37) (m : Msg) (s : State) : Answer := .next (s.onCrossing n (fun e b => b.doPut e n m))

/-- GET_REQ (R271). A GET_REQ is checked and answered with a GET_RSP of the requested bytes. -/
def execGetReq (n : Fin 37) (m : Msg) (s : State) : Answer := .next (s.onCrossing n (fun e b => b.doGetReq e n m))

/-- GET_RSP (R271). A GET_RSP is written as a PUT to its return address. -/
def execGetRsp (n : Fin 37) (m : Msg) (s : State) : Answer := .next (s.onCrossing n (fun e b => b.doGetRsp e n m))

/-- REFUSED (R272). A REFUSED message reports a refused message back to its source. -/
def execRefused (n : Fin 37) (m : Msg) (s : State) : Answer := .next (s.onCrossing n (fun e b => b.doRefused e n m))

/-- MGMT_DIRECTION_LOST (R261). A DIRECTION_LOST management message from another device is received and counted. -/
def execMgmtDirectionLost (n : Fin 37) (m : Msg) (s : State) : Answer :=
  .next (s.onCrossing n (fun e b => b.doMgmtDirection e n true m))

/-- MGMT_DIRECTION_RESTORED (R261). A DIRECTION_RESTORED management message is received. -/
def execMgmtDirectionRestored (n : Fin 37) (m : Msg) (s : State) : Answer :=
  .next (s.onCrossing n (fun e b => b.doMgmtDirection e n false m))

end Sys2Proof.Machine
end

