-- ==== Sys2Proof/Machine/ExecMem.lean ====
section
/-! DEFINITION. Meanings: stacked memory (R212 to R226). -/
namespace Sys2Proof.Machine

/-- MEM_READ (R215). A controller reads a granule, correcting, poisoning or refusing it as the checks give. -/
def execMemRead (q : Asker) (a : Fin (2 ^ 48)) (ecc : Ecc) (act : Bool) (s : State) : Answer :=
  .next (s.onBlock (fun e b => b.doMemRead e q a ecc act))

/-- MEM_WRITE (R215). A controller writes a whole or partial granule with its poison mark, compressing whole blocks
where permitted. -/
def execMemWrite (q : Asker) (a : Fin (2 ^ 48)) (bs : List Byte) (poison : Bool) (cmpr : Bool) (act : Bool) (s : State) : Answer :=
  .next (s.onBlock (fun e b => b.doMemWrite e q a bs poison cmpr act))

/-- ECC_WRITEBACK (R217). A corrected or poisoned granule is written back in an idle slot, or dropped if a newer write
arrived. -/
def execEccWriteback (a : Fin (2 ^ 48)) (s : State) : Answer := .next (s.onBlock (fun _ b => b.doEccWriteback a))

/-- PATROL_SCRUB (R217). The scrub reads the next granule in an idle slot and corrects it. -/
def execPatrolScrub (ecc : Ecc) (s : State) : Answer := .next (s.onBlock (fun e b => b.doPatrolScrub e ecc))

/-- REFRESH (R218). A per-bank refresh is issued at the current refresh interval. -/
def execRefresh (s : State) : Answer := .next (s.onBlock (fun _ b => b.doRefresh))

/-- TEMPERATURE_READ (R219). Every 1 ms each stack's temperature is read and its refresh and throttle state updated. -/
def execTemperatureRead (stack : Fin 16) (t : Int) (s : State) : Answer :=
  .next (s.onBlock (fun e b => b.doTemperatureRead e stack t))

/-- SKEW_MILLISECOND (R220). At each campus millisecond the channel counts give the millisecond's skew. -/
def execSkewMillisecond (s : State) : Answer := .next ((s.eventAt (some (s.slot 1000))).onBlock (fun _ b => b.doSkewMs))

/-- SKEWED_SECOND (R220). A second with 500 skewed milliseconds is counted and a SKEW event written. -/
def execSkewedSecond (s : State) : Answer :=
  .next ((s.eventAt (some (s.slot 1000000))).onBlock (fun e b => b.doSkewedSecond e))

/-- CHANNEL_RETRAIN (R221). Every 100 ms a channel pauses to retrain, swapping failing lanes for spares. -/
def execChannelRetrain (ch : Fin 512) (failed : Bool) (lanes : List (Fin 1024)) (s : State) : Answer :=
  .next (s.onBlock (fun e b => b.doRetrain e ch failed (lanes.map Fin.val)))

/-- SELF_REFRESH_EXIT (R224). The PHY finishes retraining a stack after self-refresh and waiting requests proceed. -/
def execSelfRefreshExit (stack : Fin 16) (s : State) : Answer := .next (s.onBlock (fun _ b => b.doRefreshExit stack))

/-- TG_START (R225). Writing START runs a channel's traffic generator, or is refused when a job's memory uses the
channel. -/
def execTgStart (ch : Fin 512) (op : Fin 4) (pattern : Fin 8) (s : State) : Answer :=
  .next (s.onHost (fun e b => b.doTgStart e ch op pattern))

/-- TG_DONE (R225). The traffic generator finishes and sets DONE. -/
def execTgDone (ch : Fin 512) (errs : Nat) (lane0 : Fin (2 ^ 32)) (lane1 : Fin (2 ^ 32)) (first : Fin (2 ^ 32)) (s : State) : Answer :=
  .next (s.onBlock (fun e b => b.doTgDone e ch errs lane0 lane1 first))

/-- MEM_CH_MAPOUT_PEND (R226). Write that marks channels for map-out at the next cold start and records them in the
store. -/
def execMemChMapoutPend (stack : Fin 16) (mask : Fin (2 ^ 32)) (s : State) : Answer :=
  .next (s.onHost (fun _ b => b.doMapoutPend stack mask))

/-- MEM_PRANGE (R212). PF0 write of a partition memory range, refused when the partition holds a job or the range
overlaps or overruns. -/
def execMemPrange (k : Fin 32) (base : Fin 65536) (size : Fin 65536) (s : State) : Answer :=
  .next (s.onHost (fun _ b => b.doPrange k base size))

end Sys2Proof.Machine
end

