-- ==== Sys2Proof/Machine/ExecPower.lean ====
section
/-! DEFINITION. Meanings: campus time, the mains, power measurement and limits, directives (R179 to R201). -/
namespace Sys2Proof.Machine

/-- PTP_SYNC (R180). A PTP Sync message is accepted and the timebase steers or steps campus time. -/
def execPtpSync (us : Fin (2 ^ 64)) (frac : Fin 65536) (s : State) : Answer := .next (s.ptpSync us frac)

/-- CT_MS_EDGE (R180). A campus millisecond edge on CT_MS steers the phase or advances the count in holdover. -/
def execCtMsEdge (dev : Int) (dis : Int) (s : State) : Answer := .next (s.ctMsEdge dev dis)

/-- HOLDOVER (R181). No Sync for 3 s or 3 missed CT_MS edges puts the timebase into holdover. -/
def execHoldover (src : Fin 3) (s : State) : Answer := .next (s.onBlock (fun e b => b.doHoldover e src))

/-- HOLDOVER_LIMIT (R181). Holdover outlasts HOLDOVER_LIMIT, and warnings follow once per second. -/
def execHoldoverLimit (s : State) : Answer :=
  .next ((s.eventAt (s.blk.tim.holdDue)).onBlock (fun e b => b.doHoldoverLimit e))

/-- GRID_SYNC_EDGE (R186). A mains zero-crossing edge is timestamped and accepted or ignored, ending a mains cycle. -/
def execGridSyncEdge (s : State) : Answer := .next (s.onBlock (fun e b => b.doGridSyncEdge e))

/-- GRID_LOST (R187). No edge for 3 nominal periods clears GRID_VALID and starts generated mains cycles. -/
def execGridLost (s : State) : Answer := .next ((s.eventAt (s.blk.gridLostDue)).onBlock (fun e b => b.doGridLost e))

/-- GENERATED_MAINS_CYCLE (R187). A nominal mains cycle generated from campus time ends while the grid signal is lost.
-/
def execGeneratedMainsCycle (s : State) : Answer :=
  .next ((s.eventAt (some (s.blk.tim.cycleAt + s.blk.nominalPeriod))).onBlock (fun e b => b.doGeneratedCycle e))

/-- POWER_SAMPLE (R188). Every 10 µs the controller samples input voltage and current and updates its means. -/
def execPowerSample (v : Fin 65536) (i : Fin 65536) (s : State) : Answer :=
  if 7200 < v.val || 20000 < i.val then .fault .absoluteMaximum
  else .next ((s.eventAt (some (nextSlot 10 s.blk.tim.sampleAt s.time.now))).onBlock (fun e b => b.doPowerSample e v i))

/-- ESTIMATE_SCALE (R188). Every millisecond the plate estimates are scaled to match the measured input. -/
def execEstimateScale (est : List (Fin 65536)) (shares : List (Fin 65536)) (s : State) : Answer :=
  .next ((s.eventAt (some (s.slot 1000))).onBlock (fun _ b => b.doEstimateScale (est.map Fin.val) (shares.map Fin.val)))

/-- BUDGET_DIVISION (R200). Every 10 µs the budget is divided among partitions by weight, lending unused budget. -/
def execBudgetDivision (pdev : Fin 65536) (needs : List (Fin 65536)) (s : State) : Answer :=
  .next ((s.eventAt (some (s.slot 10))).onBlock (fun _ b => b.doBudgetDivision pdev (needs.map Fin.val)))

/-- FLAT_FIELD_OFFER (R201). Every 10 µs the controller projects the draw and offers proof kernels and bracketing to
idle windows and free plates. -/
def execFlatFieldOffer (proj : Fin 65536) (s : State) : Answer :=
  .next ((s.eventAt (some (s.slot 10))).onBlock (fun _ b => (b.doFlatFieldOffer proj).gateFree))

/-- LEVEL_CHANGE (R194). Three equal PWR_LIMIT samples latch a new level, L is recomputed and swallow ratios and start
tick S are chosen. -/
def execLevelChange (level : Fin 8) (s : State) : Answer :=
  .next ((s.eventAt (some (s.time.now + 4))).onBlock (fun e b => b.doLevelChange e level))

/-- SWALLOW_START (R195). At tick S swallowing at the new ratio begins on the same plate cycle on every plate of each
partition. -/
def execSwallowStart (s : State) : Answer :=
  .next ((s.scheduled (s.blk.tim.swallowDue)).onBlock (fun _ b => b.doSwallowStart))

/-- PLL_LOCK (R362). A PLL raises LOCK, and READY after 20 µs within frequency. -/
def execPllLock (n : Fin 28) (s : State) : Answer := .next (s.onBlock (fun e b => b.doPllLock e n))

/-- PLL_SWITCH (R196). At a campus tick every plate of a partition switches to its standby PLL and the swallow ratio
is reset. -/
def execPllSwitch (p : Fin 8) (need : Fin 65536) (s : State) : Answer :=
  .next ((s.scheduled ((mget none s.blk.clk.switches p).map SwitchRun.tick)).onBlock (fun e b => b.doPllSwitch e p need))

/-- PLL_SWITCH_RETRY (R196). After a refused switch, the controller tries again at the next millisecond tick. -/
def execPllSwitchRetry (p : Fin 8) (need : Fin 65536) (s : State) : Answer :=
  .next ((s.eventAt (if (s.blk.partPower p).retry then some (s.nextMs) else none)).onBlock (fun e b => b.doPllSwitchRetry e p need))

/-- VOLTAGE_STEP (R194). Each millisecond the core voltage moves by up to 5 mV and the swallow ratio follows. -/
def execVoltageStep (p : Fin 8) (need : Fin 65536) (s : State) : Answer :=
  .next ((s.eventAt (some (s.slot 1000))).onBlock (fun e b => b.doVoltageStep e p need))

/-- CURTAIL_MISS (R194). The 1,000-tick bound passes with the draw above L, so a severity-3 event is written and
swallowing holds at 63/64. -/
def execCurtailMiss (s : State) : Answer := .next ((s.eventAt (s.blk.tim.missDue)).onBlock (fun e b => b.doCurtailMiss e))

/-- SET_CAP (R198). Directive that sets or removes the directive power cap. -/
def execSetCap (m : PowerMsg) (w : Fin 65536) (s : State) : Answer :=
  .next (s.onBlock (fun e b => b.doDirective e 1 m [w.val]))

/-- SET_SHARES (R198). Directive that replaces the partition weights. -/
def execSetShares (m : PowerMsg) (weights : List (Fin 256)) (s : State) : Answer :=
  .next (s.onBlock (fun e b => b.doDirective e 2 m (weights.map Fin.val)))

/-- SET_SLEW (R198). Directive that replaces SLEW. -/
def execSetSlew (m : PowerMsg) (w : Fin 65536) (s : State) : Answer :=
  .next (s.onBlock (fun e b => b.doDirective e 3 m [w.val]))

/-- SET_FLOOR (R198). Directive that replaces FLOOR. -/
def execSetFloor (m : PowerMsg) (w : Fin 65536) (s : State) : Answer :=
  .next (s.onBlock (fun e b => b.doDirective e 4 m [w.val]))

/-- QUERY (R198). Directive that makes the device send a REPORT within 5 ms. -/
def execQuery (m : PowerMsg) (s : State) : Answer := .next (s.onBlock (fun e b => b.doDirective e 5 m []))

/-- REPORT (R198). A received REPORT datagram is rejected and counted. -/
def execReport (m : PowerMsg) (s : State) : Answer := .next (s.onBlock (fun e b => b.doDirective e 0x81 m []))

/-- DIRECTIVE_EFFECT (R199). A directive reaches EFFECT_T and takes effect. -/
def execDirectiveEffect (s : State) : Answer :=
  .next ((s.scheduled (s.blk.tim.effectDue)).onBlock (fun e b => b.doDirectiveEffect e))

/-- DIRECTIVE_EXPIRE (R199). At EXPIRE_T a directive setting reverts to its profile value. -/
def execDirectiveExpire (s : State) : Answer :=
  .next ((s.scheduled (s.blk.tim.expireDue)).onBlock (fun e b => b.doDirectiveExpire e))

/-- TIM_HOST_CAP (R199). Host write of the host power cap, acting like SET_CAP within 5 ms. -/
def execTimHostCap (w : Fin (2 ^ 32)) (s : State) : Answer := .next (s.onHost (fun e b => b.doTimHostCap e w))

/-- TIM_FLOOR (R192). Host write of FLOOR, lowered at SLEW per cycle or raised in the next cycle. -/
def execTimFloor (w : Fin (2 ^ 32)) (s : State) : Answer := .next (s.onHost (fun _ b => b.doTimFloor w))

end Sys2Proof.Machine
end

