-- ==== Sys2Proof/Machine/ExecRegion.lean ====
section
/-! DEFINITION. Meanings: streams, stages, completion, drains and the step gate (R15, R96 to R113). -/
namespace Sys2Proof.Machine

/-- STREAM_BEAT_ARRIVAL (R96). A read beat, address-list entry or write credit reaches a cluster stream channel. -/
def execStreamBeatArrival (cx : Fin 80) (cy : Fin 64) (ch : Fin 4) (net : Fin 3) (s : State) : Answer :=
  .next (s.onBlock (fun e b => b.doBeat e cx cy ch net))

/-- FREEZE_RESUME (R104). Both stream conditions hold again and the freeze group resumes together. -/
def execFreezeResume (r : RegionId) (cycles : Nat) (s : State) : Answer :=
  .next (s.onBlock (fun e b => b.doResume e r cycles))

/-- DESCRIPTOR_RETIRE (R101). A stream descriptor moves its last byte and frees its queue entry. -/
def execDescriptorRetire (cx : Fin 80) (cy : Fin 64) (ch : Fin 4) (s : State) : Answer :=
  .next (s.onBlock (fun _ b => b.doRetire cx cy ch))

/-- STAGE_START (R110). A stage of a fused command starts its regions at its fixed cycle offset. -/
def execStageStart (p : Fin 8) (stage : Fin 256) (s : State) : Answer :=
  .next (s.onBlock (fun _ b => b.doStageStart p stage))

/-- CLUSTER_COMPLETE (R113). A halted cluster whose operations and writes have finished reports complete. -/
def execClusterComplete (cx : Fin 80) (cy : Fin 64) (s : State) : Answer :=
  .next (s.onBlock (fun _ b => b.doClusterComplete cx cy))

/-- DEVICE_COMPLETION (R113). The completion combining tree reports that every cluster of the command has completed. -/
def execDeviceCompletion (p : Fin 8) (s : State) : Answer := .next (s.onBlock (fun _ b => b.doDeviceCompletion p))

/-- DRAIN_REQUEST (R98). A drain request from a time slice, breakpoint or contact sheet reaches a region. -/
def execDrainRequest (r : RegionId) (s : State) : Answer := .next (s.onBlock (fun e b => b.doDrainRequest e r))

/-- REGION_RESUME (R98). A stopped region continues after its DRAINPT in one plate cycle on every sequencer. -/
def execRegionResume (r : RegionId) (cycles : Nat) (s : State) : Answer :=
  .next (s.onBlock (fun _ b => b.doResumeStop r cycles))

/-- STEP_GATE (R15). At the agreed campus tick, every plate of the job starts its region programs and step-scoped sync
objects are reset. -/
def execStepGate (p : Fin 8) (s : State) : Answer :=
  .next ((s.scheduled (s.blk.gateDue p)).onBlock (fun e b => b.doStepGate e p))

end Sys2Proof.Machine
end

