-- ==== Sys2Proof/Machine/ExecSeq.lean ====
section
/-! DEFINITION. Meanings: the sequencer commands (R92 to R128). -/
namespace Sys2Proof.Machine

/-- NOP (R92). Sequencer instruction that does nothing for one plate cycle. -/
def execNop (r : RegionId) (s : State) : Answer := .next (s.onBlock (fun e b => b.doNop e r))

/-- WAIT (R92). Sequencer instruction that starts a wait of N plate cycles. -/
def execWait (r : RegionId) (n : Fin (2 ^ 24)) (s : State) : Answer := .next (s.onBlock (fun e b => b.doWait e r n))

/-- WAIT_END (R92). The N-cycle count of a WAIT or IDLEW runs out and the sequencer moves on. -/
def execWaitEnd (r : RegionId) (s : State) : Answer := .next (s.onBlock (fun _ b => b.doWaitEnd r))

/-- IDLEW (R92). Sequencer instruction that waits N cycles and declares them an idle window for flat-field work using
free-range entry F. -/
def execIdlew (r : RegionId) (f : Fin 16) (n : Fin (2 ^ 24)) (s : State) : Answer :=
  .next (s.onBlock (fun e b => b.doIdlew e r f n))

/-- IDLE_WINDOW_END (R20). An idle window ends on its named cycle and any unfinished flat-field work in it is
abandoned without effect. -/
def execIdleWindowEnd (r : RegionId) (s : State) : Answer := .next (s.onBlock (fun _ b => b.doIdleWindowEnd r))

/-- HALT (R92). Sequencer instruction that ends the region program. -/
def execHalt (r : RegionId) (s : State) : Answer := .next (s.onBlock (fun e b => b.doHalt e r))

/-- DRAINPT (R98). Drain point: the region stops here if a drain request is pending, and otherwise takes one cycle. -/
def execDrainpt (r : RegionId) (s : State) : Answer := .next (s.onBlock (fun e b => b.doDrainpt e r))

/-- BR (R92). Unconditional branch to target T. -/
def execBr (r : RegionId) (t : Fin 2048) (s : State) : Answer := .next (s.onBlock (fun e b => b.doBr e r t))

/-- BRC (R92). Branch to T when comparator Kk XOR NEG is true. -/
def execBrc (r : RegionId) (k : Fin 4) (neg : Bool) (t : Fin 2048) (s : State) : Answer :=
  .next (s.onBlock (fun e b => b.doBrc e r k neg t))

/-- LOOP (R92). Decrements counter Cc and branches when it is not zero. -/
def execLoop (r : RegionId) (c : Fin 8) (t : Fin 2048) (s : State) : Answer :=
  .next (s.onBlock (fun e b => b.doLoop e r c t))

/-- LDC (R92). Loads a value into loop counter Cc. -/
def execLdc (r : RegionId) (c : Fin 8) (v : Fin (2 ^ 24)) (s : State) : Answer :=
  .next (s.onBlock (fun e b => b.doLdc e r c v))

/-- CMP (R92). Sets comparator Kk to a live relation between Cc and a value. -/
def execCmp (r : RegionId) (k : Fin 4) (c : Fin 8) (rel : Fin 4) (v : Fin (2 ^ 24)) (s : State) : Answer :=
  .next (s.onBlock (fun e b => b.doCmp e r k c rel v))

/-- LDA (R92). Loads a 40-bit value into address register Aa. -/
def execLda (r : RegionId) (a : Fin 16) (v : Fin (2 ^ 40)) (s : State) : Answer :=
  .next (s.onBlock (fun e b => b.doLda e r a v))

/-- ADDI (R92). Adds a signed immediate to Aa modulo 2^40. -/
def execAddi (r : RegionId) (a : Fin 16) (v : Fin (2 ^ 40)) (s : State) : Answer :=
  .next (s.onBlock (fun e b => b.doAddi e r a v))

/-- ADDA (R92). Adds Ab to Aa modulo 2^40. -/
def execAdda (r : RegionId) (a : Fin 16) (c : Fin 16) (s : State) : Answer := .next (s.onBlock (fun e b => b.doAdda e r a c))

/-- STRM (R99). Queues a stream descriptor on a channel, forms its tensor-base offset and freezes the region when the
queue is full. -/
def execStrm (r : RegionId) (ch : Fin 4) (a : Fin 16) (rb : Fin 16) (s : State) : Answer :=
  .next (s.onBlock (fun e b => b.doStrm e r ch a rb))

/-- SYNCSIG (R112). Lead sequencer adds 1 to a sync object once the region's earlier writes are visible. -/
def execSyncsig (r : RegionId) (o : Fin 8192) (s : State) : Answer := .next (s.onBlock (fun e b => b.doSyncsig e r o))

/-- SYNCWT (R112). Lead sequencer freezes the region until a sync object reaches a value. -/
def execSyncwt (r : RegionId) (a : Fin 16) (o : Fin 8192) (s : State) : Answer :=
  .next (s.onBlock (fun e b => b.doSyncwt e r a o))

/-- SYNCWT_SATISFIED (R112). The waited sync object reaches the value and the frozen region resumes. -/
def execSyncwtSatisfied (r : RegionId) (cycles : Nat) (s : State) : Answer :=
  .next (s.onBlock (fun e b => b.doSyncwtSatisfied e r cycles))

/-- ISSUE (R93). Sends one issue word to the selected cells of the cluster, optionally switching their route entries. -/
def execIssue (r : RegionId) (w : IssueWord) (err : IssueError) (s : State) : Answer :=
  .next (s.onBlock (fun e b => b.doIssue e r w err))

/-- WALK (R124). Runs a tile-walker macro-instruction that performs a whole batched matrix product. -/
def execWalk (r : RegionId) (a : Fin 16) (s : State) : Answer := .next (s.onBlock (fun e b => b.doWalk e r a))

/-- WALK_RETIRE (R128). The walk finishes its last flush and retires after its exact cycle count. -/
def execWalkRetire (r : RegionId) (s : State) : Answer := .next (s.onBlock (fun _ b => b.doWalkRetire r))

end Sys2Proof.Machine
end

