-- ==== Sys2Proof/Machine/ExecStart.lean ====
section
/-! DEFINITION. Meanings: start-up, resets and the BMC endpoint (R338 to R370). -/
namespace Sys2Proof.Machine

/-- COLD_RESET (R338). RESET_N deasserts with power good and the cold start runs its six steps. -/
def execColdReset (finds : BootFinds) (s : State) : Answer := .next (s.coldReset finds)

/-- WARM_RESET_N (R367). A low pulse on WARM_RESET_N starts a retained reset. -/
def execWarmResetN (s : State) : Answer := .next (s.onBlock (fun e b => b.doWarmReset e))

/-- RETAINED_RESET_SEQUENCE (R369). The retained reset isolates guards, flushes slices, enters self-refresh, resets
and restarts plates to queues ready. -/
def execRetainedResetSequence (s : State) : Answer := .next (s.onCur (fun e b => b.doRetainedSequence e))

/-- PROFILE_SEL_CHANGE (R339). A change of PROFILE_SEL after step 1 updates PIN_SEL and writes an event. -/
def execProfileSelChange (sel : Fin 4) (s : State) : Answer := .next (s.onBlock (fun e b => b.doProfileSel e sel))

/-- WATCHDOG_EXPIRY (R352). The active core's watchdog expires and the standby core takes over management. -/
def execWatchdogExpiry (s : State) : Answer := .next (s.onBlock (fun e b => b.doWatchdog e))

/-- SET_ENDPOINT_ID (R353). MCTP control request that assigns the endpoint ID. -/
def execSetEndpointId (eid : Fin 256) (s : State) : Answer := .next (s.onBlock (fun _ b => b.doSetEndpointId eid))

/-- GET_ENDPOINT_ID (R353). MCTP control request that returns the endpoint ID. -/
def execGetEndpointId (s : State) : Answer := .next (s.onBlock (fun _ b => b.doGetEndpointId))

/-- GET_VERSION_SUPPORT (R353). MCTP control request for supported versions. -/
def execGetVersionSupport (s : State) : Answer := .next (s.onBlock (fun _ b => b.doVersionSupport))

/-- GET_MESSAGE_TYPE_SUPPORT (R353). MCTP control request for supported message types. -/
def execGetMessageTypeSupport (s : State) : Answer := .next (s.onBlock (fun _ b => b.doTypeSupport))

/-- PLDM_DISCOVERY (R353). PLDM type 0 discovery request. -/
def execPldmDiscovery (s : State) : Answer := .next (s.onBlock (fun _ b => b.doPldmDiscovery))

/-- PLDM_SENSOR_READ (R353). PLDM type 2 numeric or state sensor request. -/
def execPldmSensorRead (sensor : Sensor) (s : State) : Answer := .next (s.onBlock (fun _ b => b.doSensorRead sensor))

/-- PLDM_FIRMWARE_UPDATE (R353). PLDM type 5 update of firmware or a profile, applied by flash write rules. -/
def execPldmFirmwareUpdate (target : Fin 5) (image : List Byte) (s : State) : Answer :=
  .next (s.onBlock (fun e b => b.doPldmUpdate e target image))

/-- GET_VERSION (R353). SPDM GET_VERSION request. -/
def execGetVersion (s : State) : Answer := .next (s.onBlock (fun _ b => b.doGetVersion))

/-- GET_CAPABILITIES (R353). SPDM GET_CAPABILITIES request. -/
def execGetCapabilities (s : State) : Answer := .next (s.onBlock (fun _ b => b.doGetCapabilities))

/-- NEGOTIATE_ALGORITHMS (R353). SPDM NEGOTIATE_ALGORITHMS request. -/
def execNegotiateAlgorithms (ecdsaP384 : Bool) (sha384 : Bool) (s : State) : Answer :=
  .next (s.onBlock (fun _ b => b.doNegotiate ecdsaP384 sha384))

/-- GET_DIGESTS (R353). SPDM GET_DIGESTS request. -/
def execGetDigests (s : State) : Answer := .next (s.onBlock (fun _ b => b.doGetDigests))

/-- GET_CERTIFICATE (R354). SPDM GET_CERTIFICATE request for the identity chain. -/
def execGetCertificate (off : Fin 65536) (len : Fin 65536) (s : State) : Answer :=
  .next (s.onBlock (fun _ b => b.doGetCertificate off len))

/-- CHALLENGE (R354). SPDM CHALLENGE request signed with the identity key. -/
def execChallenge (nonce : List Byte) (s : State) : Answer := .next (s.onBlock (fun _ b => b.doChallenge nonce))

/-- GET_MEASUREMENTS (R354). SPDM GET_MEASUREMENTS request for the measurement indices. -/
def execGetMeasurements (index : Fin 256) (nonce : List Byte) (s : State) : Answer :=
  .next (s.onBlock (fun _ b => b.doGetMeasurements index nonce))

end Sys2Proof.Machine
end

