-- ==== Sys2Proof/Machine/Dispatch.lean ====
section
/-! DEFINITION. One arm for each command. -/
namespace Sys2Proof.Machine

def exec (i : Instr) (s : State) : Host.Outcome State Fault Refusal :=
  match i with
  | .nop r => Sys2Proof.Machine.execNop r s
  | .wait r n => Sys2Proof.Machine.execWait r n s
  | .waitEnd r => Sys2Proof.Machine.execWaitEnd r s
  | .idlew r f n => Sys2Proof.Machine.execIdlew r f n s
  | .idleWindowEnd r => Sys2Proof.Machine.execIdleWindowEnd r s
  | .halt r => Sys2Proof.Machine.execHalt r s
  | .drainpt r => Sys2Proof.Machine.execDrainpt r s
  | .br r t => Sys2Proof.Machine.execBr r t s
  | .brc r k neg t => Sys2Proof.Machine.execBrc r k neg t s
  | .loop r c t => Sys2Proof.Machine.execLoop r c t s
  | .ldc r c v => Sys2Proof.Machine.execLdc r c v s
  | .cmp r k c rel v => Sys2Proof.Machine.execCmp r k c rel v s
  | .lda r a v => Sys2Proof.Machine.execLda r a v s
  | .addi r a v => Sys2Proof.Machine.execAddi r a v s
  | .adda r a c => Sys2Proof.Machine.execAdda r a c s
  | .strm r ch a rb => Sys2Proof.Machine.execStrm r ch a rb s
  | .syncsig r o => Sys2Proof.Machine.execSyncsig r o s
  | .syncwt r a o => Sys2Proof.Machine.execSyncwt r a o s
  | .syncwtSatisfied r cycles => Sys2Proof.Machine.execSyncwtSatisfied r cycles s
  | .issue r w err => Sys2Proof.Machine.execIssue r w err s
  | .walk r a => Sys2Proof.Machine.execWalk r a s
  | .walkRetire r => Sys2Proof.Machine.execWalkRetire r s
  | .opNop x y => Sys2Proof.Machine.execOpNop x y s
  | .mma x y fog => Sys2Proof.Machine.execMma x y fog s
  | .spillComplete x y => Sys2Proof.Machine.execSpillComplete x y s
  | .overflowReplayRestart r => Sys2Proof.Machine.execOverflowReplayRestart r s
  | .drain x y fog crowded => Sys2Proof.Machine.execDrain x y fog crowded s
  | .bracketRecordWrite x y free => Sys2Proof.Machine.execBracketRecordWrite x y free s
  | .chain x y fog => Sys2Proof.Machine.execChain x y fog s
  | .save x y => Sys2Proof.Machine.execSave x y s
  | .restore x y => Sys2Proof.Machine.execRestore x y s
  | .aclr x y => Sys2Proof.Machine.execAclr x y s
  | .vld x y crowded => Sys2Proof.Machine.execVld x y crowded s
  | .vst x y crowded => Sys2Proof.Machine.execVst x y crowded s
  | .vadd x y => Sys2Proof.Machine.execVadd x y s
  | .vsub x y => Sys2Proof.Machine.execVsub x y s
  | .vmul x y => Sys2Proof.Machine.execVmul x y s
  | .vfma x y => Sys2Proof.Machine.execVfma x y s
  | .vmax x y => Sys2Proof.Machine.execVmax x y s
  | .vmin x y => Sys2Proof.Machine.execVmin x y s
  | .vcmpgt x y => Sys2Proof.Machine.execVcmpgt x y s
  | .vcvt x y => Sys2Proof.Machine.execVcvt x y s
  | .vexp2 x y => Sys2Proof.Machine.execVexp2 x y s
  | .vlog2 x y => Sys2Proof.Machine.execVlog2 x y s
  | .vrcp x y => Sys2Proof.Machine.execVrcp x y s
  | .vrsqrt x y => Sys2Proof.Machine.execVrsqrt x y s
  | .vtanh x y => Sys2Proof.Machine.execVtanh x y s
  | .vsigm x y => Sys2Proof.Machine.execVsigm x y s
  | .verf x y => Sys2Proof.Machine.execVerf x y s
  | .vsumw x y => Sys2Proof.Machine.execVsumw x y s
  | .vmaxr x y => Sys2Proof.Machine.execVmaxr x y s
  | .vacc x y => Sys2Proof.Machine.execVacc x y s
  | .streamBeatArrival cx cy ch net => Sys2Proof.Machine.execStreamBeatArrival cx cy ch net s
  | .freezeResume r cycles => Sys2Proof.Machine.execFreezeResume r cycles s
  | .descriptorRetire cx cy ch => Sys2Proof.Machine.execDescriptorRetire cx cy ch s
  | .stageStart p stage => Sys2Proof.Machine.execStageStart p stage s
  | .clusterComplete cx cy => Sys2Proof.Machine.execClusterComplete cx cy s
  | .deviceCompletion p => Sys2Proof.Machine.execDeviceCompletion p s
  | .drainRequest r => Sys2Proof.Machine.execDrainRequest r s
  | .regionResume r cycles => Sys2Proof.Machine.execRegionResume r cycles s
  | .stepGate p => Sys2Proof.Machine.execStepGate p s
  | .maxima p m => Sys2Proof.Machine.execMaxima p m s
  | .expose p m => Sys2Proof.Machine.execExpose p m s
  | .ready p m => Sys2Proof.Machine.execReady p m s
  | .order p m => Sys2Proof.Machine.execOrder p m s
  | .fixTick p => Sys2Proof.Machine.execFixTick p s
  | .fixed p m => Sys2Proof.Machine.execFixed p m s
  | .confirm p m => Sys2Proof.Machine.execConfirm p m s
  | .abort p m => Sys2Proof.Machine.execAbort p m s
  | .rewound p m => Sys2Proof.Machine.execRewound p m s
  | .restart p m => Sys2Proof.Machine.execRestart p m s
  | .restartGate p => Sys2Proof.Machine.execRestartGate p s
  | .loaded p m => Sys2Proof.Machine.execLoaded p m s
  | .loadedRepeat p => Sys2Proof.Machine.execLoadedRepeat p s
  | .orderTimeout p => Sys2Proof.Machine.execOrderTimeout p s
  | .exposeTimeout p => Sys2Proof.Machine.execExposeTimeout p s
  | .rejoinTimeout p => Sys2Proof.Machine.execRejoinTimeout p s
  | .ptpSync us frac => Sys2Proof.Machine.execPtpSync us frac s
  | .ctMsEdge dev dis => Sys2Proof.Machine.execCtMsEdge dev dis s
  | .holdover src => Sys2Proof.Machine.execHoldover src s
  | .holdoverLimit => Sys2Proof.Machine.execHoldoverLimit s
  | .gridSyncEdge => Sys2Proof.Machine.execGridSyncEdge s
  | .gridLost => Sys2Proof.Machine.execGridLost s
  | .generatedMainsCycle => Sys2Proof.Machine.execGeneratedMainsCycle s
  | .powerSample v a => Sys2Proof.Machine.execPowerSample v a s
  | .estimateScale est shares => Sys2Proof.Machine.execEstimateScale est shares s
  | .budgetDivision pdev needs => Sys2Proof.Machine.execBudgetDivision pdev needs s
  | .flatFieldOffer proj => Sys2Proof.Machine.execFlatFieldOffer proj s
  | .levelChange level => Sys2Proof.Machine.execLevelChange level s
  | .swallowStart => Sys2Proof.Machine.execSwallowStart s
  | .pllLock n => Sys2Proof.Machine.execPllLock n s
  | .pllSwitch p need => Sys2Proof.Machine.execPllSwitch p need s
  | .pllSwitchRetry p need => Sys2Proof.Machine.execPllSwitchRetry p need s
  | .voltageStep p need => Sys2Proof.Machine.execVoltageStep p need s
  | .curtailMiss => Sys2Proof.Machine.execCurtailMiss s
  | .setCap m w => Sys2Proof.Machine.execSetCap m w s
  | .setShares m weights => Sys2Proof.Machine.execSetShares m weights s
  | .setSlew m w => Sys2Proof.Machine.execSetSlew m w s
  | .setFloor m w => Sys2Proof.Machine.execSetFloor m w s
  | .query m => Sys2Proof.Machine.execQuery m s
  | .report m => Sys2Proof.Machine.execReport m s
  | .directiveEffect => Sys2Proof.Machine.execDirectiveEffect s
  | .directiveExpire => Sys2Proof.Machine.execDirectiveExpire s
  | .timHostCap w => Sys2Proof.Machine.execTimHostCap w s
  | .timFloor w => Sys2Proof.Machine.execTimFloor w s
  | .memRead q a ecc act => Sys2Proof.Machine.execMemRead q a ecc act s
  | .memWrite q a bs poison cmpr act => Sys2Proof.Machine.execMemWrite q a bs poison cmpr act s
  | .eccWriteback a => Sys2Proof.Machine.execEccWriteback a s
  | .patrolScrub ecc => Sys2Proof.Machine.execPatrolScrub ecc s
  | .refresh => Sys2Proof.Machine.execRefresh s
  | .temperatureRead stack t => Sys2Proof.Machine.execTemperatureRead stack t s
  | .skewMillisecond => Sys2Proof.Machine.execSkewMillisecond s
  | .skewedSecond => Sys2Proof.Machine.execSkewedSecond s
  | .channelRetrain ch failed lanes => Sys2Proof.Machine.execChannelRetrain ch failed lanes s
  | .selfRefreshExit stack => Sys2Proof.Machine.execSelfRefreshExit stack s
  | .tgStart ch op pattern => Sys2Proof.Machine.execTgStart ch op pattern s
  | .tgDone ch errs lane0 lane1 first => Sys2Proof.Machine.execTgDone ch errs lane0 lane1 first s
  | .memChMapoutPend stack mask => Sys2Proof.Machine.execMemChMapoutPend stack mask s
  | .memPrange k base size => Sys2Proof.Machine.execMemPrange k base size s
  | .write q cmpr a bs => Sys2Proof.Machine.execWrite q cmpr a bs s
  | .wset q fmt ex a bs => Sys2Proof.Machine.execWset q fmt ex a bs s
  | .wadd q fmt ex a bs => Sys2Proof.Machine.execWadd q fmt ex a bs s
  | .iadd32 q a bs => Sys2Proof.Machine.execIadd32 q a bs s
  | .iadd64 q a bs => Sys2Proof.Machine.execIadd64 q a bs s
  | .smax64 q a bs => Sys2Proof.Machine.execSmax64 q a bs s
  | .smin64 q a bs => Sys2Proof.Machine.execSmin64 q a bs s
  | .umax64 q a bs => Sys2Proof.Machine.execUmax64 q a bs s
  | .umin64 q a bs => Sys2Proof.Machine.execUmin64 q a bs s
  | .fmax q fmt a bs => Sys2Proof.Machine.execFmax q fmt a bs s
  | .fmin q fmt a bs => Sys2Proof.Machine.execFmin q fmt a bs s
  | .fadd q fmt a bs => Sys2Proof.Machine.execFadd q fmt a bs s
  | .gv4add q fmt a bs => Sys2Proof.Machine.execGv4add q fmt a bs s
  | .gv4addDone => Sys2Proof.Machine.execGv4addDone s
  | .alloc hub reqs => Sys2Proof.Machine.execAlloc hub reqs s
  | .forwardedAlloc hub => Sys2Proof.Machine.execForwardedAlloc hub s
  | .poolEmptyAnswer hub => Sys2Proof.Machine.execPoolEmptyAnswer hub s
  | .creditReentry hub => Sys2Proof.Machine.execCreditReentry hub s
  | .free id part frame => Sys2Proof.Machine.execFree id part frame s
  | .give id part frame newId newPart => Sys2Proof.Machine.execGive id part frame newId newPart s
  | .frameZeroingDone frame => Sys2Proof.Machine.execFrameZeroingDone frame s
  | .framesReclaimed p => Sys2Proof.Machine.execFramesReclaimed p s
  | .shcFqMin p n => Sys2Proof.Machine.execShcFqMin p n s
  | .shcFqMax p n => Sys2Proof.Machine.execShcFqMax p n s
  | .clEnable n on => Sys2Proof.Machine.execClEnable n on s
  | .forceX2 n on => Sys2Proof.Machine.execForceX2 n on s
  | .laneSignalDetect n lanes => Sys2Proof.Machine.execLaneSignalDetect n lanes s
  | .equaliseDone n => Sys2Proof.Machine.execEqualiseDone n s
  | .alignDone n lanes => Sys2Proof.Machine.execAlignDone n lanes s
  | .trainingTimeout n => Sys2Proof.Machine.execTrainingTimeout n s
  | .init n a => Sys2Proof.Machine.execInit n a s
  | .idle n a => Sys2Proof.Machine.execIdle n a s
  | .data n a => Sys2Proof.Machine.execData n a s
  | .nak n a => Sys2Proof.Machine.execNak n a s
  | .nakRetryTimeout n => Sys2Proof.Machine.execNakRetryTimeout n s
  | .dropped n a => Sys2Proof.Machine.execDropped n a s
  | .resume n a => Sys2Proof.Machine.execResume n a s
  | .retrainReq n a => Sys2Proof.Machine.execRetrainReq n a s
  | .laneDegrade n lane => Sys2Proof.Machine.execLaneDegrade n lane s
  | .upgradeAttempt n => Sys2Proof.Machine.execUpgradeAttempt n s
  | .directionLost d => Sys2Proof.Machine.execDirectionLost d s
  | .put n m => Sys2Proof.Machine.execPut n m s
  | .getReq n m => Sys2Proof.Machine.execGetReq n m s
  | .getRsp n m => Sys2Proof.Machine.execGetRsp n m s
  | .refused n m => Sys2Proof.Machine.execRefused n m s
  | .mgmtDirectionLost n m => Sys2Proof.Machine.execMgmtDirectionLost n m s
  | .mgmtDirectionRestored n m => Sys2Proof.Machine.execMgmtDirectionRestored n m s
  | .coll q => Sys2Proof.Machine.execColl q s
  | .reduceScatter x p => Sys2Proof.Machine.execReduceScatter x p s
  | .allGather x p => Sys2Proof.Machine.execAllGather x p s
  | .allReduce x p => Sys2Proof.Machine.execAllReduce x p s
  | .broadcast x p => Sys2Proof.Machine.execBroadcast x p s
  | .allToAll x p => Sys2Proof.Machine.execAllToAll x p s
  | .send x p => Sys2Proof.Machine.execSend x p s
  | .recv x p => Sys2Proof.Machine.execRecv x p s
  | .collectivePartStart x p => Sys2Proof.Machine.execCollectivePartStart x p s
  | .collectiveData x m => Sys2Proof.Machine.execCollectiveData x m s
  | .collectiveCredit x m => Sys2Proof.Machine.execCollectiveCredit x m s
  | .doorbell f q v => Sys2Proof.Machine.execDoorbell f q v s
  | .commandStart q => Sys2Proof.Machine.execCommandStart q s
  | .commandComplete q => Sys2Proof.Machine.execCommandComplete q s
  | .cmdNop q => Sys2Proof.Machine.execCmdNop q s
  | .load q => Sys2Proof.Machine.execLoad q s
  | .unload q => Sys2Proof.Machine.execUnload q s
  | .run q => Sys2Proof.Machine.execRun q s
  | .dma q => Sys2Proof.Machine.execDma q s
  | .copy q => Sys2Proof.Machine.execCopy q s
  | .fill q => Sys2Proof.Machine.execFill q s
  | .print q => Sys2Proof.Machine.execPrint q s
  | .sync q => Sys2Proof.Machine.execSync q s
  | .mgmt q => Sys2Proof.Machine.execMgmt q s
  | .info q => Sys2Proof.Machine.execInfo q s
  | .override q => Sys2Proof.Machine.execOverride q s
  | .flashWrite q => Sys2Proof.Machine.execFlashWrite q s
  | .retainedReset q => Sys2Proof.Machine.execRetainedReset q s
  | .measure q => Sys2Proof.Machine.execMeasure q s
  | .ownerKey q => Sys2Proof.Machine.execOwnerKey q s
  | .deadlineExpiry q => Sys2Proof.Machine.execDeadlineExpiry q s
  | .hangEscalation p => Sys2Proof.Machine.execHangEscalation p s
  | .timeSliceEnd en => Sys2Proof.Machine.execTimeSliceEnd en s
  | .queueEnable f q => Sys2Proof.Machine.execQueueEnable f q s
  | .queueDisable f q => Sys2Proof.Machine.execQueueDisable f q s
  | .queueBind f q engine part => Sys2Proof.Machine.execQueueBind f q engine part s
  | .fePart f p valid first size => Sys2Proof.Machine.execFePart f p valid first size s
  | .add f n amount => Sys2Proof.Machine.execAdd f n amount s
  | .release f n => Sys2Proof.Machine.execRelease f n s
  | .acquire f n => Sys2Proof.Machine.execAcquire f n s
  | .set f n v => Sys2Proof.Machine.execSet f n v s
  | .synCtlMode f n mode => Sys2Proof.Machine.execSynCtlMode f n mode s
  | .guardSlotWrite f k base part len valid obj => Sys2Proof.Machine.execGuardSlotWrite f k base part len valid obj s
  | .evtCons f k v => Sys2Proof.Machine.execEvtCons f k v s
  | .evtCtl f k enable mirror size minsev vector => Sys2Proof.Machine.execEvtCtl f k enable mirror size minsev vector s
  | .msixModerationExpiry k => Sys2Proof.Machine.execMsixModerationExpiry k s
  | .flrVf v => Sys2Proof.Machine.execFlrVf v s
  | .flrPf0 => Sys2Proof.Machine.execFlrPf0 s
  | .apertureRead f off n => Sys2Proof.Machine.execApertureRead f off n s
  | .apertureWrite f off bs ep => Sys2Proof.Machine.execApertureWrite f off bs ep s
  | .hostReadError q kind a n => Sys2Proof.Machine.execHostReadError q kind a n s
  | .pcieLinkDown portB => Sys2Proof.Machine.execPcieLinkDown portB s
  | .perstN portB => Sys2Proof.Machine.execPerstN portB s
  | .coldReset finds => Sys2Proof.Machine.execColdReset finds s
  | .warmResetN => Sys2Proof.Machine.execWarmResetN s
  | .retainedResetSequence => Sys2Proof.Machine.execRetainedResetSequence s
  | .profileSelChange sel => Sys2Proof.Machine.execProfileSelChange sel s
  | .watchdogExpiry => Sys2Proof.Machine.execWatchdogExpiry s
  | .setEndpointId eid => Sys2Proof.Machine.execSetEndpointId eid s
  | .getEndpointId => Sys2Proof.Machine.execGetEndpointId s
  | .getVersionSupport => Sys2Proof.Machine.execGetVersionSupport s
  | .getMessageTypeSupport => Sys2Proof.Machine.execGetMessageTypeSupport s
  | .pldmDiscovery => Sys2Proof.Machine.execPldmDiscovery s
  | .pldmSensorRead sensor => Sys2Proof.Machine.execPldmSensorRead sensor s
  | .pldmFirmwareUpdate target image => Sys2Proof.Machine.execPldmFirmwareUpdate target image s
  | .getVersion => Sys2Proof.Machine.execGetVersion s
  | .getCapabilities => Sys2Proof.Machine.execGetCapabilities s
  | .negotiateAlgorithms ecdsaP384 sha384 => Sys2Proof.Machine.execNegotiateAlgorithms ecdsaP384 sha384 s
  | .getDigests => Sys2Proof.Machine.execGetDigests s
  | .getCertificate off len => Sys2Proof.Machine.execGetCertificate off len s
  | .challenge nonce => Sys2Proof.Machine.execChallenge nonce s
  | .getMeasurements index nonce => Sys2Proof.Machine.execGetMeasurements index nonce s
  | .gate d => Sys2Proof.Machine.execGate d s
  | .ungate d => Sys2Proof.Machine.execUngate d s
  | .domainReset d => Sys2Proof.Machine.execDomainReset d s
  | .switch p fstep => Sys2Proof.Machine.execSwitch p fstep s
  | .active => Sys2Proof.Machine.execActive s
  | .hold => Sys2Proof.Machine.execHold s
  | .safelight slLs => Sys2Proof.Machine.execSafelight slLs s
  | .off => Sys2Proof.Machine.execOff s
  | .pstateEntered => Sys2Proof.Machine.execPstateEntered s
  | .clockLost n missing => Sys2Proof.Machine.execClockLost n missing s
  | .clockRecovery n => Sys2Proof.Machine.execClockRecovery n s
  | .guardRejoined d => Sys2Proof.Machine.execGuardRejoined d s
  | .bracketCompare k ox oy equal => Sys2Proof.Machine.execBracketCompare k ox oy equal s
  | .bracketVote k vote => Sys2Proof.Machine.execBracketVote k vote s
  | .proofKernelDone plate col phys kernel ok => Sys2Proof.Machine.execProofKernelDone plate col phys kernel ok s
  | .proofOverdueHour => Sys2Proof.Machine.execProofOverdueHour s
  | .uncorrectedControl kind => Sys2Proof.Machine.execUncorrectedControl kind s
  | .obsSnapReq plates cells hub => Sys2Proof.Machine.execObsSnapReq plates cells hub s
  | .snapshotTick => Sys2Proof.Machine.execSnapshotTick s
  | .obsCsReq scope stop => Sys2Proof.Machine.execObsCsReq scope stop s
  | .contactSheet cycles => Sys2Proof.Machine.execContactSheet cycles s
  | .obsBpArm k arm scope part plate cluster pc => Sys2Proof.Machine.execObsBpArm k arm scope part plate cluster pc s
  | .obsBpResume mask cycles => Sys2Proof.Machine.execObsBpResume mask cycles s
  | .thermalSample readings => Sys2Proof.Machine.execThermalSample readings s
  | .tlimitUpdate => Sys2Proof.Machine.execTlimitUpdate s
  | .modulePowerUp => Sys2Proof.Machine.execModulePowerUp s
  | .powerFail => Sys2Proof.Machine.execPowerFail s
  | .inputLow => Sys2Proof.Machine.execInputLow s
  | .inputHigh => Sys2Proof.Machine.execInputHigh s
  | .bypass => Sys2Proof.Machine.execBypass s
  | .idcode => Sys2Proof.Machine.execIdcode s
  | .sample => Sys2Proof.Machine.execSample s
  | .extest => Sys2Proof.Machine.execExtest s
  | .registerWrite f obs off v => Sys2Proof.Machine.execRegisterWrite f obs off v s
  | .resetNAssertion => Sys2Proof.Machine.execResetNAssertion s
  | .partitionResetDone p => Sys2Proof.Machine.execPartitionResetDone p s
  | .fogChargeExpiry plate phys => Sys2Proof.Machine.execFogChargeExpiry plate phys s
  | .pcieLinkUp portB => Sys2Proof.Machine.execPcieLinkUp portB s
  | .cablingChange n => Sys2Proof.Machine.execCablingChange n s
  | .registerPairRead f obs off => Sys2Proof.Machine.execRegisterPairRead f obs off s

end Sys2Proof.Machine
end

