-- ==== Sys2Proof/WellFormed.lean ====
section
/-! DEFINITION. Well-formed commands: what the operand types do not say. Plain bounds are in the types of the operands; here
stand the field rules of R92, the header layouts of R161, R198, R256 and R270, and the lengths of lists. -/
namespace Sys2Proof

open Sys2Proof.Machine

/-- The region and the 64-bit instruction that a sequencer command stands for (R92, R93). -/
def Instr.seqOp : Instr → Option (RegionId × SeqOp)
  | .nop r => some (r, .nop)
  | .wait r n => some (r, .wait n)
  | .idlew r f n => some (r, .idlew f n)
  | .halt r => some (r, .halt)
  | .drainpt r => some (r, .drainpt)
  | .br r t => some (r, .br t)
  | .brc r k neg t => some (r, .brc k neg t)
  | .loop r c t => some (r, .loop c t)
  | .ldc r c v => some (r, .ldc c v)
  | .cmp r k c rel v => some (r, .cmp k c rel v)
  | .lda r a v => some (r, .lda a v)
  | .addi r a v => some (r, .addi a v)
  | .adda r a c => some (r, .adda a c)
  | .strm r ch a rb => some (r, .strm ch a rb)
  | .syncsig r o => some (r, .syncsig o)
  | .syncwt r a o => some (r, .syncwt a o)
  | .issue r w _ => some (r, .issue w)
  | .walk r a => some (r, .walk a)
  | _ => none

end Sys2Proof

namespace Sys2Proof.Machine

/-- A region number lies in the image's region table, which holds at most 640 regions (R116). -/
def RegionId.wf (r : RegionId) : Bool := decide (r.idx < 640)

/-- A control header whose fields fit their bits, with the data that its CTYPE asks for (R161). -/
def GenMsg.wf (m : GenMsg) (words : Nat) : Bool :=
  decide (m.job < 65536) && decide (m.epoch < 65536) && decide (m.sender < 1024) && decide (m.flags < 16)
    && decide (m.gen < 2 ^ 48) && decide (m.gen2 < 2 ^ 48) && decide (m.tick1 < 2 ^ 64) && decide (m.tick2 < 2 ^ 64)
    && decide (m.data.length = words) && m.data.all (fun v => decide (v < 65536))

/-- A message of type `mtype` whose header fields fit their bits (R270). -/
def Msg.wf (m : Msg) (mtype : Nat) : Bool :=
  decide (m.mtype = mtype) && decide (m.flags < 8) && decide (m.src < 1024) && decide (m.dst < 1024) && decide (m.parts < 256)
    && decide (m.rop < 16) && decide (m.job < 65536) && decide (m.epoch < 65536) && decide (m.mid < 2 ^ 32)
    && decide (m.length < 2 ^ 32) && decide (m.addr < 2 ^ 48) && decide (m.signal < 8192) && decide (m.expfmt < 32768)
    && decide (m.qseq < 65536)

/-- A flit of type `ftype` whose header fields fit their bits (R256). -/
def Flit.wf (f : Flit) (ftype : Nat) : Bool :=
  decide (f.ftype = ftype) && decide (f.vc < 4) && decide (f.cls < 2) && decide (f.seq < 4096) && decide (f.ack < 4096)
    && decide (f.crVc < 4) && decide (f.crCls < 2) && decide (f.crCount < 64) && decide (f.mtag < 1024) && decide (f.len ≤ 240)
    && decide (f.payload.length = 240) && decide (f.check < 2 ^ 64)

def Arrival.wf (a : Arrival) (ftype : Nat) : Bool := a.flit.wf ftype && decide (a.fixed.length = 4)

/-- A directive header whose fields fit their bits (R198). -/
def PowerMsg.wf (m : PowerMsg) : Bool :=
  decide (m.magic < 2 ^ 32) && decide (m.ver < 256) && decide (m.key < 256) && decide (m.seq < 2 ^ 32) && decide (m.target < 65536)
    && decide (m.issue < 2 ^ 64) && decide (m.effect < 2 ^ 64) && decide (m.expire < 2 ^ 64)

/-- The sensors of a class (R428). -/
def sensorCount : Nat → Nat
  | 0 => 128 | 1 => 16 | 2 => 8 | 3 => 8 | _ => 1

def Reading.wf (r : Reading) : Bool := decide (r.index.val < sensorCount r.cls)

end Sys2Proof.Machine

namespace Sys2Proof

open Sys2Proof.Machine

/-- The region that a command names. -/
def Instr.region : Instr → Option RegionId
  | .waitEnd r => some r
  | .idleWindowEnd r => some r
  | .syncwtSatisfied r _ => some r
  | .walkRetire r => some r
  | .overflowReplayRestart r => some r
  | .freezeResume r _ => some r
  | .drainRequest r => some r
  | .regionResume r _ => some r
  | i => i.seqOp.map Prod.fst

/-- What the operand types of a command leave to check. -/
def Instr.operandsOk : Instr → Bool
  | .maxima _ m => m.wf 2016
  | .expose _ m => m.wf 2016
  | .ready _ m => m.wf 0
  | .order _ m => m.wf 0
  | .fixed _ m => m.wf 0
  | .confirm _ m => m.wf 0
  | .abort _ m => m.wf 3
  | .rewound _ m => m.wf 0
  | .restart _ m => m.wf 0
  | .loaded _ m => m.wf 0
  | .estimateScale est shares => decide (est.length = 8) && decide (shares.length = 8)
  | .budgetDivision _ needs => decide (needs.length = 8)
  | .setShares m weights => m.wf && decide (weights.length = 8)
  | .setCap m _ => m.wf
  | .setSlew m _ => m.wf
  | .setFloor m _ => m.wf
  | .query m => m.wf
  | .report m => m.wf
  | .memWrite _ a bs _ _ _ => decide (bs ≠ []) && decide (a.val % 64 + bs.length ≤ 64)
  | .alloc hub reqs => reqs.all (fun r => decide (homeHub r.1 = hub.val))
  | .init _ a => a.wf 4
  | .idle _ a => a.wf 0
  | .data _ a => a.wf 1
  | .nak _ a => a.wf 3
  | .dropped _ a => a.wf 2
  | .resume _ a => a.wf 5
  | .retrainReq _ a => a.wf 6
  | .put _ m => m.wf 0
  | .getReq _ m => m.wf 1
  | .getRsp _ m => m.wf 2
  | .refused _ m => m.wf 6
  | .mgmtDirectionLost _ m => m.wf 5
  | .mgmtDirectionRestored _ m => m.wf 5
  | .collectiveData _ m => m.wf 3
  | .collectiveCredit _ m => m.wf 3
  | .challenge nonce => decide (nonce.length = 32)
  | .getMeasurements _ nonce => decide (nonce.length = 32)
  | .thermalSample readings => readings.all Reading.wf
  | .bracketVote _ vote => decide (vote.val ≠ 0)
  | _ => true

/-- A well-formed command. -/
def Instr.wf (i : Instr) : Bool :=
  (match i.seqOp with | some x => x.2.wf | none => true)
    && (match i.region with | some r => r.wf | none => true) && i.operandsOk

end Sys2Proof
end

