-- ==== Sys2Proof/Safety.lean ====
section
/-! DEFINITION. What a safe run is, in the terms that claims use. -/
namespace Sys2Proof.Machine

/-- The outcome is a next state. -/
def Completes (o : Answer) : Prop := ∃ t, o = .next t

/-- A sparse map in its one form: keys strictly rising. -/
def Rising {α : Type} (m : SMap α) : Prop := (m.map Prod.fst).Pairwise (· < ·)

/-- No entry equals what an unlisted key reads as. -/
def NoDefault {α : Type} (d : α) (m : SMap α) : Prop := ∀ x ∈ m, x.2 ≠ d

/-- A sparse map in canonical form: equal maps are equal data. -/
def Canonical {α : Type} (d : α) (m : SMap α) : Prop := Rising m ∧ NoDefault d m

/-- Campus time has not run backwards. -/
def NotBefore (s t : State) : Prop := s.time.now ≤ t.time.now

/-- A command that may set campus time back: only a cold reset starts it anew (R338). -/
def StartsTime : Instr → Prop
  | .coldReset _ => True
  | _ => False

/-- A command that may make a newer generation current: FIX_TICK (R19) and LOAD (R319). -/
def AdvancesGeneration : Instr → Prop
  | .fixTick _ => True
  | .load _ => True
  | _ => False

/-- What every step keeps: the map of current generations in its canonical form, each a 48-bit number (R161), the fraction of
campus time 16 bits (R179), every waiting command well-formed. -/
def State.Sound (s : State) : Prop :=
  mwf 0 s.cur = true ∧ (∀ p, mget 0 s.cur p < 2 ^ 48) ∧ s.time.frac < 65536 ∧ ∀ i ∈ s.pending, i.wf = true

/-! ## What an effect leaves alone -/

/-- From `b` to `c` only reports were made: event records, what they write to host memory and send, the trace, and the
port counters of the front end. -/
def Reports (b c : Block) : Prop :=
  c = { b with
    evt := c.evt, host := c.host, out := c.out
    obs := { b.obs with trace := c.obs.trace }
    fe := { b.fe with counters := c.fe.counters } }

/-- From `b` to `c` an instruction was watched: reports were made, breakpoint units counted, and regions may have been given
a drain request; of no region anything else changed. -/
def Watched (b c : Block) : Prop :=
  c = { b with
    evt := c.evt, host := c.host, out := c.out, obs := c.obs
    fe := { b.fe with counters := c.fe.counters }
    plates := { b.plates with images := c.plates.images } } ∧
  ∀ q, c.region q = { b.region q with drain := (c.region q).drain }

/-- A region that executes its next instruction in this cycle: it runs, waits for nothing, walks nothing, and its program
counter is inside its program. -/
def Block.Fetches (b : Block) (r : RegionId) : Prop :=
  (b.region r).state = .running ∧ (b.region r).waitLeft = 0 ∧ (b.region r).walk.phase = .none ∧
  (b.region r).pc < (b.region r).plen

/-- The block answers commands: the module is powered and out of RESET_N. -/
abbrev State.Up (s : State) : Prop := s.blk.module.up = true

/-- The registers of the block answer through PCIe. -/
abbrev State.HostUp (s : State) : Prop := s.blk.module.up = true ∧ s.blk.barUp = true

/-! ## The vector unit -/

/-- From cell `c` to cell `k` the lanes of register `vd` took the values `f`; every other register, and all else but the
consumed issue, is as before. -/
def LanesSet (c k : Cell) (vd : Nat) (f : Nat → Nat) : Prop :=
  (∀ l < 16, k.lane vd l = f l) ∧
  (∀ r l, l < 16 → r % 16 ≠ vd % 16 → k.lane r l = c.lane r l) ∧
  k = { c with vreg := k.vreg, vPoison := k.vPoison, issue := none }

/-- A lanewise operation of code `opc` with the source registers `srcs` (R437): a cell whose issue does not hold it receives a
NOP; otherwise each lane of VD takes `f` of that lane of the sources, and a poisoned source lane is consumed (R379). -/
def Lanewise (op : Fin 640 → Fin 512 → Instr) (opc : Nat) (srcs : OpEntry → List Nat) (f : List Nat → Nat) : Prop :=
  ∀ (s : State) (x : Fin 640) (y : Fin 512), s.Up →
    (s.blk.issued x y opc = none → exec (op x y) s = .next s) ∧
    ∀ i o, s.blk.issued x y opc = some (i, o) →
      ∃ k, LanesSet (s.blk.cell x y) k o.vd (fun l => f ((srcs o).map (fun r => (s.blk.cell x y).lane r l))) ∧
        exec (op x y) s = .next { s with
          blk := if lanes.any (fun l => (srcs o).any (fun r => (s.blk.cell x y).lanePoison r l))
            then (s.blk.setCell x y k).consumePoison s.env x y else s.blk.setCell x y k }

end Sys2Proof.Machine
end

