-- ==== Sys2Proof/Certificates/Slice0/Obligations.lean ====
section
/-! DEFINITION. The statements for the provers, by family of commands. -/
section
open Sys2Proof Sys2Proof.Machine

/-- R92, R95: NOP, BR, BRC, LOOP, HALT and DRAINPT where no drain request is pending. The model's own readings in it: log entries 23, 30. -/
def Obligations.SequencerBranchesGo : Prop :=
  ∀ (s : State) (r : RegionId), s.Up → s.blk.Fetches r →
    (∃ c, exec (.nop r) s = .next { s with blk := c } ∧
      Watched (s.blk.setRegion r { s.blk.region r with
        pc := ((s.blk.region r).pc + 1) % 2048, cycle := (s.blk.region r).cycle + 1 }) c) ∧
    (∀ t, ∃ c, exec (.br r t) s = .next { s with blk := c } ∧
      Watched (s.blk.setRegion r { s.blk.region r with pc := t, cycle := (s.blk.region r).cycle + 1 }) c) ∧
    (∀ k neg t, ∃ c, exec (.brc r k neg t) s = .next { s with blk := c } ∧
      Watched (s.blk.setRegion r { s.blk.region r with
        pc := if ((s.blk.region r).cmp k).xor neg then t else ((s.blk.region r).pc + 1) % 2048
        cycle := (s.blk.region r).cycle + 1 }) c) ∧
    (∀ (n : Fin 8) (t : Fin 2048), mget 0 (s.blk.region r).ctrs n ≠ 0 → ∃ c, exec (.loop r n t) s = .next { s with blk := c } ∧
      Watched (s.blk.setRegion r { s.blk.region r with
        ctrs := mset 0 (s.blk.region r).ctrs n (mget 0 (s.blk.region r).ctrs n - 1)
        pc := t, cycle := (s.blk.region r).cycle + 1 }) c) ∧
    (∀ (n : Fin 8) (t : Fin 2048), mget 0 (s.blk.region r).ctrs n = 0 → ∃ c, exec (.loop r n t) s = .next { s with blk := c } ∧
      Watched (s.blk.setRegion r { s.blk.region r with
        pc := ((s.blk.region r).pc + 1) % 2048, cycle := (s.blk.region r).cycle + 1 }) c) ∧
    (∃ c, exec (.halt r) s = .next { s with blk := c } ∧
      Watched (s.blk.setRegion r { s.blk.region r with
        pc := ((s.blk.region r).pc + 1) % 2048, cycle := (s.blk.region r).cycle + 1, state := .halted, drain := false }) c) ∧
    ((s.blk.region r).drain = false → ∃ c, exec (.drainpt r) s = .next { s with blk := c } ∧
      Watched (s.blk.setRegion r { s.blk.region r with
        pc := ((s.blk.region r).pc + 1) % 2048, cycle := (s.blk.region r).cycle + 1 }) c)

/-- R92, R20: WAIT, WAIT_END, IDLEW, IDLE_WINDOW_END, LDC and CMP. The model's own readings in it: log entries 23, 30. -/
def Obligations.SequencerWaitsCount : Prop :=
  ∀ (s : State) (r : RegionId), s.Up →
    (s.blk.Fetches r →
      (∀ n, ∃ c, exec (.wait r n) s = .next { s with blk := c } ∧
        Watched (s.blk.setRegion r { s.blk.region r with waitLeft := n }) c) ∧
      (∀ f n, ∃ c, exec (.idlew r f n) s = .next { s with blk := c } ∧
        Watched (s.blk.setRegion r { s.blk.region r with waitLeft := n, window := some f }) c) ∧
      (∀ n v, ∃ c, exec (.ldc r n v) s = .next { s with blk := c } ∧
        Watched (s.blk.setRegion r { s.blk.region r with
          ctrs := mset 0 (s.blk.region r).ctrs n v
          pc := ((s.blk.region r).pc + 1) % 2048, cycle := (s.blk.region r).cycle + 1 }) c) ∧
      (∀ k n rel v, ∃ c, exec (.cmp r k n rel v) s = .next { s with blk := c } ∧
        Watched (s.blk.setRegion r { s.blk.region r with
          cmps := mset {} (s.blk.region r).cmps k { ctr := n, rel := rel, val := v }
          pc := ((s.blk.region r).pc + 1) % 2048, cycle := (s.blk.region r).cycle + 1 }) c)) ∧
    ((s.blk.region r).state = .running → (s.blk.region r).waitLeft ≠ 0 →
      exec (.waitEnd r) s = .next { s with blk := s.blk.setRegion r { s.blk.region r with
        pc := ((s.blk.region r).pc + 1) % 2048, cycle := (s.blk.region r).cycle + (s.blk.region r).waitLeft
        waitLeft := 0, window := none, flatField := false } }) ∧
    exec (.idleWindowEnd r) s = .next { s with
      blk := s.blk.setRegion r { s.blk.region r with window := none, flatField := false } }

/-- R91, R92, R99, R101: LDA, ADDI and ADDA on the address registers of every cluster of the region, and STRM. The model's own readings in it: log entries 23, 29, 31. -/
def Obligations.SequencerAddressesLoad : Prop :=
  ∀ (s : State) (r : RegionId), s.Up → s.blk.Fetches r →
    (∀ a v, ∃ c, exec (.lda r a v) s = .next { s with blk := c } ∧
      Watched ((s.blk.modClusters r (fun k => { k with areg := mset 0 k.areg a v })).setRegion r (s.blk.region r).next) c) ∧
    (∀ a v, ∃ c, exec (.addi r a v) s = .next { s with blk := c } ∧
      Watched ((s.blk.modClusters r (fun k => { k with areg := mset 0 k.areg a ((mget 0 k.areg a + v) % 2 ^ 40) })).setRegion r
        (s.blk.region r).next) c) ∧
    (∀ a d, ∃ c, exec (.adda r a d) s = .next { s with blk := c } ∧
      Watched ((s.blk.modClusters r (fun k => { k with
        areg := mset 0 k.areg a ((mget 0 k.areg a + mget 0 k.areg d) % 2 ^ 40) })).setRegion r (s.blk.region r).next) c) ∧
    (∀ (ch : Fin 4) (a d : Fin 16),
      (∀ p ∈ (s.blk.region r).clusters, s.blk.streamFault r.part (mget 0 (s.blk.cluster p.1 p.2).areg a) ch = none) →
      ((∀ p ∈ (s.blk.region r).clusters, ((s.blk.cluster p.1 p.2).chan ch).queue.length < 4) →
        ∃ c, exec (.strm r ch a d) s = .next { s with blk := c } ∧
          Watched (((s.blk.region r).clusters.foldl (fun b p => b.strmCluster s.env r.part p.1 p.2 ch a d) s.blk).setRegion r
            (s.blk.region r).next) c) ∧
      ((∃ p ∈ (s.blk.region r).clusters, 4 ≤ ((s.blk.cluster p.1 p.2).chan ch).queue.length) →
        ∃ c, exec (.strm r ch a d) s = .next { s with blk := c } ∧ Watched (s.blk.freeze s.env r 7) c)) ∧
    (∀ (ch : Fin 4) (a d : Fin 16) (n : Nat),
      (s.blk.region r).clusters.findSome? (fun p => s.blk.streamFault r.part (mget 0 (s.blk.cluster p.1 p.2).areg a) ch) = some n →
      ∃ c, exec (.strm r ch a d) s = .next { s with blk := c } ∧ Watched (s.blk.refuseRun s.env r.part n) c)

/-- R112: SYNCSIG, SYNCWT and the end of a SYNCWT wait. The model's own readings in it: log entries 23, 30, 33. -/
def Obligations.SequencerSyncActs : Prop :=
  ∀ (s : State) (r : RegionId), s.Up →
    (s.blk.Fetches r →
      (∀ o, s.blk.writesVisible r = false → ∃ c, exec (.syncsig r o) s = .next { s with blk := c } ∧
        Watched (s.blk.setRegion r { (s.blk.region r).next with signals := (s.blk.region r).signals ++ [o.val] }) c) ∧
      ((s.blk.region r).signals = [] → s.blk.writesVisible r = true →
        (∀ o : Fin 8192, (s.blk.obj o).mode = 0 → (s.blk.obj o).part = r.part →
          ∃ c, exec (.syncsig r o) s = .next { s with blk := c } ∧
            Watched ((s.blk.setRegion r (s.blk.region r).next).setObj o
              { s.blk.obj o with val := ((s.blk.obj o).val + 1) % 2 ^ 64 }) c) ∧
        (∀ o : Fin 8192, s.blk.syncUsable r.part o = false →
          ∃ c, exec (.syncsig r o) s = .next { s with blk := c } ∧
            Watched ((s.blk.setRegion r (s.blk.region r).next).syncModeError s.env r o) c)) ∧
      (∀ (a : Fin 16) (o : Fin 8192), s.blk.syncUsable r.part o = true →
        (mget 0 (s.blk.cluster (s.blk.region r).x0 (s.blk.region r).y0).areg a ≤ (s.blk.obj o).val →
          ∃ c, exec (.syncwt r a o) s = .next { s with blk := c } ∧ Watched (s.blk.setRegion r (s.blk.region r).next) c) ∧
        ((s.blk.obj o).val < mget 0 (s.blk.cluster (s.blk.region r).x0 (s.blk.region r).y0).areg a →
          ∃ c, exec (.syncwt r a o) s = .next { s with blk := c } ∧
            Watched ((s.blk.freeze s.env r 5).modRegion r (fun y => { y with
              syncWait := some (o.val, mget 0 (s.blk.cluster (s.blk.region r).x0 (s.blk.region r).y0).areg a) })) c)) ∧
      (∀ (a : Fin 16) (o : Fin 8192), s.blk.syncUsable r.part o = false →
        ∃ c, exec (.syncwt r a o) s = .next { s with blk := c } ∧
          Watched ((s.blk.syncModeError s.env r o).modRegion r Region.next) c)) ∧
    (∀ n o v, (s.blk.region r).syncWait = some (o, v) → v ≤ (s.blk.obj o).val →
      exec (.syncwtSatisfied r n) s = .next { s with
        blk := if (s.blk.setRegion r { (s.blk.region r).next with syncWait := none }).groupWaits r
          then s.blk.setRegion r { (s.blk.region r).next with syncWait := none }
          else (s.blk.setRegion r { (s.blk.region r).next with syncWait := none }).thaw s.env r n })

/-- R93, R104, R124, R128, R375: ISSUE, WALK and WALK_RETIRE. The model's own readings in it: log entries 23, 24, 27, 30. -/
def Obligations.SequencerIssuesAndWalks : Prop :=
  ∀ (s : State) (r : RegionId), s.Up →
    (s.blk.Fetches r →
      (∀ w err, err ≠ .sequencer → w.pred ≠ 0 → (s.blk.region r).cmp (w.pred - 1) = false →
        ∃ c, exec (.issue r w err) s = .next { s with blk := c } ∧ Watched (s.blk.setRegion r (s.blk.region r).next) c) ∧
      (∀ w err, err ≠ .sequencer → (w.pred = 0 ∨ (s.blk.region r).cmp (w.pred - 1) = true) →
        (∀ n, s.blk.issueBlocked s.env r.part (s.blk.region r) w = some n →
          ∃ c, exec (.issue r w err) s = .next { s with blk := c } ∧ Watched (s.blk.freeze s.env r n) c) ∧
        (s.blk.issueBlocked s.env r.part (s.blk.region r) w = none →
          ∃ c, exec (.issue r w err) s = .next { s with blk := c } ∧
            Watched (((s.blk.issueAll s.env r (s.blk.region r) w).modRegion r Region.next).foundAtIssue s.env (s.blk.region r) err) c)) ∧
      (∀ w, ∃ c, exec (.issue r w .sequencer) s = .next { s with blk := c } ∧
        Watched ((s.blk.setRegion r { s.blk.region r with state := .frozen, frozenCause := 9 }).fogAt s.env 3 0x138
          (8 * (s.blk.region r).x0) (8 * (s.blk.region r).y0) (plateOf (8 * (s.blk.region r).x0) (8 * (s.blk.region r).y0))
          (s.blk.physOf (8 * (s.blk.region r).x0) (8 * (s.blk.region r).y0)) [(32, 2, (s.blk.region r).pc)]) c) ∧
      (∀ a, s.blk.channelsEmpty (s.blk.region r) = false →
        ∃ c, exec (.walk r a) s = .next { s with blk := c } ∧ Watched (s.blk.freeze s.env r 7) c) ∧
      (∀ (a : Fin 16) (at_ : Nat) (b : Block) (bs : List (Byte × Bool)) (w : Macro), s.blk.channelsEmpty (s.blk.region r) = true →
        at_ = 256 * mget 0 (s.blk.cluster (s.blk.region r).x0 (s.blk.region r).y0).areg a →
        s.blk.readMem s.env (s.blk.clusterReq r.part (s.blk.region r).x0 (s.blk.region r).y0 0) at_ 128 = (b, bs) →
        w = Macro.ofBits (leNat (bs.map Prod.fst)) →
        ((w.magic ≠ 0xA7 ∨ w.ver ≠ 1) → ∃ c, exec (.walk r a) s = .next { s with blk := c } ∧
          Watched (((b.setCluster (s.blk.region r).x0 (s.blk.region r).y0
              ((b.cluster (s.blk.region r).x0 (s.blk.region r).y0).count 0x160 1)).startWalk r (s.blk.region r) at_ 16 .prologue).runEvent
            s.env r.part 8 (s.blk.region r).x0 (s.blk.region r).y0 []) c) ∧
        (w.magic = 0xA7 → w.ver = 1 → (w.m = 0 ∨ w.n = 0 ∨ w.batch = 0) → ∃ c, exec (.walk r a) s = .next { s with blk := c } ∧
          Watched (b.startWalk r (s.blk.region r) at_ 16 .prologue) c) ∧
        (w.magic = 0xA7 → w.ver = 1 → w.m ≠ 0 → w.n ≠ 0 → w.batch ≠ 0 → ∃ c, exec (.walk r a) s = .next { s with blk := c } ∧
          Watched (b.walkProduct s.env r (s.blk.region r) w at_) c))) ∧
    ((s.blk.region r).state = .running → (s.blk.region r).walk.phase ≠ .none → (s.blk.region r).walk.phase ≠ .stopped →
      exec (.walkRetire r) s = .next { s with blk := s.blk.setRegion r { s.blk.region r with
        pc := ((s.blk.region r).pc + 1) % 2048, cycle := (s.blk.region r).cycle + (s.blk.region r).walk.cycles, walk := {} } })

/-- R60, R437: the lanewise vector operations. The model's own readings in it: log entries 13, 24. -/
def Obligations.VectorLanesCompute : Prop :=
  Lanewise .vadd 0x12 (fun o => [o.va, o.vb]) (fun l => fadd32 (l.getD 0 0) (l.getD 1 0)) ∧
  Lanewise .vsub 0x13 (fun o => [o.va, o.vb]) (fun l => fsub32 (l.getD 0 0) (l.getD 1 0)) ∧
  Lanewise .vmul 0x14 (fun o => [o.va, o.vb]) (fun l => fmul32 (l.getD 0 0) (l.getD 1 0)) ∧
  Lanewise .vfma 0x15 (fun o => [o.va, o.vb, o.vc]) (fun l => ffma32 (l.getD 0 0) (l.getD 1 0) (l.getD 2 0)) ∧
  Lanewise .vmax 0x16 (fun o => [o.va, o.vb]) (fun l => fmaxCode fp32Fmt (l.getD 0 0) (l.getD 1 0)) ∧
  Lanewise .vmin 0x17 (fun o => [o.va, o.vb]) (fun l => fminCode fp32Fmt (l.getD 0 0) (l.getD 1 0)) ∧
  Lanewise .vcmpgt 0x18 (fun o => [o.va, o.vb]) (fun l => if (fp32 (l.getD 1 0)).lt (fp32 (l.getD 0 0)) then 0x3F800000 else 0) ∧
  Lanewise .vexp2 0x1A (fun o => [o.va]) (fun l => vexp2 (l.getD 0 0)) ∧
  Lanewise .vlog2 0x1B (fun o => [o.va]) (fun l => vlog2 (l.getD 0 0)) ∧
  Lanewise .vrcp 0x1C (fun o => [o.va]) (fun l => vrcp (l.getD 0 0)) ∧
  Lanewise .vrsqrt 0x1D (fun o => [o.va]) (fun l => vrsqrt (l.getD 0 0)) ∧
  Lanewise .vtanh 0x1E (fun o => [o.va]) (fun l => vtanh (l.getD 0 0)) ∧
  Lanewise .vsigm 0x1F (fun o => [o.va]) (fun l => vsigm (l.getD 0 0)) ∧
  Lanewise .verf 0x20 (fun o => [o.va]) (fun l => verf (l.getD 0 0))

/-- R75, R83, R437: VMAXR, VACC, VSUMW, VLD, VST and VCVT. The model's own readings in it: log entries 15, 24, 26. -/
def Obligations.VectorReducesAndMoves : Prop :=
  ∀ (s : State) (x : Fin 640) (y : Fin 512), s.Up →
    (s.blk.issued x y 0x22 = none → exec (.vmaxr x y) s = .next s) ∧
    (s.blk.issued x y 0x23 = none → exec (.vacc x y) s = .next s) ∧
    (s.blk.issued x y 0x21 = none → exec (.vsumw x y) s = .next s) ∧
    (∀ crowded, s.blk.issued x y 0x10 = none → exec (.vld x y crowded) s = .next s) ∧
    (∀ crowded, s.blk.issued x y 0x11 = none → exec (.vst x y crowded) s = .next s) ∧
    (s.blk.issued x y 0x19 = none → exec (.vcvt x y) s = .next s) ∧
    (∀ i o, s.blk.issued x y 0x22 = some (i, o) → ∃ k,
      LanesSet (s.blk.cell x y) k o.vd (fun l => if l = 0 then
        fmaxCode fp32Fmt ((lanes.map ((s.blk.cell x y).lane o.va)).foldl (fmaxCode fp32Fmt) ((s.blk.cell x y).lane o.va 0))
          ((lanes.map ((s.blk.cell x y).lane o.va)).foldl (fmaxCode fp32Fmt) ((s.blk.cell x y).lane o.va 0)) else 0) ∧
      exec (.vmaxr x y) s = .next { s with
        blk := if lanes.any ((s.blk.cell x y).lanePoison o.va) then (s.blk.setCell x y k).consumePoison s.env x y
          else s.blk.setCell x y k }) ∧
    (∀ i o, s.blk.issued x y 0x23 = some (i, o) → ∃ k,
      LanesSet (s.blk.cell x y) k o.vd (fun l =>
        toFp32 (((s.blk.cell x y).accAt ((o.accBase + l) % 512)).side.onto
          (match ((s.blk.cell x y).accAt ((o.accBase + l) % 512)).ovfl with
            | some n => .inf n
            | none => ofWindow ((s.blk.cellCtx s.env x y o).exposure
                + 8 * ((((s.blk.cell x y).group o.accBase).map (fun g => g.raised)).getD 0 : Nat))
                ((s.blk.cell x y).accAt ((o.accBase + l) % 512)).val))) ∧
      exec (.vacc x y) s = .next { s with
        blk := if lanes.any (fun l => ((s.blk.cell x y).accAt ((o.accBase + l) % 512)).poison)
          then (s.blk.setCell x y k).consumePoison s.env x y else s.blk.setCell x y k }) ∧
    (∀ i o, s.blk.issued x y 0x21 = some (i, o) → ∃ r : CellRun,
      exec (.vsumw x y) s = .next { s with blk := s.blk.finishOp s.env x y r } ∧
      (∀ l < 16, (r.cell.accAt ((o.accBase + l) % 512)).val = sext 64 (twos 64
        (((s.blk.cell x y).accAt ((o.accBase + l) % 512)).val +
          (if (fp32 ((s.blk.cell x y).lane o.va l)).isFinite then
            toWindow ((s.blk.cellCtx s.env x y o).exposure
              + 8 * ((((s.blk.cell x y).group o.accBase).getD { init := true }).raised : Nat)) (fp32 ((s.blk.cell x y).lane o.va l))
            else 0)))) ∧
      ∀ m, (∀ l < 16, (o.accBase + l) % 512 ≠ m) → (r.cell.accAt m).val = ((s.blk.cell x y).accAt m).val) ∧
    (∀ i o, s.blk.issued x y 0x10 = some (i, o) →
      (o.aSrc = 0 →
        exec (.vld x y false) s = .next { s with
            blk := s.blk.finishOp s.env x y
              ({ s.blk.cell x y with lastRead := mset [] (s.blk.cell x y).lastRead 1 ((s.blk.cell x y).lsRead o.lsA (vldBytes (fmtOf o.fmtA))) }.vld (s.blk.cellCtx s.env x y o) o
            ((s.blk.cell x y).lsRead o.lsA (vldBytes (fmtOf o.fmtA)))) } ∧
        exec (.vld x y true) s = .next { s with
            blk := s.blk.finishOp s.env x y
              (({ s.blk.cell x y with lastRead := mset [] (s.blk.cell x y).lastRead 1 (mget [] (s.blk.cell x y).lastRead 1) }.count 5 1).vld
            (s.blk.cellCtx s.env x y o) o (mget [] (s.blk.cell x y).lastRead 1)) }) ∧
      (o.aSrc ≠ 0 → ∀ crowded k bs, (s.blk.cell x y).source o.aSrc o.lsA (vldBytes (fmtOf o.fmtA)) i.a = (k, bs) →
        exec (.vld x y crowded) s = .next { s with blk := s.blk.finishOp s.env x y (k.vld (s.blk.cellCtx s.env x y o) o bs) })) ∧
    (∀ i o crowded r out, s.blk.issued x y 0x11 = some (i, o) →
      (s.blk.cell x y).vst (s.blk.cellCtx s.env x y o) o i.idx = (r, out) →
      exec (.vst x y crowded) s = .next { s with
        blk := if crowded && o.outDst = 0 then s.blk.finishOp s.env x y { r with cell := r.cell.count 5 1 }
          else (s.blk.finishOp s.env x y r).output x y o.outDst o.lsOut out }) ∧
    (∀ i o, s.blk.issued x y 0x19 = some (i, o) →
      exec (.vcvt x y) s = .next { s with
        blk := s.blk.finishOp s.env x y ((s.blk.cell x y).vcvt (s.blk.cellCtx s.env x y o) o i.idx) })

/-- R52, R70, R74, R76: what a matrix pass leaves in the accumulator entries. The model's own readings in it: log entries 26, 29. -/
def Obligations.MatrixPassAddsProducts : Prop :=
  ∀ (c : Cell) (x : CellCtx) (o : OpEntry) (n : Nat) (rows cols : List (List Elem)) (bs : List Byte),
    (o.accInit = false →
      (∀ i j, i < o.mc → j < 8 →
        (((c.mmaElems x o n true rows cols bs).cell).accAt (o.accBase + 8 * i + j)).val = sext 64 (twos 64
          (dot (x.exposure + 8 * ((c.openGroup o n true).raised : Nat)) (rows.getD i []) (cols.getD j [])).1)) ∧
      (∀ m, m < o.accBase ∨ o.accBase + 8 * o.mc ≤ m →
        (((c.mmaElems x o n true rows cols bs).cell).accAt m).val = (c.accAt m).val)) ∧
    ((c.openGroup o n false).passes = 0 ∨ (c.openGroup o n false).passes % o.spillEvery ≠ 0 →
      (∀ i j, i < o.mc → j < 8 →
        (((c.mmaElems x o n false rows cols bs).cell).accAt (o.accBase + 8 * i + j)).val = sext 64 (twos 64
          ((c.accAt (o.accBase + 8 * i + j)).val +
            (dot (x.exposure + 8 * ((c.openGroup o n false).raised : Nat)) (rows.getD i []) (cols.getD j [])).1))) ∧
      (∀ m, m < o.accBase ∨ o.accBase + 8 * o.mc ≤ m →
        (((c.mmaElems x o n false rows cols bs).cell).accAt m).val = (c.accAt m).val))

/-- R67, R70, R76, R80, R81, R88: OP_NOP, ACLR, MMA, SPILL_COMPLETE, CHAIN and DRAIN. The model's own readings in it: log entries 22, 24, 28, 29. -/
def Obligations.MatrixOperationsRun : Prop :=
  ∀ (s : State) (x : Fin 640) (y : Fin 512), s.Up →
    (∀ i, (s.blk.cell x y).issue = some i →
      (((s.blk.cell x y).op i.entry).valid = false ∨ ((s.blk.cell x y).op i.entry).opc = 0) →
      exec (.opNop x y) s = .next { s with blk := s.blk.setCell x y { s.blk.cell x y with issue := none } }) ∧
    (∀ i o, s.blk.issued x y 6 = some (i, o) → ∃ k : Cell,
      exec (.aclr x y) s = .next { s with blk := s.blk.setCell x y k } ∧
      k = { s.blk.cell x y with acc := k.acc, issue := none } ∧
      ∀ m, k.accAt m = if o.accBase ≤ m ∧ m < o.accBase + 8 * o.mc then {} else (s.blk.cell x y).accAt m) ∧
    (∀ i o, s.blk.issued x y 1 = some (i, o) →
      exec (.mma x y none) s = .next { s with blk := s.blk.finishOp s.env x y (s.blk.mmaRun s.env x y i o) } ∧
      exec (.mma x y (some 4)) s = .next { s with
        blk := (s.blk.setCell x y { s.blk.cell x y with issue := none }).fogResidue s.env x y 4 } ∧
      ∀ k, k ≠ 4 → exec (.mma x y (some k)) s = .next { s with
        blk := (s.blk.finishOp s.env x y { s.blk.mmaRun s.env x y i o with
          cell := (s.blk.mmaRun s.env x y i o).cell.poisonGroup o, replay := false }).fogIn s.env x y k o }) ∧
    (∀ p ps b, (s.blk.cell x y).spills = p :: ps → b = s.blk.finishOp s.env x y (s.blk.spillRun s.env x y p ps) →
      exec (.spillComplete x y) s = .next { s with
        blk := b.setCell x y { b.cell x y with issue := (s.blk.cell x y).issue } }) ∧
    ((s.blk.cell x y).spills = [] → exec (.spillComplete x y) s = .next s) ∧
    (∀ i o r sums, s.blk.issued x y 3 = some (i, o) →
      (s.blk.cell x y).chainOp (s.blk.cellCtx s.env x y o) o s.blk.brk = (r, sums) →
      exec (.chain x y none) s = .next { s with blk := (s.blk.sendSums x y o.chainOut sums).finishOp s.env x y r }) ∧
    (∀ i o r out, s.blk.issued x y 2 = some (i, o) → o.epiOp = 0 →
      (s.blk.cell x y).drainOp (s.blk.cellCtx s.env x y o) o s.blk.brk i.idx i.pitch ((s.blk.cell x y).lsRead o.lsEpi o.epiBytes) = (r, out) →
      exec (.drain x y none false) s = .next { s with blk := (s.blk.finishOp s.env x y r).output x y o.outDst o.lsOut out }) ∧
    (s.blk.issued x y 6 = none → exec (.aclr x y) s = .next s) ∧
    (∀ k, s.blk.issued x y 1 = none → exec (.mma x y k) s = .next s) ∧
    (∀ k, s.blk.issued x y 3 = none → exec (.chain x y k) s = .next s) ∧
    (∀ k c, s.blk.issued x y 2 = none → exec (.drain x y k c) s = .next s)

/-- R77, R86, R386: SAVE, RESTORE, OVERFLOW_REPLAY_RESTART and BRACKET_RECORD_WRITE. The model's own readings in it: log entries 5, 16, 28, 34. -/
def Obligations.CellStateMoves : Prop :=
  ∀ (s : State) (x : Fin 640) (y : Fin 512) (r : RegionId), s.Up →
    (s.blk.atDrain x y = true →
      exec (.save x y) s = .next { s with
        blk := (s.blk.writeMem s.env (s.blk.saveReq x y) false (saveAddr x y) (s.blk.cell x y).saveBytes).setCell x y
          { s.blk.cell x y with issue := none, savedGroups := (s.blk.cell x y).groups } } ∧
      ∀ r, s.blk.readMem s.env (s.blk.saveReq x y) (saveAddr x y) 21120 = r →
        exec (.restore x y) s = .next { s with
          blk := r.1.setCell x y { (r.1.cell x y).restoreBytes r.2 with issue := none } }) ∧
    (s.blk.atDrain x y = false → exec (.save x y) s = .next s ∧ exec (.restore x y) s = .next s) ∧
    ((s.blk.region r).state = .replayWait →
      exec (.overflowReplayRestart r) s = .next { s with
        blk := ((s.blk.freezeGroup r).filter (fun q => decide ((s.blk.region q).state = .replayWait))).foldl
          (fun b q => b.restartRegion q)
          (s.blk.countStall ((s.blk.freezeGroup r).filter (fun q => decide ((s.blk.region q).state = .replayWait))) 1 32) }) ∧
    ((s.blk.region r).state ≠ .replayWait → exec (.overflowReplayRestart r) s = .next s) ∧
    ((s.blk.cell x y).sampled = [] → ∀ free, exec (.bracketRecordWrite x y free) s = .next s) ∧
    (∀ p ps, (s.blk.cell x y).sampled = p :: ps →
      exec (.bracketRecordWrite x y false) s = .next { s with
        blk := (s.blk.setCell x y { s.blk.cell x y with sampled := ps }).bumpInt 0x180 1 }) ∧
    (∀ p ps b fs, (s.blk.cell x y).sampled = p :: ps → ceilDiv (s.blk.bracketBytes x y p).length 0x4000 ≤ 4 →
      (s.blk.setCell x y { s.blk.cell x y with sampled := ps }).allocMany (ceilDiv (s.blk.bracketBytes x y p).length 0x4000) = (b, fs) →
      ceilDiv (s.blk.bracketBytes x y p).length 0x4000 ≤ fs.length →
      exec (.bracketRecordWrite x y true) s = .next { s with blk := b.keepBracket s.env x y (s.blk.bracketBytes x y p) fs })

/-- R98, R104, R136: DRAINPT with a drain pending, DRAIN_REQUEST, REGION_RESUME and FREEZE_RESUME. The model's own readings in it: log entry 30. -/
def Obligations.RegionsStopAndResume : Prop :=
  ∀ (s : State) (r : RegionId), s.Up →
    (s.blk.Fetches r → (s.blk.region r).drain = true → ∃ c, exec (.drainpt r) s = .next { s with blk := c } ∧
      Watched ((s.blk.setRegion r (s.blk.region r).next).stopRegion s.env r) c ∧
      (c.region r).pc = ((s.blk.region r).pc + 1) % 2048 ∧
      ((c.region r).state = .stopped ∨ (c.region r).state = .breakpoint)) ∧
    (((s.blk.region r).state = .running ∨ (s.blk.region r).state = .frozen ∨ (s.blk.region r).state = .replayWait) →
      ((s.blk.region r).walk.phase = .none ∨ (s.blk.region r).state ≠ .running) →
      exec (.drainRequest r) s = .next { s with blk := s.blk.setRegion r { s.blk.region r with drain := true } }) ∧
    ((s.blk.region r).state = .running → (s.blk.region r).walk.phase ≠ .none → ∃ b : Block,
      b.region r = { s.blk.region r with drain := true, walk := { (s.blk.region r).walk with phase := .stopped } } ∧
      exec (.drainRequest r) s = .next { s with blk := b.stopRegion s.env r }) ∧
    ((s.blk.region r).state ≠ .running → (s.blk.region r).state ≠ .frozen → (s.blk.region r).state ≠ .replayWait →
      exec (.drainRequest r) s = .next s) ∧
    (∀ n, ((s.blk.region r).state = .stopped ∨ (s.blk.region r).state = .breakpoint) → ∃ c,
      exec (.regionResume r n) s = .next { s with blk := c } ∧
      c.region r = { s.blk.region r with
        state := .running
        walk := if (s.blk.region r).walk.phase = .stopped then { (s.blk.region r).walk with phase := .passes } else (s.blk.region r).walk }) ∧
    (∀ n, (s.blk.region r).state ≠ .stopped → (s.blk.region r).state ≠ .breakpoint → (s.blk.region r).walk.phase ≠ .stopped →
      exec (.regionResume r n) s = .next s) ∧
    (∀ n, ((s.blk.region r).state = .frozen → s.blk.groupWaits r = false →
        exec (.freezeResume r n) s = .next { s with blk := s.blk.thaw s.env r n }) ∧
      (((s.blk.region r).state ≠ .frozen ∨ s.blk.groupWaits r = true) → exec (.freezeResume r n) s = .next s))

/-- R15, R95, R113: STAGE_START, CLUSTER_COMPLETE and DEVICE_COMPLETION. The model's own readings in it: log entries 2, 3. -/
def Obligations.StagesStartAndComplete : Prop :=
  ∀ (s : State), s.Up →
    (∀ (p : Fin 8) (n : Fin 256), ∃ c, exec (.stageStart p n) s = .next { s with blk := c } ∧
      c = { s.blk with plates := { s.blk.plates with images := c.plates.images } } ∧
      ∀ q : RegionId, c.region q =
        if q.part = p ∧ q.idx ∈ s.blk.liveRegions p ∧ (s.blk.region q).stage = n.val ∧ (s.blk.region q).state = .idle
          ∧ (s.blk.region q).done = false
        then { s.blk.region q with state := .running, cycle := 0 } else s.blk.region q) ∧
    (∀ (x : Fin 80) (y : Fin 64),
      (s.blk.regionAt (8 * x) (8 * y) = none → exec (.clusterComplete x y) s = .next s) ∧
      ∀ r, s.blk.regionAt (8 * x) (8 * y) = some r →
        (((s.blk.region r).state ≠ .halted ∨ s.blk.writesHanded x y = false) → exec (.clusterComplete x y) s = .next s) ∧
        ((s.blk.region r).state = .halted → s.blk.writesHanded x y = true → ∃ c,
          exec (.clusterComplete x y) s = .next { s with blk := c } ∧
          (∀ (i : Fin 80) (j : Fin 64), c.cluster i j =
            if i = x ∧ j = y then { s.blk.cluster x y with complete := true } else s.blk.cluster i j) ∧
          c.region r = { s.blk.region r with
            done := (s.blk.region r).done || (s.blk.region r).clusters.all (fun k => (c.cluster k.1 k.2).complete) })) ∧
    (∀ p : Fin 8, (((s.blk.image p).runCmd = none ∨ ∃ i ∈ s.blk.liveRegions p, (s.blk.region ⟨p, i⟩).done = false) →
        exec (.deviceCompletion p) s = .next s) ∧
      ∀ k q, (s.blk.image p).runCmd = some k → (∀ i ∈ s.blk.liveRegions p, (s.blk.region ⟨p, i⟩).done = true) →
        s.blk.runQueue p = some q →
        ∃ c, exec (.deviceCompletion p) s = .next { s with blk := c } ∧ (c.image p).runCmd = none ∧
          c = { s.blk with plates := { s.blk.plates with images := c.plates.images }, fe := { s.blk.fe with queues := c.fe.queues } })

/-- R96, R101: STREAM_BEAT_ARRIVAL and DESCRIPTOR_RETIRE. The model's own readings in it: log entry 31. -/
def Obligations.StreamsMoveBeats : Prop :=
  ∀ (s : State) (x : Fin 80) (y : Fin 64) (ch : Fin 4), s.Up →
    (∀ net, exec (.streamBeatArrival x y ch net) s = .next { s with
      blk := match (s.blk.beat s.env (s.blk.partOfPlate (plateOf (8 * x) (8 * y))) x y ch net).regionAt (8 * x) (8 * y) with
        | some r => (s.blk.beat s.env (s.blk.partOfPlate (plateOf (8 * x) (8 * y))) x y ch net).settleSignals s.env r
        | none => s.blk.beat s.env (s.blk.partOfPlate (plateOf (8 * x) (8 * y))) x y ch net }) ∧
    (((s.blk.cluster x y).chan ch).queue = [] → exec (.descriptorRetire x y ch) s = .next s) ∧
    (∀ f fs, ((s.blk.cluster x y).chan ch).queue = f :: fs →
      ((f.served < s.blk.flowBytes f ∨ (ch ≠ 3 ∧ ((s.blk.cluster x y).chan ch).taken < s.blk.flowBytes f)) →
        exec (.descriptorRetire x y ch) s = .next s) ∧
      (s.blk.flowBytes f ≤ f.served → (ch = 3 ∨ s.blk.flowBytes f ≤ ((s.blk.cluster x y).chan ch).taken) →
        ∃ c, exec (.descriptorRetire x y ch) s = .next { s with blk := s.blk.setCluster x y c } ∧
          c = { s.blk.cluster x y with chans := c.chans } ∧
          ∀ k : Fin 12, c.chan k = if k.val = ch.val
            then { (s.blk.cluster x y).chan ch with
              queue := fs, taken := ((s.blk.cluster x y).chan ch).taken - s.blk.flowBytes f }
            else (s.blk.cluster x y).chan k))

/-- R159, R163, R165, R166, R168, R169: a control message of the current epoch reaches the unit of its job. The model's own readings in it: log entries 35, 36. -/
def Obligations.GenerationMessagesAct : Prop :=
  ∀ (s : State) (p : Fin 8) (m : GenMsg) (q : Nat) (b : Block), s.Up →
    (b = s.blk.consumeGen 1 m → b.takes p m = some q →
      exec (.maxima p m) s = .next { s with
        blk := (b.modProto q (fun x => { x with
          maxGot := addOnce x.maxGot m.sender, maxima := mergeMax x.maxima (maximaOf m.data) })).progress s.env q }) ∧
    (b = s.blk.consumeGen 2 m → b.takes p m = some q →
      exec (.expose p m) s = .next { s with
        blk := (((b.sendGen s.env q 2 (b.children q) m).modAux q (fun a => { a with exposeBy := 0 })).takeExpose s.env q m.data).progress
          s.env q }) ∧
    (b = s.blk.consumeGen 3 m → b.takes p m = some q →
      exec (.ready p m) s = .next { s with
        blk := (b.modProto q (fun x => { x with
          readyGot := addOnce x.readyGot m.sender, readyOrd := x.readyOrd || bit m.flags 0
          readyPoison := x.readyPoison || bit m.flags 1 })).progress s.env q }) ∧
    (b = s.blk.consumeGen 4 m → b.takes p m = some q →
      exec (.order p m) s = .next { s with
        blk := if (b.gen q).regs.state = 2
          then b.takeOrder s.env q { tick := m.tick1, gate := m.tick2, orddep := bit m.flags 0 } else b }) ∧
    (b = s.blk.consumeGen 5 m → b.takes p m = some q →
      exec (.fixed p m) s = .next { s with
        blk := (b.modProto q (fun x => { x with fixedGot := addOnce x.fixedGot m.sender })).progress s.env q }) ∧
    (b = s.blk.consumeGen 6 m → b.takes p m = some q →
      exec (.confirm p m) s = .next { s with
        blk := if (b.gen q).aux.confirmed then b else (b.confirm s.env q).progress s.env q }) ∧
    (b = s.blk.consumeGen 7 m → b.takes p m = some q →
      (bit m.flags 2 = false → exec (.abort p m) s = .next { s with
        blk := b.abortLocal s.env q (m.data.getD 0 3) 0 (m.data.getD 2 0) false true }) ∧
      (bit m.flags 2 = true → exec (.abort p m) s = .next { s with
        blk := (b.abortLocal s.env q (m.data.getD 0 3) (m.data.getD 1 0) (m.data.getD 2 0) true true).genEvent s.env q 6 2
          (s.env.curGen q) [(32, 1, 2), (33, 1, m.data.getD 1 0)] })) ∧
    (b = s.blk.consumeGen 8 m → b.takes p m = some q → (b.gen q).regs.state = 5 →
      exec (.rewound p m) s = .next { s with
        blk := (b.onRewound s.env q m).1, cur := mset 0 s.cur q (b.onRewound s.env q m).2 }) ∧
    (b = s.blk.consumeGen 9 m → b.takes p m = some q → ((b.gen q).regs.state = 1 ∨ (b.gen q).regs.state = 5) →
      (b.gen q).proto.restart = none →
      exec (.restart p m) s = .next { s with
        blk := (b.onRestart s.env q m.gen2 m.tick1 (bit m.flags 2)).1
        cur := mset 0 s.cur q (b.onRestart s.env q m.gen2 m.tick1 (bit m.flags 2)).2 }) ∧
    (b = s.blk.consumeGen 10 m → b.takes p m = some q → (b.gen q).regs.state = 1 →
      exec (.loaded p m) s = .next { s with
        blk := (b.onLoaded s.env q m).1, cur := mset 0 s.cur q (b.onLoaded s.env q m).2 })

/-- R159: messages of another epoch, and of a job that is not held. The model's own readings in it: log entry 35. -/
def Obligations.GenerationMessagesWait : Prop :=
  ∀ (s : State) (p : Fin 8) (m : GenMsg) (n : Nat) (i : Instr) (b : Block), s.Up →
    (n, i) ∈ [(1, Instr.maxima p m), (2, .expose p m), (3, .ready p m), (4, .order p m), (5, .fixed p m), (6, .confirm p m),
      (7, .abort p m), (8, .rewound p m), (9, .restart p m), (10, .loaded p m)] →
    b = s.blk.consumeGen n m →
    (b.jobPart p m.job = none → exec i s = .next { s with
      blk := b.modRegs p (fun r => { r with staleMsg := min (r.staleMsg + 1) (2 ^ 48 - 1) }) }) ∧
    (∀ q, b.jobPart p m.job = some q → m.epoch ≠ (b.gen q).regs.epoch →
      (staleEpoch (b.gen q).regs.epoch m.epoch = true → exec i s = .next { s with
        blk := b.modRegs q (fun r => { r with staleMsg := min (r.staleMsg + 1) (2 ^ 48 - 1) }) }) ∧
      (staleEpoch (b.gen q).regs.epoch m.epoch = false → exec i s = .next { s with
        blk := b.modAux q (fun a => { a with early := a.early ++ [(n, m)] }) }))

/-- R15, R19, R149, R164, R165, R167, R171: FIX_TICK, STEP_GATE, RESTART_GATE and the timeouts of the generation unit. The model's own readings in it: log entries 2, 35. -/
def Obligations.FixAndGatesHappen : Prop :=
  ∀ (s : State) (p : Fin 8),
    (∀ s' o, s' = s.scheduled (s.blk.fixDue p) → s'.Up → (s'.blk.gen p).proto.order = some o → (s'.blk.gen p).regs.state = 3 →
      s'.blk.mayAgree s'.env p = true → o.tick ≤ s'.time.now →
      ∀ (b : Block) (e : Env), e = { s'.env with cur := mset 0 s'.cur p ((mget 0 s'.cur p + 1) % 2 ^ 48) } →
        b = s'.blk.fixNow e p o →
        exec (.fixTick p) s = .next { s' with
          blk := ((b.genEvent e p 1 0 (e.curGen p) [(32, 8, s'.time.now)]).appendLists p o.gate).progressFixed e p
          cur := mset 0 s'.cur p ((mget 0 s'.cur p + 1) % 2 ^ 48) } ∧
        (b.gen p).regs = { (s'.blk.gen p).regs with
          state := 4, prevIntact := !mget false s'.blk.int.currentPoison p
          orddep := (s'.blk.gen p).regs.orddep || o.orddep, fixTick := s'.time.now } ∧
        (b.gen p).proto = { (s'.blk.gen p).proto with order := none } ∧
        (b.gen p).aux.confirmed = false ∧ (b.gen p).aux.gateTick = o.gate) ∧
    (∀ s', s' = s.scheduled (s.blk.gateDue p) → s'.Up → s'.blk.gateOpens s'.env p = true →
      ((s'.blk.gen p).proto.restart = none → ((s'.blk.gen p).regs.state = 2 ∨ (s'.blk.gen p).regs.state = 4) →
        exec (.stepGate p) s = .next { s' with blk := s'.blk.openGate s'.env p }) ∧
      ((s'.blk.gen p).proto.restart ≠ none → ((s'.blk.gen p).regs.state = 1 ∨ (s'.blk.gen p).regs.state = 5) →
        exec (.restartGate p) s = .next { s' with
          blk := (s'.blk.modGen p (fun g => { g with
            regs := { g.regs with state := 2, visible := mget 0 s'.cur p }
            proto := { g.proto with restart := none, fixedGot := [], sentFixed := false }
            aux := { g.aux with confirmed := true, waitFrom := none } })).openGate s'.env p })) ∧
    (∀ s' t, s' = s.eventAt (s.blk.loadedDue p) → s'.Up → s'.blk.loadedDue p = some t → t ≤ s'.time.now →
      s'.blk.clk.pstate ≠ 2 → s'.blk.mayAgree s'.env p = true →
      exec (.loadedRepeat p) s = .next { s' with
        blk := (s'.blk.modAux p (fun a => { a with loadedAt := s'.time.now })).sendGen s'.env p 10 (s'.blk.parent p).toList
          { GenMsg.blank with
            gen := (s'.blk.gen p).job.g0
            flags := 8 * b2n ((s'.blk.gen p).proto.loaded.all (fun r => decide (r.2.1 = (s'.blk.gen p).job.g0) && r.2.2)) } }) ∧
    (∀ s' t, s' = s.eventAt (s.blk.orderDue p) → s'.Up → s'.blk.orderDue p = some t → t ≤ s'.time.now →
      exec (.orderTimeout p) s = .next { s' with blk := s'.blk.jobFault s'.env p 7 }) ∧
    (∀ s' t, s' = s.eventAt (s.blk.exposeDue p) → s'.Up → s'.blk.exposeDue p = some t → t ≤ s'.time.now →
      exec (.exposeTimeout p) s = .next { s' with blk := s'.blk.jobFault s'.env p 7 }) ∧
    (∀ s' t, s' = s.eventAt (s.blk.rejoinDue p) → s'.Up → s'.blk.rejoinDue p = some t → t ≤ s'.time.now →
      ((s'.blk.gen p).regs.state = 1 ∨ (s'.blk.gen p).regs.state = 5) → (s'.blk.gen p).proto.restart = none →
      exec (.rejoinTimeout p) s = .next { s' with blk := s'.blk.stopJob s'.env p 0 true })

/-- R179 to R182: PTP_SYNC, CT_MS_EDGE, HOLDOVER and HOLDOVER_LIMIT. The model's own readings in it: log entry 38. -/
def Obligations.TimebaseFollowsItsSources : Prop :=
  ∀ (s : State), s.Up →
    (∀ (us : Fin (2 ^ 64)) (f : Fin 65536),
      (∃ t, exec (.ptpSync us f) s = .next t ∧ t.pending = s.pending ∧
        t.time = if s.blk.tim.tstate ≤ 1 ∧ s.blk.tim.stepped = false ∧ s.time.now * 65536 + s.time.frac < us.val * 65536 + f.val
          then { now := us, frac := f } else s.time) ∧
      (2 ≤ s.blk.tim.tstate → exec (.ptpSync us f) s = .next { s with
        blk := (s.blk.modTim (fun t => { t with
          ptpOk := true
          offset := ((s.time.now * 65536 + s.time.frac : Nat) - (us.val * 65536 + f.val : Nat) : Int) * 1000 / 65536 })).tryLock s.env })) ∧
    (∀ (dev dis : Int) s', s' = s.eventAt (some (s.blk.tim.edgeAt s.time.now)) → s'.Up → 2 ≤ s.blk.tim.tstate →
      (¬ (s'.blk.tim.ptpOk = true ∧ 1000 < dis.natAbs) →
        exec (.ctMsEdge dev dis) s = .next { s' with
          blk := (s'.blk.setTim { s'.blk.tim with
            ctGood := if dev.natAbs ≤ 50 then s'.blk.tim.ctGood + 1 else 0, ctBad := 0, ctLast := s'.time.now
            ctOk := s'.blk.tim.ctOk || decide (16 ≤ if dev.natAbs ≤ 50 then s'.blk.tim.ctGood + 1 else 0) }).tryLock s'.env }) ∧
      (s'.blk.tim.ptpOk = true → 1000 < dis.natAbs → 3 ≤ s'.blk.tim.ctBad → s'.blk.tim.ctOk = true → ∃ b : Block,
        b.tim = { s'.blk.tim with ctGood := 0, ctBad := 0, ctLast := s'.time.now, ctOk := false } ∧
        b = { s'.blk with tim := b.tim } ∧
        exec (.ctMsEdge dev dis) s = .next { s' with blk := (b.timEvent s'.env 4 1 [(28, 4, twos 32 dis)]).tryLock s'.env })) ∧
    (∀ src : Fin 3,
      (s.blk.tim.tstate = 2 → exec (.holdover src) s = .next { s with
        blk := (s.blk.setTim { s.blk.tim with
          ptpOk := s.blk.tim.ptpOk && decide (src.val = 2), ctOk := s.blk.tim.ctOk && decide (src.val = 1)
          ctGood := if src.val = 1 then s.blk.tim.ctGood else 0
          tstate := 3, holdFrom := s.time.now }).timEvent s.env 2 1 [(28, 1, src.val)] }) ∧
      (s.blk.tim.tstate ≠ 2 → exec (.holdover src) s = .next { s with
        blk := s.blk.setTim { s.blk.tim with
          ptpOk := s.blk.tim.ptpOk && decide (src.val = 2), ctOk := s.blk.tim.ctOk && decide (src.val = 1)
          ctGood := if src.val = 1 then s.blk.tim.ctGood else 0 } })) ∧
    (∀ s', s' = s.eventAt s.blk.tim.holdDue → s'.Up → (s'.blk.tim.tstate = 3 ∨ s'.blk.tim.tstate = 4) →
      exec .holdoverLimit s = .next { s' with
        blk := (s'.blk.setTim { s'.blk.tim with tstate := 4, holdWarn := s'.time.now }).timEvent s'.env 3 1
          [(28, 8, (s'.time.now - s'.blk.tim.holdFrom) / 1000)] })

/-- R186, R187, R191, R192: GRID_SYNC_EDGE, GRID_LOST and GENERATED_MAINS_CYCLE. The model's own readings in it: log entry 39. -/
def Obligations.MainsCyclesEnd : Prop :=
  ∀ (s : State), s.Up →
    (s.blk.tim.gridLast = none → exec .gridSyncEdge s = .next { s with
      blk := s.blk.setTim { s.blk.tim with gridLast := some s.time.now, gridRun := 1, periods := [] } }) ∧
    (∀ a, s.blk.tim.gridLast = some a →
      ((s.time.now - a < 14000 ∨ 24000 < s.time.now - a) → exec .gridSyncEdge s = .next { s with
        blk := s.blk.setTim { s.blk.tim with gridRun := 0, counters := bump s.blk.tim.counters 0x130 1 } }) ∧
      (14000 ≤ s.time.now - a → s.time.now - a ≤ 24000 → ∃ b : Block,
        b = s.blk.setTim { s.blk.tim with
          gridLast := some s.time.now, gridRun := s.blk.tim.gridRun + 1
          periods := ((s.time.now - a) :: s.blk.tim.periods).take 8 } ∧
        (s.blk.tim.grid = true → exec .gridSyncEdge s = .next { s with blk := b.endCycle s.env }) ∧
        (s.blk.tim.grid = false → s.blk.tim.gridRun < 7 → exec .gridSyncEdge s = .next { s with blk := b }) ∧
        (s.blk.tim.grid = false → 7 ≤ s.blk.tim.gridRun → exec .gridSyncEdge s = .next { s with
          blk := (b.setTim { b.tim with grid := true }).timEvent s.env 6 0 [(28, 2, b.tim.period)] }))) ∧
    (∀ s', s' = s.eventAt (s.blk.tim.gridLast.map (fun a => a + 3 * s.blk.nominalPeriod)) → s'.Up → ∃ b : Block,
      b = s'.blk.setTim { s'.blk.tim with grid := false, gridLast := none, gridRun := 0, cycleAt := s'.time.now } ∧
      exec .gridLost s = .next { s' with blk := if s'.blk.tim.grid then b.timEvent s'.env 5 1 [] else b }) ∧
    (∀ s', s' = s.eventAt (some (s.blk.tim.cycleAt + s.blk.nominalPeriod)) → s'.Up →
      exec .generatedMainsCycle s = .next (if s'.blk.tim.grid then s' else { s' with blk := s'.blk.endCycle s'.env })) ∧
    (∀ (b : Block) (e : Env),
      (b.endCycle e).tim.cycleAt = e.clk.now ∧
      (b.endCycle e).tim.cycW = (if b.tim.cycN = 0 then b.tim.cycW else b.tim.cycSum / b.tim.cycN) ∧
      b.tim.floorNow - b.tim.slew ≤ (b.endCycle e).tim.floorNow ∧
      (b.tim.floorNow ≤ b.tim.floor → (b.endCycle e).tim.floorNow ≤ b.tim.floor))

/-- R188, R192, R200, R201, R432: POWER_SAMPLE, ESTIMATE_SCALE, BUDGET_DIVISION and FLAT_FIELD_OFFER. The model's own readings in it: log entries 18, 40, 67. -/
def Obligations.InputIsMeasured : Prop :=
  (∀ (s : State) (v i : Fin 65536), 7200 < v.val ∨ 20000 < i.val → exec (.powerSample v i) s = .fault .absoluteMaximum) ∧
  (∀ (s s' : State) (v i : Fin 65536) (b : Block), v.val ≤ 7200 → i.val ≤ 20000 →
    s' = s.eventAt (some (nextSlot 10 s.blk.tim.sampleAt s.time.now)) → s'.Up →
    b = s'.blk.setTim { s'.blk.tim with
      samples := ((v.val, i.val) :: s'.blk.tim.samples).take 100, sampleAt := s'.time.now
      cycSum := s'.blk.tim.cycSum + v.val * i.val / 10000, cycN := s'.blk.tim.cycN + 1 } →
    ((∀ c, b.tim.curtail = some c → c.started = true → b.tim.limit ≤ b.tim.mean100) →
      exec (.powerSample v i) s = .next { s' with blk := b.relimit s'.time.now }) ∧
    (∀ c, b.tim.curtail = some c → c.started = true → b.tim.mean100 < b.tim.limit →
      (c.missed = false → exec (.powerSample v i) s = .next { s' with
        blk := (b.setTim { b.tim with curtail := none }).relimit s'.time.now }) ∧
      (c.missed = true → exec (.powerSample v i) s = .next { s' with
        blk := (b.powered.foldl (fun (x : Block) p => x.setSwallow p (x.ratioNow p))
          (b.setTim { b.tim with curtail := none })).relimit s'.time.now }))) ∧
  (∀ (s s' : State) (est shares : List (Fin 65536)), s' = s.eventAt (some (s.slot 1000)) → s'.Up →
    ∃ m : SMap Nat,
      (∀ p < 8, mget 0 m p = ((s'.blk.platesOf p).map (fun k => scaled (est.map Fin.val) s'.blk.tim.msW k)).sum
        + (shares.map Fin.val).getD p 0) ∧
      exec (.estimateScale est shares) s = .next { s' with
        blk := s'.blk.setTim { s'.blk.tim with ppwr := m, msMeans := (s'.blk.tim.msW :: s'.blk.tim.msMeans).take 1000 } }) ∧
  (∀ (est : List Nat) (w p : Nat), est.sum ≠ 0 → scaled est w p = est.getD p 0 * w / est.sum) ∧
  (∀ (s s' : State) (pdev : Fin 65536) (needs : List (Fin 65536)), s' = s.eventAt (some (s.slot 10)) → s'.Up →
    ∃ b : Block, b = s'.blk.setTim { s'.blk.tim with pdev := pdev, parts := b.tim.parts } ∧
      (∀ p < 8, (b.partPower p).need = (needs.map Fin.val).getD p 0) ∧
      exec (.budgetDivision pdev needs) s = .next { s' with
        blk := b.divide.foldl (fun (b : Block) x =>
          let b := (b.setPartPower x.1 { b.partPower x.1 with budget := x.2 }).aim x.1
          if (b.partPower x.1).ratio.isSome then b
          else b.setSwallow x.1 (max (b.platePower ((b.platesOf x.1).headD 0)).swallow (b.ratioNow x.1))) b }) ∧
  (∀ (s s' : State) (proj : Fin 65536), s' = s.eventAt (some (s.slot 10)) → s'.Up →
    ∃ t, exec (.flatFieldOffer proj) s = .next t ∧ t = { s' with blk := t.blk } ∧
      (t.blk.tim.offering = true ↔
        (proj.val < s'.blk.tim.effFloor ∨ proj.val + s'.blk.tim.slew < s'.blk.tim.cycW)) ∧
      t.blk.tim.free = if proj.val < s'.blk.tim.effFloor ∨ proj.val + s'.blk.tim.slew < s'.blk.tim.cycW
        then s'.blk.freePlates else [])

/-- R190, R194, R195: the active limit, LEVEL_CHANGE, SWALLOW_START and CURTAIL_MISS. The model's own readings in it: log entry 40. -/
def Obligations.LimitsAreLeastAndCurtail : Prop :=
  (∀ (b : Block) (t0 : Nat),
    (b.relimit t0).tim.limit = min (b.tim.levels.getD b.tim.pinLevel 0) (min (if b.tim.cap = 0 then b.thermalLimit else b.tim.cap)
      (min (if b.tim.hostCap = 0 then b.thermalLimit else b.tim.hostCap) b.thermalLimit)) ∧
    ((b.relimit t0).tim.limit < b.tim.limit →
      (b.relimit t0).tim.curtail = some { t0 := t0, started := false, missed := false })) ∧
  (∀ (s s' : State) (level : Fin 8), s' = s.eventAt (some (s.time.now + 4)) → s'.Up →
    (level.val = s'.blk.tim.pinLevel → exec (.levelChange level) s = .next s') ∧
    (level.val ≠ s'.blk.tim.pinLevel → exec (.levelChange level) s = .next { s' with
      blk := ((s'.blk.setTim { s'.blk.tim with pinLevel := level }).relimit (s'.time.now - 4)).timEvent s'.env 7 0
        [(28, 1, s'.blk.tim.pinLevel), (29, 1, level.val), (32, 8, s'.time.now - 4)] })) ∧
  (∀ (s s' : State), s' = s.scheduled s.blk.tim.swallowDue → s'.Up →
    ((∀ c, s'.blk.tim.curtail = some c → c.started = true) → exec .swallowStart s = .next s') ∧
    (∀ c, s'.blk.tim.curtail = some c → c.started = false → ∃ b,
      exec .swallowStart s = .next { s' with blk := b } ∧
      b.tim.curtail = some { c with started := true } ∧
      ∀ p < 8, (b.partPower p).ratio = none ∧ ∀ k, k ∈ s'.blk.platesOf p →
        (∀ q < 8, k ∈ s'.blk.platesOf q → q = p) → (b.platePower k).swallow = ((s'.blk.partPower p).ratio).getD (s'.blk.platePower k).swallow)) ∧
  (∀ (s s' : State), s' = s.eventAt s.blk.tim.missDue → s'.Up →
    (s'.blk.tim.curtail = none ∨ s'.blk.tim.mean100 < s'.blk.tim.limit → exec .curtailMiss s = .next s') ∧
    (∀ c, s'.blk.tim.curtail = some c → c.missed = true → exec .curtailMiss s = .next s') ∧
    (∀ c, s'.blk.tim.curtail = some c → c.missed = false → s'.blk.tim.limit ≤ s'.blk.tim.mean100 → ∃ b : Block,
      b = s'.blk.setTim { s'.blk.tim with curtail := some { c with missed := true } } ∧
      exec .curtailMiss s = .next { s' with
        blk := (b.powered.foldl (fun (x : Block) p => x.setSwallow p 63) b).timEvent s'.env 9 3 [(32, 8, c.t0)] }))

/-- R194, R196, R362: PLL_LOCK, PLL_SWITCH, PLL_SWITCH_RETRY and VOLTAGE_STEP. The model's own readings in it: log entries 2, 40. -/
def Obligations.PllsLockAndSwitch : Prop :=
  (∀ (s : State) (n : Fin 28), s.Up → ∃ c : ClockUnit,
    c = { s.blk.clk with plls := mset {} s.blk.clk.plls n { mget ({} : Pll) s.blk.clk.plls n with
      lock := true, ready := true
      mhz := if (mget ({} : Pll) s.blk.clk.plls n).mhz = 0 then pllMhz n else (mget ({} : Pll) s.blk.clk.plls n).mhz } } ∧
    ∀ p, p = s.blk.partOfPlate (n.val / 2) →
      (n.val < 16 ∧ p < 8 ∧ (s.blk.partPower p).busy = true ∧ (s.blk.partPower p).switched = false ∧
          (s.blk.partPower p).retry = false ∧ (s.blk.setClk c).standbyReady p (s.blk.partPower p).target = true ∧
          mget none s.blk.clk.switches p = none →
        exec (.pllLock n) s = .next { s with blk := s.blk.setClk { c with
          switches := mset none c.switches p (some { fstep := (s.blk.partPower p).target, tick := s.time.now + 1, pf0 := false }) } }) ∧
      (¬ (n.val < 16 ∧ p < 8 ∧ (s.blk.partPower p).busy = true ∧ (s.blk.partPower p).switched = false ∧
          (s.blk.partPower p).retry = false ∧ (s.blk.setClk c).standbyReady p (s.blk.partPower p).target = true ∧
          mget none s.blk.clk.switches p = none) →
        exec (.pllLock n) s = .next { s with blk := s.blk.setClk c })) ∧
  (∀ (s s' : State) (p : Fin 8) (need : Fin 65536) (y : PartPower) (run : Option SwitchRun) (i : Instr),
    s'.Up → y = s'.blk.partPower p → run = mget none s'.blk.clk.switches p →
    ((i = .pllSwitch p need ∧ s' = s.scheduled ((mget none s.blk.clk.switches p).map SwitchRun.tick)) ∨
      (i = .pllSwitchRetry p need ∧ (s.blk.partPower p).retry = true ∧ s' = s.eventAt (some s.nextMs) ∧ y.retry = true)) →
    (run = none → (y.busy = false ∨ y.switched = true) → exec i s = .next s') ∧
    (∀ fstep pf0, (∀ r, run = some r → fstep = r.fstep ∧ pf0 = r.pf0) →
      (run = none → y.busy = true ∧ y.switched = false ∧ fstep = y.target ∧ pf0 = false) → ∃ b : Block,
      b = s'.blk.setClk { s'.blk.clk with switches := mset none s'.blk.clk.switches p none } ∧
      (∀ c, b.switchFault p fstep = some c →
        (pf0 = true → exec i s = .next { s' with blk := b.refuseSwitch s'.env p c }) ∧
        (pf0 = false → ∃ d, d = b.refuseSwitch s'.env p c ∧ exec i s = .next { s' with
          blk := (d.setSwallow p (max (d.platePower ((d.platesOf p).headD 0)).swallow (d.ratioNow p))).setPartPower p
            { y with retry := true } })) ∧
      (b.switchFault p fstep = none → ∃ d : Block,
        d = ((b.setClk { b.clk with switchPart := p, switchRes := 0 }).flipPlls p fstep).setPartPower p
          { y with need := need, switched := true, retry := false } ∧
        exec i s = .next { s' with
          blk := if y.rising then (if pf0 then d else d.setSwallow p (d.ratioNow p)).settled s'.env p
            else if pf0 then d else d.setSwallow p (d.ratioNow p) }))) ∧
  (∀ (s : State) (p : Fin 8) (need : Fin 65536), s.Up → (s.blk.partPower p).retry = false →
    exec (.pllSwitchRetry p need) s = .next s) ∧
  (∀ (s s' : State) (p : Fin 8) (need : Fin 65536), s' = s.eventAt (some (s.slot 1000)) → s'.Up →
    ((s'.blk.partPower p).busy = false ∨ (s'.blk.partPower p).rising = (s'.blk.partPower p).switched →
      exec (.voltageStep p need) s = .next s') ∧
    ((s'.blk.partPower p).busy = true → (s'.blk.partPower p).rising ≠ (s'.blk.partPower p).switched → ∃ b,
      exec (.voltageStep p need) s = .next { s' with blk := b } ∧
      ∀ k ∈ s'.blk.platesOf p, (b.platePower k).volt =
        stepVolt (s'.blk.platePower k).volt (s'.blk.voltOf (s'.blk.partPower p).target))) ∧
  (∀ v t, (v ≤ t → stepVolt v t = min t (v + 5)) ∧ (t ≤ v → stepVolt v t = max t (v - 5)))

/-- R198, R199, R203: the power directives, their effect and expiry, TIM_HOST_CAP and TIM_FLOOR. The model's own readings in it: log entry 40. -/
def Obligations.DirectivesApply : Prop :=
  (∀ (b : Block) (e : Env) (m : PowerMsg) (type : Nat) (vals : List Nat),
    b.directiveFault e m type vals = none ↔
      (m.magic = 0x44475044 ∧ m.ver = 1 ∧ m.spare = true ∧ m.key < 4 ∧ type ≠ 0x81 ∧ m.mac = true ∧
        mget 0 b.tim.seqs m.key ≤ m.seq ∧ 2 ≤ b.tim.tstate ∧ m.issue ≤ e.clk.now + 1000000 ∧ e.clk.now ≤ m.issue + 1000000 ∧
        b.targets m.target = true ∧ (type = 2 → ∀ w ∈ vals, w ≠ 0) ∧ (type = 3 → 50 ≤ vals.headD 0 ∧ vals.headD 0 ≤ 6900))) ∧
  (∀ (s : State) (m : PowerMsg) (w : Fin 65536) (ws : List (Fin 256)) (type : Nat) (vals : List Nat) (i : Instr), s.Up →
    (type, vals, i) ∈ [(1, [w.val], Instr.setCap m w), (2, ws.map Fin.val, .setShares m ws), (3, [w.val], .setSlew m w),
      (4, [w.val], .setFloor m w), (5, [], .query m), (0x81, [], .report m)] →
    (∀ r, s.blk.directiveFault s.env m type vals = some r → exec i s = .next { s with
      blk := (s.blk.bumpTim 0x120 1).timRare s.env 1000 0xD 1 [(28, 1, r), (32, 4, m.seq)] }) ∧
    (s.blk.directiveFault s.env m type vals = none → ∃ b : Block,
      b = s.blk.setTim { s.blk.tim with
        seqs := mset 0 s.blk.tim.seqs m.key (m.seq + 1), counters := bump s.blk.tim.counters 0x118 1 } ∧
      (type = 5 → exec i s = .next { s with blk := b.emit (.report m.key b.reportBytes) }) ∧
      (type ≠ 5 → (m.effect = 0 ∨ m.effect ≤ s.time.now) → exec i s = .next { s with
        blk := b.startSetting s.env { type := type, vals := vals, seq := m.seq, effect := m.effect, expire := m.expire } }) ∧
      (type ≠ 5 → s.time.now < m.effect → exec i s = .next { s with
        blk := b.setTim { b.tim with waiting := b.tim.waiting
          ++ [{ type := type, vals := vals, seq := m.seq, effect := m.effect, expire := m.expire }] } }))) ∧
  (∀ (b : Block) (w t0 : Nat),
    b.applySetting 1 [w] t0 =
      (b.setTim { b.tim with cap := if w = 0 then 0 else max w (b.tim.levels.headD 0) }).relimit t0 ∧
    b.applySetting 3 [w] t0 = b.setTim { b.tim with slew := w } ∧
    b.applySetting 4 [w] t0 = b.setTim { b.tim with floor := min w 6900 }) ∧
  (∀ (s s' : State), s' = s.scheduled s.blk.tim.effectDue → s'.Up →
    (∀ x, firstBy Setting.effect s'.blk.tim.waiting = some x → exec .directiveEffect s = .next { s' with
      blk := (s'.blk.setTim { s'.blk.tim with waiting := s'.blk.tim.waiting.erase x }).startSetting s'.env x }) ∧
    (s'.blk.tim.waiting = [] → exec .directiveEffect s = .next s')) ∧
  (∀ (s s' : State), s' = s.scheduled s.blk.tim.expireDue → s'.Up →
    (∀ x b, firstBy Setting.expire s'.blk.tim.lapses = some x →
      b = s'.blk.setTim { s'.blk.tim with lapses := s'.blk.tim.lapses.erase x } →
      (x.type = 1 → exec .directiveExpire s = .next { s' with blk := (b.setTim { b.tim with cap := 0 }).relimit s'.time.now }) ∧
      (x.type = 2 → exec .directiveExpire s = .next { s' with blk := b.setTim { b.tim with shares := [] } }) ∧
      (x.type = 3 → exec .directiveExpire s = .next { s' with blk := b.setTim { b.tim with slew := s'.blk.boot.profile.slew } }) ∧
      (3 < x.type → exec .directiveExpire s = .next { s' with
        blk := b.setTim { b.tim with floor := s'.blk.boot.profile.floor } })) ∧
    (s'.blk.tim.lapses = [] → exec .directiveExpire s = .next s')) ∧
  (∀ (s : State) (w : Fin (2 ^ 32)), s.HostUp →
    exec (.timHostCap w) s = .next { s with blk := (s.blk.setTim { s.blk.tim with
      hostCap := if w.val % 65536 = 0 then 0 else min 6900 (max (w.val % 65536) (s.blk.tim.levels.headD 0)) }).relimit s.time.now } ∧
    exec (.timFloor w) s = .next { s with blk := s.blk.setTim { s.blk.tim with floor := min (w.val % 65536) 6900 } })

/-- R158, R210, R215: MEM_WRITE inside one granule and MEM_READ. The model's own readings in it: log entries 6, 41. -/
def Obligations.MemoryHoldsWhatIsWritten : Prop :=
  ∀ (s : State) (q : Asker) (a : Fin (2 ^ 48)) (pa : Nat) (act : Bool), s.Up →
    (∀ (bs : List Byte) (poison cmpr : Bool), bs ≠ [] → bs.length ≤ 64 - a.val % 64 →
      s.blk.redirect s.env q.req true a = .go pa → s.blk.deadSlice pa = none →
      (∀ r, s.blk.accessFault q.req true pa = some r → ∃ t, exec (.memWrite q a bs poison cmpr act) s = .next t ∧
        t.time = s.time ∧ t.cur = s.cur ∧ t.pending = s.pending ∧ t.blk.mem.bytes = s.blk.mem.bytes) ∧
      (s.blk.accessFault q.req true pa = none → s.blk.guardOf pa = none → (∀ x ∈ s.blk.shc.adds, x.addr / 128 ≠ pa / 128) →
        ∃ t, exec (.memWrite q a bs poison cmpr act) s = .next t ∧ t.time = s.time ∧ t.cur = s.cur ∧ t.pending = s.pending ∧
          (poison = false → (mget false s.blk.mem.poison (pa / 64) = false ∨ bs.length = 64) →
            mget false t.blk.mem.poison (pa / 64) = false ∧
            ∀ x, mget 0 t.blk.mem.bytes x = if pa ≤ x ∧ x < pa + bs.length then bs.getD (x - pa) 0 else mget 0 s.blk.mem.bytes x) ∧
          (poison = true → mget false t.blk.mem.poison (pa / 64) = true ∧
            ∀ x, mget 0 t.blk.mem.bytes x = if x / 64 = pa / 64 then 0 else mget 0 s.blk.mem.bytes x) ∧
          (poison = false → mget false s.blk.mem.poison (pa / 64) = true → bs.length ≠ 64 →
            t.blk.mem.bytes = s.blk.mem.bytes ∧ mget false t.blk.mem.poison (pa / 64) = true))) ∧
    (s.blk.redirect s.env q.req false (a.val / 64 * 64) = .go pa → s.blk.deadSlice pa = none →
      (∀ r, s.blk.accessFault q.req false pa = some r → ∃ t l, exec (.memRead q a .clean act) s = .next t ∧
        t.blk.out = l ++ [.data q.id ((zeros 64).map (fun x => (x, true)))] ∧ t.blk.mem.bytes = s.blk.mem.bytes) ∧
      (s.blk.accessFault q.req false pa = none → (∀ x ∈ s.blk.shc.adds, x.addr / 128 ≠ pa / 128) →
        ∃ t l, exec (.memRead q a .clean act) s = .next t ∧ t.time = s.time ∧ t.cur = s.cur ∧ t.pending = s.pending ∧
          t.blk.out = l ++ [.data q.id (s.blk.seenBy q.req pa 64)] ∧ t.blk.mem.bytes = s.blk.mem.bytes ∧
          (s.blk.guardOf pa = none → s.blk.seenBy q.req pa 64 =
            if mget false s.blk.mem.poison (pa / 64) then (zeros 64).map (fun x => (x, true))
            else ((memBytes s.blk.mem.bytes pa 64).zip (List.range 64)).map
              (fun p => (exactByte s.blk.mem.ewa (pa + p.2) p.1, false)))))

/-- R215 to R224: ECC, write-back, scrub, refresh, temperature, skew, retraining, self-refresh. The model's own readings in it: log entries 22, 42. -/
def Obligations.ControllersCorrectAndWatch : Prop :=
  (∀ (b : Block) (e : Env) (p : Place) (a lane n : Nat),
    ((b.eccRead e p a (.corrected lane)).mem.bytes = b.mem.bytes ∧
      (b.eccRead e p a (.corrected lane)).mem.pendingWb = mset 0 b.mem.pendingWb (a / 64) 1 ∧
      ((b.eccRead e p a (.corrected lane)).stack (p.ch / 32)).counters = bump (b.stack (p.ch / 32)).counters 0x100 1) ∧
    (∀ g, g / 64 = a / 64 ∨ (g / 512 = a / 512 ∧ (a / 64 % 8 = 0 ∨ (mget ({} : CTag) b.mem.ctags (a / 512)).codec ≠ 0)) →
      mget false (b.eccRead e p a (.uncorrectable n)).mem.poison (g / 64) = true) ∧
    mget false (b.eccRead e p a .badTag).mem.poison (a / 64) = true) ∧
  (∀ (s : State) (q : Asker) (a : Fin (2 ^ 48)) (f : Ecc) (act : Bool), s.Up →
    (∃ t, exec (.memRead q a f act) s = .next t ∧ t.time = s.time ∧ t.cur = s.cur ∧ t.pending = s.pending) ∧
    (∃ b : Block, b = s.blk.setMem { s.blk.mem with pendingWb := mset 0 s.blk.mem.pendingWb (a.val / 64) 0 } ∧
      exec (.eccWriteback a) s = .next { s with
        blk := if mget 0 s.blk.mem.pendingWb (a.val / 64) = 2
          then b.bumpStack (((b.place a).map (fun p => p.ch / 32)).getD 0) 0x140 1 else b }) ∧
    (∀ p, s.blk.place s.blk.mem.scrubAt = some p → ∃ b, b = s.blk.eccRead s.env p s.blk.mem.scrubAt f ∧
      (∀ n, f = .uncorrectable n → ∃ c, c = b.placeEvent s.env 2 1 (b.ownerOf s.blk.mem.scrubAt) p s.blk.mem.scrubAt [] ∧
        exec (.patrolScrub f) s = .next { s with blk := c.setMem { c.mem with scrubAt := c.nextScrub s.blk.mem.scrubAt } }) ∧
      ((∀ n, f ≠ .uncorrectable n) →
        exec (.patrolScrub f) s = .next { s with blk := b.setMem { b.mem with scrubAt := b.nextScrub s.blk.mem.scrubAt } })) ∧
    (s.blk.place s.blk.mem.scrubAt = none → exec (.patrolScrub f) s = .next { s with
      blk := s.blk.setMem { s.blk.mem with scrubAt := s.blk.nextScrub s.blk.mem.scrubAt } }) ∧
    exec .refresh s = .next s) ∧
  (∀ (s : State) (k : Fin 16) (d : Int) (n sec : Nat) (b : Block), s.Up →
    n = refreshState (s.blk.stack k).tstate d → sec = s.time.now / 1000000 + 1 →
    b = s.blk.setStack k { s.blk.stack k with
      temp := twos 8 d, tstate := n, lastThrottleEvt := if n = 2 then sec else (s.blk.stack k).lastThrottleEvt } →
    (n ≠ (s.blk.stack k).tstate ∨ (n = 2 ∧ (s.blk.stack k).lastThrottleEvt ≠ sec) →
      exec (.temperatureRead k d) s = .next { s with
        blk := b.memEvent s.env (5 + n) (if n = 2 then 1 else 0) 15 k 0xFF 0xFF 0xFF 0 [(40, 1, twos 8 d)] }) ∧
    (n = (s.blk.stack k).tstate → (n = 2 → (s.blk.stack k).lastThrottleEvt = sec) →
      exec (.temperatureRead k d) s = .next { s with blk := b })) ∧
  (∀ (z : Nat) (d : Int), (95 ≤ d → refreshState z d = 2) ∧ (d < 95 → 92 < d → refreshState 2 d = 2) ∧
    (85 ≤ d → d ≤ 92 → refreshState z d = 1) ∧ (82 < d → d < 85 → refreshState z d = if 1 ≤ z then 1 else 0) ∧
    (d ≤ 82 → refreshState z d = 0)) ∧
  (∀ (s s' : State), s' = s.eventAt (some (s.slot 1000)) → s'.Up → ∃ m : Memory,
    exec .skewMillisecond s = .next { s' with blk := s'.blk.setMem m } ∧ m.skewMs = s'.blk.mem.skewMs + 1 ∧
    (∀ c, (mget ({} : MemChannel) m.chans c).served = 0) ∧
    m.skewedMs ≤ s'.blk.mem.skewedMs + 1 ∧ s'.blk.mem.skewMax ≤ m.skewMax ∧
    (((s'.blk.spanned).map (fun c => (s'.blk.memChan c).served)).sum = 0 →
      m.skewedMs = s'.blk.mem.skewedMs ∧ m.skewMax = s'.blk.mem.skewMax)) ∧
  (∀ (s s' : State), s' = s.eventAt (some (s.slot 1000000)) → s'.Up → ∃ b : Block,
    b.mem.skewMs = 0 ∧ b.mem.skewedMs = 0 ∧ b.mem.skewMax = 0 ∧ b = s'.blk.setMem b.mem ∧
    (s'.blk.mem.skewedMs < 500 → exec .skewedSecond s = .next { s' with blk := b }) ∧
    (500 ≤ s'.blk.mem.skewedMs → ∃ c, exec .skewedSecond s = .next { s' with
      blk := (b.bumpStack 0 0x128 1).memEvent s'.env 4 1 15 (c / 32) (c % 32) 0xFF 0xFF 0 [(40, 2, s'.blk.mem.skewMax)] })) ∧
  (∀ (s : State) (ch : Fin 512) (failed : Bool) (ls : List (Fin 1024)), s.Up →
    (bit (s.blk.stack (ch.val / 32)).insvc (ch.val % 32) = false ∨ bit (s.blk.stack (ch.val / 32)).fenced (ch.val % 32) = true ∨
      (s.blk.stack (ch.val / 32)).selfRefresh = true → exec (.channelRetrain ch failed ls) s = .next s) ∧
    (bit (s.blk.stack (ch.val / 32)).insvc (ch.val % 32) = true → bit (s.blk.stack (ch.val / 32)).fenced (ch.val % 32) = false →
      (s.blk.stack (ch.val / 32)).selfRefresh = false → ∃ b : Block,
      b = (((s.blk.memChan ch).laneDue ++ ls.map Fin.val).eraseDups).foldl (fun b l => b.repairLane s.env ch l)
        (s.blk.setChan ch { s.blk.memChan ch with
          laneDue := [], fails := if failed then (s.blk.memChan ch).fails + 1 else 0 }) ∧
      (failed = false → exec (.channelRetrain ch failed ls) s = .next { s with blk := b }) ∧
      (failed = true → (s.blk.memChan ch).fails < 2 →
        exec (.channelRetrain ch failed ls) s = .next { s with blk := b.bumpStack (ch.val / 32) 0x138 1 }) ∧
      (failed = true → 2 ≤ (s.blk.memChan ch).fails →
        exec (.channelRetrain ch failed ls) s = .next { s with blk := (b.bumpStack (ch.val / 32) 0x138 1).fence s.env ch }))) ∧
  (∀ (s : State) (k : Fin 16), s.Up →
    (s.blk.clk.pstate = 2 ∨ s.blk.clk.ret ≠ none ∨ (mget ({} : Dom) s.blk.clk.doms (48 + k.val)).state ≠ 0 ∨
      (mget ({} : Dom) s.blk.clk.doms (64 + k.val)).state ≠ 0 → exec (.selfRefreshExit k) s = .next s) ∧
    (s.blk.clk.pstate ≠ 2 → s.blk.clk.ret = none → (mget ({} : Dom) s.blk.clk.doms (48 + k.val)).state = 0 →
      (mget ({} : Dom) s.blk.clk.doms (64 + k.val)).state = 0 → exec (.selfRefreshExit k) s = .next { s with
        blk := s.blk.setStack k { s.blk.stack k with selfRefresh := false, trained := true } }))

/-- R212, R225, R226: TG_START, TG_DONE, MEM_CH_MAPOUT_PEND and MEM_PRANGE. The model's own readings in it: log entries 19, 42. -/
def Obligations.MemoryIsTestedAndPartitioned : Prop :=
  (∀ (s : State) (ch : Fin 512) (op : Fin 4) (pattern : Fin 8) (c : MemChannel) (b : Block), s.HostUp →
    c = s.blk.memChan ch → b = s.blk.setChan ch { c with tg := { c.tg with op := op, pattern := pattern } } →
    (c.tg.busy = true → exec (.tgStart ch op pattern) s = .next s) ∧
    (c.tg.busy = false → (op.val = 3 ∨ 5 ≤ pattern.val ∨ c.tg.count = 0 ∨ 25165824 < c.tg.count) →
      exec (.tgStart ch op pattern) s = .next { s with blk := b }) ∧
    (c.tg.busy = false → op.val ≠ 3 → pattern.val < 5 → 0 < c.tg.count → c.tg.count ≤ 25165824 →
      ((∃ p < 8, b.holdsJob p = true ∧ (b.mem.affine = true → b.holdsPlate p (ch.val / 64) = true)) →
        exec (.tgStart ch op pattern) s = .next { s with
          blk := (b.bumpStack (ch.val / 32) 0x148 1).memEvent s.env 15 1 15 (ch.val / 32) (ch.val % 32) 0xFF 0xFF 0 [] }) ∧
      (¬ (∃ p < 8, b.holdsJob p = true ∧ (b.mem.affine = true → b.holdsPlate p (ch.val / 64) = true)) →
        ∃ t, exec (.tgStart ch op pattern) s = .next t ∧ t = { s with blk := t.blk } ∧
          ∀ n, t.blk.memChan n = if n = ch.val then { c with tg := { c.tg with
            op := op, pattern := pattern, busy := true, done := false, errs := 0, lane0 := 0, lane1 := 0, first := 0xFFFFFFFF } }
            else s.blk.memChan n))) ∧
  (∀ (s : State) (ch : Fin 512) (errs : Nat) (l0 l1 first : Fin (2 ^ 32)) (c : MemChannel), s.Up → c = s.blk.memChan ch →
    (c.tg.busy = false → exec (.tgDone ch errs l0 l1 first) s = .next s) ∧
    (c.tg.busy = true → ∃ b : Block, b = (if c.tg.op = 1 then s.blk else s.blk.tgWrites s.env ch c.tg) ∧
      (c.tg.op = 0 → exec (.tgDone ch errs l0 l1 first) s = .next { s with
        blk := (b.setChan ch { b.memChan ch with tg := { c.tg with
          busy := false, done := true, errs := 0, lane0 := 0, lane1 := 0, first := 0xFFFFFFFF } }).memEvent
            s.env 14 0 15 (ch.val / 32) (ch.val % 32) 0xFF 0xFF 0 [(40, 6, 0)] }) ∧
      (c.tg.op ≠ 0 → exec (.tgDone ch errs l0 l1 first) s = .next { s with
        blk := (b.setChan ch { b.memChan ch with tg := { c.tg with
          busy := false, done := true, errs := min errs (2 ^ 48 - 1), lane0 := l0, lane1 := l1
          first := if errs = 0 then 0xFFFFFFFF else first } }).memEvent
            s.env 14 0 15 (ch.val / 32) (ch.val % 32) 0xFF 0xFF 0 [(40, 6, errs)] }))) ∧
  (∀ (s : State) (k : Fin 16) (mask : Fin (2 ^ 32)), s.HostUp →
    ∃ t, exec (.memChMapoutPend k mask) s = .next t ∧ t = { s with blk := t.blk } ∧
      (∀ n, t.blk.stack n = if n = k.val then { s.blk.stack k with mapoutPend := (s.blk.stack k).mapoutPend ||| mask.val }
        else s.blk.stack n) ∧
      (∀ c, c ∈ t.blk.boot.flash.mapout ↔
        c ∈ s.blk.boot.flash.mapout ∨ ∃ i < 32, bit mask i = true ∧ c = 32 * k.val + i)) ∧
  (∀ (s : State) (k : Fin 32) (base size : Fin 65536) (fits : Prop), s.HostUp →
    (fits ↔ s.blk.holdsJob (k.val / 4) = false ∧ (size.val = 0 ∨
      ((base.val + size.val) * 2 ^ 30 ≤ (s.blk.slots allStacks).length * s.blk.usable * 2048 ∧
        ∀ j < 32, j / 4 = k.val / 4 ∨ (mget ({} : PRange) s.blk.mem.pranges j).size = 0 ∨
          base.val + size.val ≤ (mget ({} : PRange) s.blk.mem.pranges j).base ∨
          (mget ({} : PRange) s.blk.mem.pranges j).base + (mget ({} : PRange) s.blk.mem.pranges j).size ≤ base.val))) →
    (fits → exec (.memPrange k base size) s = .next { s with
      blk := s.blk.setMem { s.blk.mem with pranges := mset {} s.blk.mem.pranges k { base := base, size := size } } }) ∧
    (¬ fits → exec (.memPrange k base size) s = .next { s with blk := s.blk.bumpStack 0 0x150 1 }))

/-- R231 to R237: WRITE, the reductions, and GV4ADD_DONE. The model's own readings in it: log entries 43, 44. -/
def Obligations.SlicesStoreAndReduce : Prop :=
  (∀ (s : State) (q : Asker) (a : Fin (2 ^ 48)) (bs : List (Byte × Bool)), s.Up →
    (∀ cmpr, exec (.write q cmpr a bs) s = .next { s with blk := s.blk.writeMem s.env q.req cmpr a bs }) ∧
    (∀ (fmt : Fin 32) (ex : Int) (rop : Nat) (x : Int) (i : Instr),
      (rop, x, i) ∈ [(1, ex, Instr.wset q fmt ex a bs), (2, ex, .wadd q fmt ex a bs), (9, 0, .fmax q fmt a bs), (10, 0, .fmin q fmt a bs),
        (11, 0, .fadd q fmt a bs), (12, 0, .gv4add q fmt a bs)] →
      (∀ f, Fmt.ofCode fmt = some f → exec i s = .next { s with
        blk := ((ropElems rop f bs).zip (List.range (ropElems rop f bs).length)).foldl
          (fun b p => b.reduceElem s.env q.req rop f x (a.val + ropTarget rop f * p.2) p.1.1 p.1.2.1 p.1.2.2) s.blk }) ∧
      (Fmt.ofCode fmt = none → exec i s = .next { s with blk := s.blk.ewaRefused s.env q.req rop 1 a })) ∧
    (∀ (rop : Nat) (i : Instr),
      (rop, i) ∈ [(3, Instr.iadd32 q a bs), (4, .iadd64 q a bs), (5, .smax64 q a bs), (6, .smin64 q a bs), (7, .umax64 q a bs), (8, .umin64 q a bs)] →
      exec i s = .next { s with
        blk := ((ropElems rop .fp32 bs).zip (List.range (ropElems rop .fp32 bs).length)).foldl
          (fun b p => b.reduceElem s.env q.req rop .fp32 0 (a.val + ropTarget rop .fp32 * p.2) p.1.1 p.1.2.1 p.1.2.2) s.blk }) ∧
    (s.blk.shc.adds = [] → exec .gv4addDone s = .next s) ∧
    (∀ x l, s.blk.shc.adds = x :: l → ∃ t, exec .gv4addDone s = .next t ∧ t = { s with blk := t.blk } ∧ t.blk.shc.adds = l ∧
      (x.poison = false → mget false s.blk.mem.poison (x.addr / 64) = false → t.blk.mem.bytes =
        putBytes s.blk.mem.bytes x.addr (leBytes 4 (fadd32 (leNat (memBytes s.blk.mem.bytes x.addr 4)) x.operand))))) ∧
  (∀ (b : Block) (e : Env) (q : Req) (rop : Nat) (fmt : Fmt) (ex : Int) (a pa raw scale w : Nat), 3 ≤ rop → rop ≤ 11 →
    ropTakes rop fmt = true → w = ropTarget rop fmt → w ≠ 64 → b.redirect e q true a = .go pa → b.accessFault q true pa = none →
    b.deadSlice pa = none → b.guardOf pa = none → mget false b.mem.poison (pa / 64) = false →
    (∀ x ∈ b.shc.adds, x.addr / 128 ≠ pa / 128) → pa % 64 + w ≤ 64 →
    ∀ y, mget 0 (b.reduceElem e q rop fmt ex a raw scale false).mem.bytes y =
      if pa ≤ y ∧ y < pa + w then (leBytes w (ropWord rop fmt (leNat ((b.readGranule pa w).map Prod.fst)) raw)).getD (y - pa) 0
      else mget 0 b.mem.bytes y) ∧
  (∀ (f : Fmt) (x y : Nat), ropWord 3 f x y = (x + y) % 2 ^ 32 ∧ ropWord 4 f x y = (x + y) % 2 ^ 64 ∧
    sext 64 (ropWord 5 f x y) = max (sext 64 x) (sext 64 y) ∧ sext 64 (ropWord 6 f x y) = min (sext 64 x) (sext 64 y) ∧
    ropWord 7 f x y = max x y ∧ ropWord 8 f x y = min x y)

/-- R53, R235: exact windowed accumulation does not depend on the order of its addends. The model's own readings in it: log entry 44. -/
def Obligations.ExactSumsIgnoreOrder : Prop :=
  (∀ (o : Int × Side) (l m : List (Sys2Proof.Machine.Num × Int × Option Nat)), l.Perm m →
    l.foldl (fun o x => ((exactAdd false o x.1 x.2.1 x.2.2).1, (exactAdd false o x.1 x.2.1 x.2.2).2.1)) o =
      m.foldl (fun o x => ((exactAdd false o x.1 x.2.1 x.2.2).1, (exactAdd false o x.1 x.2.1 x.2.2).2.1)) o) ∧
  (∀ (v : Int) (l : List Nat), (∀ r ∈ l, (acc96Of r).2 = .finite) →
    ((l.foldl (fun o r => ((exactAdd false o .nan 0 (some r)).1, (exactAdd false o .nan 0 (some r)).2.1)) (v, Side.finite)).1
      - (v + (l.map (fun r => (acc96Of r).1)).sum)) % 2 ^ 96 = 0)

/-- R239 to R244: ALLOC, the answers of the allocators, FREE, GIVE, zeroing, reclaim and the quotas. The model's own readings in it: log entry 45. -/
def Obligations.FramesAreGrantedAndReturned : Prop :=
  (∀ (s : State) (h : Fin 2) (reqs : List (Fin 65536 × Fin 16)) (b : Block), s.Up →
    b = s.blk.setAlloc h { s.blk.alloc h with
      pending := (s.blk.alloc h).pending ++ reqs.map (fun r => { id := r.1, part := r.2, forwarded := false }) } →
    (b.chosen (b.alloc h) = none → exec (.alloc h reqs) s = .next { s with blk := b }) ∧
    (∀ r c, b.chosen (b.alloc h) = some r →
      c = b.setAlloc h { b.alloc h with pending := dropReq r (b.alloc h).pending, pointer := (r.id + 1) % 65536 } →
      (r ∈ (b.alloc h).pending ∧ ∀ x ∈ (b.alloc h).pending, mget 0 b.shc.reclaiming x.part = 0 →
        (r.id + 65536 - (b.alloc h).pointer) % 65536 ≤ (x.id + 65536 - (b.alloc h).pointer) % 65536) ∧
      (c.mayGrant h (quotaIdx r.part) = true → ∃ d f, exec (.alloc h reqs) s = .next { s with blk := d } ∧
        d.frame f = { state := 1, owner := r.id, part := r.part } ∧ ∀ g, g ≠ f → d.frame g = s.blk.frame g) ∧
      (c.mayGrant h (quotaIdx r.part) = false → ∃ d, d = (if 0 < (b.alloc h).free then c.bumpShc 0x618 1 else c) ∧
        (r.forwarded = false → exec (.alloc h reqs) s = .next { s with
          blk := d.setAlloc (1 - h.val) { d.alloc (1 - h.val) with
            forwardedIn := (d.alloc (1 - h.val)).forwardedIn ++ [{ r with forwarded := true }] } }) ∧
        (r.forwarded = true → exec (.alloc h reqs) s = .next { s with
          blk := (d.bumpShc 0x610 1).setAlloc h { d.alloc h with
            answers := (d.alloc h).answers ++ [{ id := r.id, part := r.part, frame := none, stamp := d.shc.credit }] } })))) ∧
  (∀ (s : State) (h : Fin 2), s.Up →
    ((s.blk.alloc h).forwardedIn = [] → exec (.forwardedAlloc h) s = .next s) ∧
    (∀ r l, (s.blk.alloc h).forwardedIn = r :: l → exec (.forwardedAlloc h) s = .next { s with
      blk := s.blk.setAlloc h { s.blk.alloc h with forwardedIn := l, pending := (s.blk.alloc h).pending ++ [r] } }) ∧
    ((s.blk.alloc h).answers = [] → exec (.poolEmptyAnswer h) s = .next s) ∧
    (∀ r l b, (s.blk.alloc h).answers = r :: l → b = s.blk.setAlloc h { s.blk.alloc h with answers := l } →
      (r.stamp < s.blk.shc.credit → exec (.poolEmptyAnswer h) s = .next { s with blk := b.reenter r }) ∧
      (s.blk.shc.credit ≤ r.stamp → exec (.poolEmptyAnswer h) s = .next { s with
        blk := b.setAlloc (homeHub r.id) { b.alloc (homeHub r.id) with waiting := (b.alloc (homeHub r.id)).waiting ++ [r] } })) ∧
    exec (.creditReentry h) s = .next { s with
      blk := ((s.blk.alloc h).waiting.filter (fun r => decide (r.stamp < s.blk.shc.credit))).foldl (fun b r => b.reenter r)
        (s.blk.setAlloc h { s.blk.alloc h with
          waiting := (s.blk.alloc h).waiting.filter (fun r => !decide (r.stamp < s.blk.shc.credit)) }) }) ∧
  (∀ (s : State) (id : Fin 65536) (part : Fin 16) (f : Fin 65536) (id2 : Fin 65536) (part2 : Fin 16) (x : Frame), s.Up →
    x = s.blk.frame f →
    ((x.state ≠ 1 ∨ x.owner ≠ id.val ∨ x.part ≠ part.val) →
      (∃ t, exec (.free id part f) s = .next t ∧ t = { s with blk := t.blk } ∧ t.blk.shc.frames = s.blk.shc.frames ∧
        t.blk.shc.allocs = s.blk.shc.allocs) ∧
      (∃ t, exec (.give id part f id2 part2) s = .next t ∧ t = { s with blk := t.blk } ∧ t.blk.shc.frames = s.blk.shc.frames ∧
        t.blk.shc.allocs = s.blk.shc.allocs)) ∧
    (x.state = 1 → x.owner = id.val → x.part = part.val →
      exec (.free id part f) s = .next { s with blk := s.blk.toZeroing f } ∧
      (part2.val ≠ part.val → part2.val ≠ 15 → ∃ t, exec (.give id part f id2 part2) s = .next t ∧
        t = { s with blk := t.blk } ∧ t.blk.shc.frames = s.blk.shc.frames) ∧
      (part2.val = part.val ∨ part2.val = 15 → ∃ t, exec (.give id part f id2 part2) s = .next t ∧
        t = { s with blk := t.blk } ∧
        ∀ g, t.blk.frame g = if g = f.val then { state := 1, owner := id2, part := part2 } else s.blk.frame g))) ∧
  (∀ (b : Block) (f g : Nat), (b.toZeroing f).frame g = if g = f then { state := 2, owner := 0, part := 0 } else b.frame g) ∧
  (∀ (s : State) (f : Fin 65536), s.Up →
    ((s.blk.frame f).state ≠ 2 → exec (.frameZeroingDone f) s = .next s) ∧
    ((s.blk.frame f).state = 2 → ∃ t, exec (.frameZeroingDone f) s = .next t ∧ t = { s with blk := t.blk } ∧
      t.blk.shc.credit = s.blk.shc.credit + 1 ∧ (∀ g, t.blk.frame g = if g = f.val then {} else s.blk.frame g) ∧
      ∀ a, mget 0 t.blk.mem.bytes a = if frameAddr f ≤ a ∧ a < frameAddr f + 0x4000 then 0 else mget 0 s.blk.mem.bytes a)) ∧
  (∀ (s : State) (p : Fin 8), s.Up →
    (mget 0 s.blk.shc.reclaiming p.val = 0 → exec (.framesReclaimed p) s = .next s) ∧
    (∀ why, mget 0 s.blk.shc.reclaiming p.val = why + 1 →
      exec (.framesReclaimed p) s = .next { s with blk := s.blk.reclaim s.env p why })) ∧
  (∀ (s : State) (i : Fin 9) (n : Fin (2 ^ 32)) (b c : Block), s.HostUp →
    b = { s.blk with shc := { s.blk.shc with min := mset 0 s.blk.shc.min i (n.val % 2 ^ 17) } } →
    c = { s.blk with shc := { s.blk.shc with max := mset 65536 s.blk.shc.max i (min (n.val % 2 ^ 17) 65536) } } →
    (b.quotaFits = true → exec (.shcFqMin i n) s = .next { s with blk := b.quotaCredit s.blk }) ∧
    (b.quotaFits = false → exec (.shcFqMin i n) s = .next { s with
      blk := (s.blk.bumpShc 0x620 1).post s.env { cls := 5, sev := 1, code := 0x104, part := 15, source := 0x18, payload := [(28, 1, i.val), (32, 4, n.val % 2 ^ 17)] } }) ∧
    exec (.shcFqMax i n) s = .next { s with blk := c.quotaCredit s.blk })

/-- R250 to R255: the states of a port and of its direction. The model's own readings in it: log entries 47, 48. -/
def Obligations.PortsTrain : Prop :=
  (∀ (s : State) (n : Fin 36) (on : Bool) (p : Port), s.HostUp → p = s.blk.port n →
    (exec (.clEnable n true) s = .next { s with blk := s.blk.setPort n { p with
      enable := true, passes := if p.enable then p.passes else 0, state := if p.state = 0 then 1 else p.state } }) ∧
    (∃ b, b = s.blk.setPort n { p with enable := false, state := 0, lanes := 0 } ∧
      exec (.clEnable n false) s = .next { s with
        blk := (if p.active then b.moveAway n else b).noteDown s.env (portDir n) }) ∧
    (∃ b, b = s.blk.setPort n { p with forceX2 := on } ∧
      (on = true → (b.port n).state = 5 → exec (.forceX2 n on) s = .next { s with blk := b.degrade s.env n 0xFF }) ∧
      (on = false ∨ (b.port n).state ≠ 5 → exec (.forceX2 n on) s = .next { s with blk := b }))) ∧
  (∀ (s : State) (n : Fin 36) (lanes : Fin 16) (lane : Fin 4) (p : Port), s.Up → s.blk.crosses n = true → p = s.blk.port n →
    exec (.laneSignalDetect n lanes) s = .next { s with
      blk := s.blk.setPort n (if p.state = 1 ∧ 2 ≤ laneCount lanes then { p with state := 2 } else p) } ∧
    exec (.equaliseDone n) s = .next { s with
      blk := s.blk.setPort n (if p.state = 2 ∨ p.state = 7 then { p with state := 3 } else p) } ∧
    (p.state ≠ 3 → exec (.alignDone n lanes) s = .next s) ∧
    (p.state = 3 → ∃ b, b = s.blk.setPort n { p with state := 4, good := lanes.val &&& (15 - p.bad % 16) } ∧
      exec (.alignDone n lanes) s = .next { s with
        blk := b.sendPlain n { Flit.idle with ftype := 4, payload := b.initBytes n } }) ∧
    (p.state ≠ 2 → p.state ≠ 3 → p.state ≠ 4 → p.state ≠ 7 → exec (.trainingTimeout n) s = .next s) ∧
    (p.state = 2 ∨ p.state = 3 ∨ p.state = 4 ∨ p.state = 7 → ∃ b : Block,
      b = (s.blk.setPort n { p with passes := p.passes + 1, state := 7, lanes := 0 }).bumpPort n 0x178 1 ∧
      (p.passes < 2 → exec (.trainingTimeout n) s = .next { s with blk := b }) ∧
      (2 ≤ p.passes → exec (.trainingTimeout n) s = .next { s with
        blk := (b.setPort n { b.port n with state := 9 }).portEvent s.env n 6 2 [] })) ∧
    (p.state = 5 → exec (.laneDegrade n lane) s = .next { s with blk := s.blk.degrade s.env n lane }) ∧
    (p.state ≠ 5 → exec (.laneDegrade n lane) s = .next s)) ∧
  (∀ (s : State) (n : Fin 36), s.Up → exec (.cablingChange n) s = .next { s with
    blk := s.blk.setPort n (if (s.blk.port n).state = 8 then { s.blk.port n with state := 1 } else s.blk.port n) }) ∧
  (∀ (s s' : State) (n : Fin 36), s' = s.eventAt (s.blk.port n).upgradeDue → s'.Up →
    ((s'.blk.port n).upgradeDue = none → exec (.upgradeAttempt n) s = .next s') ∧
    ((s'.blk.port n).upgradeDue ≠ none → exec (.upgradeAttempt n) s = .next { s' with
      blk := (s'.blk.setPort n { s'.blk.port n with x2 := false, bad := 0, upgrading := true }).enterRetrain s'.env n 1 })) ∧
  (∀ (s s' : State) (d : Fin 6), s' = s.eventAt (s.blk.link.lostDue d) → s'.Up →
    (s'.blk.link.lostDue d = none ∨ (dirPorts d).any (fun n => (s'.blk.port n).active) = true →
      exec (.directionLost d) s = .next s') ∧
    (s'.blk.link.lostDue d ≠ none → (dirPorts d).any (fun n => (s'.blk.port n).active) = false →
      ∃ b : Block, exec (.directionLost d) s = .next { s' with blk := (b.tellAll s'.env 1 d).peersLost s'.env b.topo.self d } ∧
        b.link.lost = s'.blk.link.lost + 2 ^ d.val ∧ mget [] b.link.held d.val = [] ∧
        ∀ n ∈ dirPorts d, (b.port n).waiting = [] ∧ (b.port n).replay = []))

/-- R254, R256 to R262, R365: arriving flits. The model's own readings in it: log entries 46, 47, 48. -/
def Obligations.FlitsArriveInOrder : Prop :=
  (∀ (b : Block) (e : Env) (n : Nat) (a : Arrival),
    ((b.port n).state < 4 ∨ 6 < (b.port n).state → b.arrive e n a = (b, false)) ∧
    (a.lost ≠ 0 ∨ a.flit.ok = false → (b.arrive e n a).2 = false) ∧
    ((b.inOrder e n a.flit).2 = decide (a.flit.seq = (b.port n).rxSeq)) ∧
    (((b.inOrder e n a.flit).1.port n).rxSeq =
      if a.flit.seq = (b.port n).rxSeq then ((b.port n).rxSeq + 1) % 4096 else (b.port n).rxSeq)) ∧
  (∀ (s : State) (n : Fin 36) (a : Arrival), s.Up →
    (s.blk.crosses n = false → ∀ i ∈ [Instr.idle n a, .data n a, .dropped n a, .resume n a, .init n a, .retrainReq n a, .nak n a],
      exec i s = .next { s with blk := s.blk.guardDrop (portDom n) }) ∧
    (s.blk.crosses n = true → ∀ r : Block × Bool, r = s.blk.arrive s.env n a →
      exec (.idle n a) s = .next { s with blk := r.1 } ∧
      (∀ (f : Block → Block) (i : Instr),
        (i = .data n a ∧ f = fun b => b.takeData s.env n a.flit) ∨ (i = .dropped n a ∧ f = fun b => b.takeDropped s.env n a.flit) ∨
          (i = .resume n a ∧ f = fun b => b.takeResume n a.flit) →
        (r.2 = false → exec i s = .next { s with blk := r.1 }) ∧
        (r.2 = true → a.flit.seq ≠ (r.1.port n).rxSeq → exec i s = .next { s with blk := (r.1.inOrder s.env n a.flit).1 }) ∧
        (r.2 = true → a.flit.seq = (r.1.port n).rxSeq →
          exec i s = .next { s with blk := (f (r.1.inOrder s.env n a.flit).1).answer n })) ∧
      (r.2 = true → (r.1.port n).state = 4 → exec (.init n a) s = .next { s with blk := r.1.takeInit s.env n a.flit.payload }) ∧
      (r.2 = false ∨ (r.1.port n).state ≠ 4 → exec (.init n a) s = .next { s with blk := r.1 }) ∧
      (r.2 = true → (r.1.port n).active = true → exec (.retrainReq n a) s = .next { s with blk := r.1.enterRetrain s.env n 1 }) ∧
      (r.2 = false ∨ (r.1.port n).active = false →
        exec (.retrainReq n a) s = .next { s with blk := r.1 } ∧ exec (.nak n a) s = .next { s with blk := r.1 }) ∧
      (r.2 = true → (r.1.port n).active = true → ∀ p, p = r.1.port n →
        (findIdxFrom (fun (f : TxFlit) => decide (f.flit.seq = leAt a.flit.payload 0 2 % 4096)) 0 p.replay = none →
          exec (.nak n a) s = .next { s with blk := r.1.enterRetrain s.env n 1 }) ∧
        (∀ k f, findIdxFrom (fun (f : TxFlit) => decide (f.flit.seq = leAt a.flit.payload 0 2 % 4096)) 0 p.replay = some k →
          p.replay[k]? = some f →
          (f.tries < 8 → exec (.nak n a) s = .next { s with
            blk := ((r.1.setPort n { p with replay := p.replay.set k { f with tries := f.tries + 1 } }).bumpPort n 0x138 1).resend n k }) ∧
          (8 ≤ f.tries → f.flit.ftype = 1 → exec (.nak n a) s = .next { s with
            blk := (((r.1.setPort n { p with replay := p.replay.set k (p.dropFlit f) }).bumpPort n 0x140 1).bumpPort n 0x138 1).resend n k }) ∧
          (8 ≤ f.tries → f.flit.ftype ≠ 1 → exec (.nak n a) s = .next { s with blk := r.1.enterRetrain s.env n 1 }))))) ∧
  (∀ (s s' : State) (n : Fin 36), s' = s.eventAt (s.blk.port n).nakDue → s'.Up →
    ((s'.blk.port n).nakOpen = true → (s'.blk.port n).active = true →
      exec (.nakRetryTimeout n) s = .next { s' with blk := s'.blk.sendNak s'.env n }) ∧
    ((s'.blk.port n).nakOpen = false ∨ (s'.blk.port n).active = false → exec (.nakRetryTimeout n) s = .next s'))

/-- R255, R261, R270 to R274: messages at their destination. The model's own readings in it: log entry 47. -/
def Obligations.MessagesAreCheckedAndApplied : Prop :=
  (∀ (b : Block) (m : Msg),
    (b.msgCheck m = none ↔ m.dpart < 8 ∧ b.holdsJob m.dpart = true ∧ (b.gen m.dpart).regs.jobId = m.job ∧
      m.epoch = (b.gen m.dpart).regs.epoch ∧
      ((m.ordered = true ∧ m.mtype = 0) ∨
        (b.spanInPart m.dpart m.addr m.span = true ∧ (m.mtype = 1 ∨ b.ropValid m = true)))) ∧
    (m.dpart < 8 → b.holdsJob m.dpart = true → (b.gen m.dpart).regs.jobId = m.job → m.epoch ≠ (b.gen m.dpart).regs.epoch →
      b.msgCheck m = some 2)) ∧
  (∀ (s : State) (n : Fin 37) (m : Msg), s.Up →
    (s.blk.crosses n = false → ∀ i ∈ [Instr.put n m, .getReq n m, .getRsp n m, .refused n m, .mgmtDirectionLost n m,
        .mgmtDirectionRestored n m],
      exec i s = .next { s with blk := s.blk.guardDrop (portDom n) }) ∧
    (s.blk.crosses n = true → ∀ b : Block, b = s.blk.consume m →
      (∀ i ∈ [Instr.put n m, .getRsp n m],
        (∀ c, b.msgCheck m = some c → exec i s = .next { s with blk := b.refuseMsg s.env n c m }) ∧
        (b.msgCheck m = none →
          (m.ordered = true → m.mtype = 0 → exec i s = .next { s with blk := b.putOrdered s.env n m }) ∧
          ((m.ordered = false ∨ m.mtype ≠ 0) → b.writeWaits s.env (portReq n m.dpart 2) m.addr = true →
            exec i s = .next { s with blk := (b.noteWait s.env (portReq n m.dpart 2) m.addr).keepMsg n m }) ∧
          ((m.ordered = false ∨ m.mtype ≠ 0) → b.writeWaits s.env (portReq n m.dpart 2) m.addr = false →
            exec i s = .next { s with
              blk := (b.reduceMem s.env (portReq n m.dpart 2) m.rop m.fmt m.exposure (bit m.flags 0) m.addr m.data).signalMsg s.env n m }))) ∧
      (∀ c, b.msgCheck m = some c → exec (.getReq n m) s = .next { s with blk := b.refuseMsg s.env n c m }) ∧
      (b.msgCheck m = none → ∀ r, r = b.readMem s.env (portReq n m.dpart 0) m.addr m.length → ∃ x : Msg,
        exec (.getReq n m) s = .next { s with blk := r.1.sendMsg s.env x } ∧
        x.mtype = 2 ∧ x.dst = m.src ∧ x.data = r.2 ∧ x.length = r.2.length ∧ x.addr = leAt (m.data.map Prod.fst) 0 6 ∧
        x.spart = m.dpart % 16 ∧ x.dpart = m.spart % 16) ∧
      exec (.refused n m) s = .next { s with
        blk := b.refusedEvent s.env n m.dpart (leAt (m.data.map Prod.fst) 32 1) ((m.data.map Prod.fst).take 32) } ∧
      (∀ code dir dev, code = leAt (m.data.map Prod.fst) 0 1 → dir = leAt (m.data.map Prod.fst) 1 1 →
        dev = leAt (m.data.map Prod.fst) 2 2 % 1024 →
        (code ≠ 1 → exec (.mgmtDirectionLost n m) s = .next { s with blk := b.bumpPort (min n.val 35) 0x1B0 1 }) ∧
        (code = 1 → ∃ c : Block, c = b.bumpLink 0x2110 1 ∧ exec (.mgmtDirectionLost n m) s = .next { s with
          blk := Block.peersLost { c with link := { c.link with remote := addPair (dev, dir) c.link.remote } } s.env dev dir }) ∧
        (code ≠ 2 → exec (.mgmtDirectionRestored n m) s = .next { s with blk := b.bumpPort (min n.val 35) 0x1B0 1 }) ∧
        (code = 2 → exec (.mgmtDirectionRestored n m) s = .next { s with
          blk := { b with link := { b.link with remote := b.link.remote.erase (dev, dir) } } })))) ∧
  (∀ (b : Block) (e : Env) (n : Nat) (m : Msg), m.qseq ≠ mget 0 b.msgs.nextSeq m.seqKey →
    (b.putOrdered e n m).msgs.early = if b.msgs.early.contains m then b.msgs.early else b.msgs.early ++ [m])

/-- R281, R283 to R285, R288: the parts of a collective command, and the chains that they work on. The model's own readings in it: log entry 49. -/
def Obligations.CollectivesSplitAndStart : Prop :=
  (∀ (s : State) (q : Fin 256), s.Up →
    (s.blk.activeColl q = none → exec (.coll q) s = .next s) ∧
    (∀ r, s.blk.activeColl q = some r →
      ((s.blk.collCmd q r.seq).isSome = true → exec (.coll q) s = .next s) ∧
      (s.blk.collCmd q r.seq = none → ∀ (lead : Nat) (d : Block × List Byte), lead = (s.blk.queue q).engine - 40 →
        d = s.blk.readArg s.env (2 * 8192 + lead) (s.blk.queue q) r 64 →
        ∃ t, exec (.coll q) s = .next t ∧ t = { s with blk := { d.1 with coll := t.blk.coll } } ∧
          t.blk.coll.cmds = d.1.coll.cmds ++ [{ queue := q, seq := r.seq, part := r.part, block := CollBlock.ofBytes d.2 }] ∧
          ∀ x p, mget [] (t.blk.ce x).queued p = mget [] (d.1.ce x).queued p ++
            (if p = r.part ∧ x ∈ (CollBlock.ofBytes d.2).engines d.1.topo lead then [{ queue := q, seq := r.seq }] else [])))) ∧
  (∀ (s : State) (x : Fin 6) (p : Fin 8) (act : List CollPart), s.Up → act = mget [] (s.blk.ce x).active p →
    (mget [] (s.blk.ce x).queued p = [] ∨ 2 ≤ act.length ∨ act.all (fun a => s.blk.partSpent x a) = false →
      exec (.collectivePartStart x p) s = .next s) ∧
    (∀ c rest cmd, mget [] (s.blk.ce x).queued p = c :: rest → act.length < 2 → act.all (fun a => s.blk.partSpent x a) = true →
      s.blk.collCmd c.queue c.seq = some cmd →
      (∀ n, cmd.block.fault s.blk.topo (s.blk.gen p).job.devices = some n → exec (.collectivePartStart x p) s = .next { s with
        blk := s.blk.refuseColl s.env x p c cmd.block.sig n }) ∧
      (cmd.block.fault s.blk.topo (s.blk.gen p).job.devices = none → ∃ b t : Block, ∃ cmd' : CollCmd,
        b = s.blk.setCe x { s.blk.ce x with
          queued := mset [] (s.blk.ce x).queued p rest
          active := mset [] (s.blk.ce x).active p (act ++ [{ c with num := some (mget 0 (s.blk.ce x).seqs p) }])
          seqs := mset 0 (s.blk.ce x).seqs p ((mget 0 (s.blk.ce x).seqs p + 1) % 2 ^ 32) } ∧
        cmd' = (if cmd.started then cmd else
          { cmd with started := true, exposure := b.slotExposure s.env p cmd.block.expSlot, phase := 0
                     todo := (((cmd.block.plan b.topo).head?).map CollStep.incoming).getD 0 }) ∧
        t = (if cmd.started then b.setCmd cmd' else (b.setCmd cmd').beginData s.env x p cmd') ∧
        exec (.collectivePartStart x p) s = .next { s with
          blk := ((List.range (cmd.block.plan b.topo).length).zip (cmd.block.plan b.topo)).foldl (fun t q =>
            if q.2.dim ≠ x.val / 2 then t
            else match cmd.block.half q.2 (x.val % 2) with
              | none => t
              | some half => q.2.segs.foldl (fun t j =>
                  if (if q.2.kind = 3 then (q.2.c + q.2.s - j) % q.2.s ≠ 0 ∧
                      goesPlus q.2.s ((q.2.c + q.2.s - j) % q.2.s) = decide (x.val % 2 = 0) else q.2.pos (x.val % 2) j ≠ 0)
                  then t.grantCredit s.env x p cmd.block (mget 0 (s.blk.ce x).seqs p) q.2 q.1 (x.val % 2) half j 8 else t) t) t }))) ∧
  (∀ (st : CollStep) (m j : Nat), st.kind = 0 → 2 ≤ st.s → st.c < st.s → j < st.s →
    st.pos m j < st.s ∧ (st.pos m j = st.s - 1 ↔ st.c = j) ∧
    (st.c ≠ j → ({ st with c := st.nextC m } : CollStep).pos m j = st.pos m j + 1))

/-- R285 to R289, R292 to R294: the operations, the segments that arrive, and the sums. The model's own readings in it: log entry 49. -/
def Obligations.CollectivesExchange : Prop :=
  (∀ (s : State) (x : Fin 6) (p : Fin 8), s.Up →
    (∀ (op : Nat) (i : Instr), (op, i) ∈ [(0, Instr.reduceScatter x p), (1, .allGather x p), (2, .allReduce x p), (3, .broadcast x p), (4, .allToAll x p)] →
      exec i s = .next { s with blk := (s.blk.partsWithOp x p op).foldl (fun b c => b.advanceColl s.env c.queue c.seq) s.blk }) ∧
    (s.blk.partsWithOp x p 5 = [] → exec (.send x p) s = .next s) ∧
    (s.blk.partsWithOp x p 6 = [] → exec (.recv x p) s = .next s) ∧
    (∀ c cmd r, s.blk.partsWithOp x p 5 = [c] → s.blk.collCmd c.queue c.seq = some cmd → cmd.finished = false →
      r = s.blk.readMem s.env (ceReq s.blk x p cmd.block.srcClass) cmd.block.src (cmd.block.fin.offsetOf cmd.block.elems) →
      ∃ b : Block, b = (chunksOf 0x100000 r.2).foldl (fun (b : Block) d =>
          let key := ((cmd.block.peer * 16 + p.val) * 64 + cmd.block.queue) * 16 + p.val
          let n := mget 0 b.msgs.sendSeq key
          (({ b with msgs := { b.msgs with sendSeq := mset 0 b.msgs.sendSeq key ((n + 1) % 65536) } } : Block).bumpCe x 0x108 d.length).sendMsg s.env
            { mtype := 0, flags := 2 + b2n cmd.block.cmpr, src := 0, dst := cmd.block.peer, parts := 17 * p.val, rop := 0
              job := (r.1.gen p).regs.jobId, epoch := (r.1.gen p).regs.epoch, mid := 0, length := d.length, addr := cmd.block.queue
              signal := 0, expfmt := 0, qseq := n, data := d }) r.1 ∧
        exec (.send x p) s = .next { s with blk := (b.setCmd { cmd with finished := true }).advanceColl s.env c.queue c.seq }) ∧
    (∀ c cmd q n, s.blk.partsWithOp x p 6 = [c] → s.blk.collCmd c.queue c.seq = some cmd → cmd.finished = false →
      q = ceReq s.blk x p cmd.block.dstClass → n = cmd.block.fin.offsetOf cmd.block.elems →
      (rxAvail (mget [] s.blk.msgs.queues (64 * p.val + cmd.block.queue)) < n ∨ s.blk.writeWaits s.env q cmd.block.dst = true →
        exec (.recv x p) s = .next { s with blk := (s.blk.noteWait s.env q cmd.block.dst).advanceColl s.env c.queue c.seq }) ∧
      (n ≤ rxAvail (mget [] s.blk.msgs.queues (64 * p.val + cmd.block.queue)) → s.blk.writeWaits s.env q cmd.block.dst = false →
        ∃ r, r = Block.rxTakeN s.env q 0 (64 * p.val + cmd.block.queue) n s.blk [] ∧
          exec (.recv x p) s = .next { s with
            blk := (((r.1.bumpCe x 0x110 n).deliver s.env x p cmd.block cmd.exposure cmd.block.fin 0 r.2).setCmd
              { cmd with finished := true }).advanceColl s.env c.queue c.seq }))) ∧
  (∀ (s : State) (x : Fin 6) (m : Msg) (b : Block) (g : Segment), s.Up → b = s.blk.consume m → g = Segment.ofMsg m →
    (b.collStale m = true → ∀ i ∈ [Instr.collectiveData x m, .collectiveCredit x m], exec i s = .next { s with blk := b.bumpCe x 0x140 1 }) ∧
    (b.collStale m = false →
      (g.kind ≠ 0 → exec (.collectiveData x m) s = .next { s with blk := b.collMismatch s.env x m g }) ∧
      (g.kind ≠ 1 → exec (.collectiveCredit x m) s = .next { s with blk := b.collMismatch s.env x m g }) ∧
      (b.partByNum x m.dpart g.num = none → ∀ i ∈ [Instr.collectiveData x m, .collectiveCredit x m],
        exec i s = .next { s with blk := b.collMismatch s.env x m g }) ∧
      (∀ n c cmd, b.partByNum x m.dpart g.num = some (n, c) → b.collCmd c.queue c.seq = some cmd →
        (g.kind = 0 → cmd.block.sig ≠ g.sig ∨ cmd.block.stepOf b.topo x g true = none →
          exec (.collectiveData x m) s = .next { s with blk := b.collMismatch s.env x m g }) ∧
        (g.kind = 0 → cmd.block.sig = g.sig → cmd.block.stepOf b.topo x g true ≠ none →
          exec (.collectiveData x m) s = .next { s with
            blk := ((b.bumpCe x 0x110 g.data.length).setCollPart x m.dpart n { c with stage := c.stage ++ [g] }).advanceColl s.env c.queue c.seq }) ∧
        (g.kind = 1 → cmd.block.stepOf b.topo x g false = none →
          exec (.collectiveCredit x m) s = .next { s with blk := b.collMismatch s.env x m g }) ∧
        (g.kind = 1 → ∀ i st, cmd.block.stepOf b.topo x g false = some (i, st) → st.kind ≠ 3 →
          exec (.collectiveCredit x m) s = .next { s with
            blk := (b.setCollPart x m.dpart n { c with
              credits := mmod 0 c.credits (chainKey i g.half g.seg) (· + g.credits) }).advanceColl s.env c.queue c.seq })))) ∧
  (∀ x y : CollElem,
    ((addElem x y).1.val - (x.val + y.val)) % 2 ^ 96 = 0 ∧
    -2 ^ 95 ≤ (addElem x y).1.val ∧ (addElem x y).1.val < 2 ^ 95 ∧
    (x.side = .finite → y.side = .finite → ((addElem x y).2 = true ↔ x.val + y.val ≤ -2 ^ 95 ∨ 2 ^ 95 ≤ x.val + y.val)) ∧
    addElem x y = addElem y x)

/-- R300, R304, R311, R312: doorbells, and the writes of a queue window. The model's own readings in it: log entries 50, 55. -/
def Obligations.QueuesAcceptAndBind : Prop :=
  (∀ (s : State) (f : Fin 9) (q : Fin 256) (v : Fin (2 ^ 64)) (eng : Fin 64) (part : Fin 16), s.Up →
    s.blk.reachesQueue f q = false → ∀ i ∈ [Instr.doorbell f q v, .queueEnable f q, .queueDisable f q, .queueBind f q eng part],
      exec i s = .next s) ∧
  (∀ (s : State) (f : Fin 9) (q : Fin 256) (v : Fin (2 ^ 64)) (x : Queue), s.Up → s.blk.reachesQueue f q = true → x = s.blk.queue q →
    (x.job = true → exec (.doorbell f q v) s = .next { s with blk := s.blk.bumpFe 0x828 1 }) ∧
    (x.job = false → x.submitted ≤ v.val → v.val ≤ x.completed + 64 * 2 ^ x.size → v.val < 2 ^ 56 →
      exec (.doorbell f q v) s = .next { s with blk := s.blk.setQueue q { x with submitted := v } }) ∧
    (x.job = false → v.val < x.submitted ∨ x.completed + 64 * 2 ^ x.size < v.val ∨ 2 ^ 56 ≤ v.val →
      exec (.doorbell f q v) s = .next { s with blk := (s.blk.bumpFe 0x820 1).queueEvent s.env q 4 1 0 [(40, 8, v)] })) ∧
  (∀ (s : State) (f : Fin 9) (q : Fin 256) (x y : Queue), s.Up → s.blk.reachesQueue f q = true →
    x = s.blk.queue q → y = { x with size := min 10 x.size, vector := x.vector % 128 } →
    (x.enable = true → exec (.queueEnable f q) s = .next { s with blk := s.blk.setQueue q y }) ∧
    (x.enable = false → s.blk.mayBind x.engine x.part = false →
      exec (.queueEnable f q) s = .next { s with blk := s.blk.bumpFe 0x830 1 }) ∧
    (x.enable = false → s.blk.mayBind x.engine x.part = true → ∃ t, exec (.queueEnable f q) s = .next { s with blk := t } ∧
      (∀ k, k ≠ q.val → t.queue k = s.blk.queue k) ∧
      t.queue q = { y with enable := true, submitted := 0, completed := 0, state := 1, running := [], abndSeqs := [] }) ∧
    (x.enable = false → exec (.queueDisable f q) s = .next { s with blk := s.blk.setQueue q y }) ∧
    (x.enable = true → ∃ c d : Block,
      d = (s.blk.setQueue q y).setQueue q { y with enable := false } ∧
      d.abandonQueue s.env q = (if x.completed < x.submitted then c.completionWrite s.env q else c) ∧
      (x.completed < x.submitted → c.queue q = { y with
        enable := false, running := [], abnd := x.submitted, abndSeqs := (x.completed + 1, x.submitted) :: x.abndSeqs
        completed := x.submitted, state := 0 }) ∧
      (x.submitted ≤ x.completed → c.queue q = { y with enable := false, running := [] }) ∧
      (∀ k, k ≠ q.val → c.queue k = s.blk.queue k) ∧
      exec (.queueDisable f q) s = .next { s with
        blk := ((d.abandonQueue s.env q).setQueue q { (d.abandonQueue s.env q).queue q with state := 0 }).wakeEngine s.env x.engine }))

/-- R305, R307, R308, R311, R315, R321: how a command of a queue starts. The model's own readings in it: log entries 50, 51. -/
def Obligations.CommandsStartInOrder : Prop :=
  (∀ (s : State) (q : Fin 256) (x : Queue), s.Up → x = s.blk.queue q →
    (x.enable = false ∨ s.blk.clk.pstate = 2 ∨ s.blk.clk.ret ≠ none ∨ mget none s.blk.clk.parts x.part ≠ none →
      exec (.commandStart q) s = .next s) ∧
    (∀ b : Block, x.enable = true → s.blk.clk.pstate ≠ 2 → s.blk.clk.ret = none → mget none s.blk.clk.parts x.part = none →
      b = (s.blk.wakeEngine s.env x.engine).fetchNext s.env q →
      (nextUp (b.queue q).running = none → exec (.commandStart q) s = .next { s with blk := b }) ∧
      (∀ r, nextUp (b.queue q).running = some r →
        (b.gatePassed s.env x r = false → exec (.commandStart q) s = .next { s with blk := b }) ∧
        (b.gatePassed s.env x r = true → ∀ f, b.cmdFault q x r = some f →
          exec (.commandStart q) s = .next { s with blk := b.refuseCmd s.env q r.seq f.1 f.2 }) ∧
        (b.gatePassed s.env x r = true → b.cmdFault q x r = none → ∀ (due : Nat) (c : Block),
          due = (if r.due = 0 then s.time.now + 1000 * (if r.desc.deadline = 0 then mget (dlDefault x.engine) b.fe.dl x.engine else r.desc.deadline) else r.due) →
          c = b.setQueue q ((b.queue q).update r.seq (fun r => { r with due := due })) →
          ((∃ d ∈ r.desc.deps, d.2 ≠ 0 ∧ (c.queue d.1).wasAbandoned d.2 = true) →
            exec (.commandStart q) s = .next { s with blk := c.abandonCmd s.env q r.seq }) ∧
          ((∀ d ∈ r.desc.deps, d.2 ≠ 0 → (c.queue d.1).wasAbandoned d.2 = false) →
            ((∃ d ∈ r.desc.deps, d.2 ≠ 0 ∧ (c.queue d.1).satisfies d.2 = false) →
              exec (.commandStart q) s = .next { s with blk := c.setQueue q { c.queue q with state := 2 } }) ∧
            ((∀ d ∈ r.desc.deps, d.2 ≠ 0 → (c.queue d.1).satisfies d.2 = true) →
              exec (.commandStart q) s = .next { s with blk := c.tryWaits s.env q { r with due := due } })))))) ∧
  (∀ (b : Block) (e : Env) (q : Nat) (r : Running),
    (r.desc.waitEn = true → r.desc.acq = false → r.lock = none → (b.obj r.desc.waitObj).val < r.desc.waitVal →
      b.tryWaits e q r = b.setQueue q { (b.queue q).update r.seq (fun r => { r with phase := .wait }) with state := 3 }) ∧
    (r.desc.waitEn = false ∨ (r.lock = none ∧ r.desc.acq = false ∧ r.desc.waitVal ≤ (b.obj r.desc.waitObj).val) → b.needsCopy r = false →
      (b.engine (b.queue q).engine).serving = none → b.tryWaits e q r = b.startCmd e q r) ∧
    (r.desc.opc ≠ 3 → (b.engine (b.queue q).engine).serving = none → ∃ c : Block,
      c.queue q = { (b.queue q).update r.seq (fun r => { r with
        phase := .executing, gens := (List.range 8).map (fun p => (b.gen p).regs.visible) }) with state := 4 } ∧
      b.startCmd e q r = c.serve e q ∧ ((b.startCmd e q r).engine (b.queue q).engine).serving = some q)) ∧
  (∀ (b : Block) (e : Env) (q : Nat) (x : Queue), x = b.queue q →
    (x.submitted < x.completed + x.running.length + 1 → b.fetchNext e q = b) ∧
    (x.completed + x.running.length < x.submitted → ringNext x.running = true → x.host = true →
      b.fetchNext e q = b.setQueue q { x with running := x.running ++ [{
        seq := x.completed + x.running.length + 1
        desc := Desc.ofBytes (hostRead b.host (x.base + 64 * ((x.completed + x.running.length) % (64 * 2 ^ x.size))) 64)
        phase := .edge, due := 0, lock := none, gens := [], part := x.part, stepList := false }] }))

/-- R305, R306, R308, R309, R318: how a command of a queue ends, and the NOP, SYNC and RUN commands. The model's own readings in it: log entry 50. -/
def Obligations.CommandsRetireAndComplete : Prop :=
  (∀ (s : State) (q : Fin 256), s.Up →
    (s.blk.activeOpc q 0 = none → exec (.cmdNop q) s = .next s) ∧
    (∀ r, s.blk.activeOpc q 0 = some r → exec (.cmdNop q) s = .next { s with blk := s.blk.retireCmd q r.seq }) ∧
    (s.blk.activeOpc q 6 = none → exec (.sync q) s = .next s) ∧
    (∀ r, s.blk.activeOpc q 6 = some r → exec (.sync q) s = .next { s with blk := s.blk.retireCmd q r.seq }) ∧
    (s.blk.activeOpc q 3 = none → exec (.run q) s = .next s) ∧
    (∀ r, s.blk.activeOpc q 3 = some r →
      ((s.blk.image r.part).runCmd ≠ none → exec (.run q) s = .next s) ∧
      ((s.blk.image r.part).runCmd = none → (s.blk.image r.part).loaded = false ∨ (s.blk.image r.part).commands ≤ r.desc.imm →
        exec (.run q) s = .next { s with blk := s.blk.refuseCmd s.env q r.seq 2 60 }) ∧
      ((s.blk.image r.part).runCmd = none → (s.blk.image r.part).loaded = true → r.desc.imm < (s.blk.image r.part).commands →
        ∃ b, b = s.blk.setImage r.part { s.blk.image r.part with runCmd := some r.desc.imm } ∧
          exec (.run q) s = .next { s with blk := (b.liveRegions r.part).foldl (fun (b : Block) n => b.loadRegion r.part n) b })) ∧
    (s.blk.completing q = none → exec (.commandComplete q) s = .next s) ∧
    (∀ r, s.blk.completing q = some r → ∃ b c d : Block,
      b = (if r.desc.sigEn = false then s.blk
        else if r.desc.rel = true then s.blk.syncRelease s.env (engineReq (s.blk.queue q).engine) r.part r.desc.sigObj
        else s.blk.syncAdd s.env (engineReq (s.blk.queue q).engine) r.part r.desc.sigObj (if r.desc.opc = 6 ∧ r.desc.imm ≠ 0 then r.desc.imm else 1)) ∧
      c = b.setQueue q ((b.queue q).update r.seq (fun r => { r with phase := .finished, lock := none, pin := none })) ∧
      d = (match r.pin with
        | some p => ((c.unpin s.env r.pin).releaseEngine s.env q).progress s.env p.1
        | none => (c.unpin s.env r.pin).releaseEngine s.env q) ∧
      exec (.commandComplete q) s = .next { s with blk := (d.stepProgress s.env r).retire s.env q })) ∧
  (∀ (b : Block) (e : Env) (q n : Nat) (x : Queue), x = b.queue q →
    (x.running = [] → Block.retireFuel e q n b = b) ∧
    (∀ r rs, x.running = r :: rs →
      (r.phase ≠ .finished → r.phase ≠ .abandoned → Block.retireFuel e q n b = b) ∧
      (r.phase = .finished → ∃ c d : Block,
        c = b.setQueue q { x with running := rs, completed := x.completed + 1, state := if rs = [] then 1 else x.state } ∧
        d = (if r.desc.evt then (c.completionWrite e q).queueEvent e q 9 0 r.seq [] else c.completionWrite e q) ∧
        Block.retireFuel e q (n + 1) b = Block.retireFuel e q n (if r.desc.irq then d.fireMsix (funcOf x.part) x.vector else d)) ∧
      (r.phase = .abandoned → Block.retireFuel e q (n + 1) b = Block.retireFuel e q n ((b.setQueue q { x with
        running := rs, completed := x.completed + 1, state := if rs = [] then 1 else x.state }).completionWrite e q))))

/-- R30, R173 to R176, R310: DMA commands. The model's own readings in it: log entries 37, 50, 56. -/
def Obligations.DmaMovesBytes : Prop :=
  (∀ (s : State) (q : Fin 256), s.Up → s.blk.servedDma q = none →
    ∀ i ∈ [Instr.dma q, .copy q, .fill q, .print q], exec i s = .next s) ∧
  (∀ (s : State) (q : Fin 256) (r : Running) (b : Block), s.Up → s.blk.servedDma q = some r →
    (s.blk.dmaOpen s.env q r = (b, none) → ∀ i ∈ [Instr.dma q, .copy q, .fill q, .print q], exec i s = .next { s with blk := b }) ∧
    (∀ r' k, s.blk.dmaOpen s.env q r = (b, some (r', k)) →
      exec (.dma q) s = .next { s with blk := b } ∧
      (∀ (n : Nat) (i : Instr), (n, i) ∈ [(0, Instr.copy q), (1, .fill q), (2, .print q)] →
        (k.kind ≠ n → exec i s = .next { s with blk := b }) ∧
        (k.kind = n → b.dmaWaits s.env q r' k = true →
          exec i s = .next { s with blk := b.noteWait s.env (b.dmaAsker q r' k.dstClass k.dst) k.dst })) ∧
      (b.dmaWaits s.env q r' k = false →
        (k.kind = 0 → ∃ o, o = (if k.srcHost then b.takeHost (dmaPortB (b.queue q).engine) k.src k.len
            else b.readMem s.env (b.dmaAsker q r' k.srcClass k.src) k.src k.len) ∧
          exec (.copy q) s = .next { s with blk := (o.1.dmaStore s.env q r' k o.2).retireCmd q r'.seq }) ∧
        (k.kind = 1 → ∃ bs : List Byte, bs.length = k.len ∧ (∀ n < k.len, bs.getD n 0 = (leBytes 4 k.fill).getD (n % 4) 0) ∧
          exec (.fill q) s = .next { s with blk := (b.dmaStore s.env q r' k (clean bs)).retireCmd q r'.seq }) ∧
        (k.kind = 2 → ∀ p, b.printPart k r'.part = some p → ∃ (o : Block × List (List (Byte × Bool))) (bad : Nat) (c : Block),
          o = (b.gen p).regs.table.foldl (fun (a : Block × List (List (Byte × Bool))) reg =>
            ((a.1.printRegion s.env q r' k.gen reg).1, a.2 ++ [(a.1.printRegion s.env q r' k.gen reg).2])) (b, []) ∧
          bad = (o.2.map (fun bs => ((List.range (bs.length / 64)).filter (fun i => ((bs.drop (64 * i)).take 64).any Prod.snd)).length)).sum ∧
          c = ((o.1.dmaStore s.env q r' k (clean (o.1.printHeader p k (o.2.map (fun bs => crc32c (bs.map Prod.fst))) (decide (0 < bad)))
            ++ o.2.flatten)).modRegs p (fun g => { g with printed := max g.printed k.gen })) ∧
          exec (.print q) s = .next { s with
            blk := (if bad = 0 then c.genEvent s.env p 7 0 k.gen [(32, 8, c.printBytes p)]
              else (c.genEvent s.env p 7 0 k.gen [(32, 8, c.printBytes p)]).intEvent s.env 17 1 p 0xFF 0xFFFF 0xFFFF
                [(32, 8, bad), (40, 6, k.gen)]).retireCmd q r'.seq })))) ∧
  (∀ (b : Block) (k : DmaBlock) (part : Nat),
    2 < k.kind ∨ k.len = 0 ∨ 2 ^ 40 < k.len ∨ 12 < k.rop ∨ (k.rop ≠ 0 ∧ k.dstHost = true) ∨
      (part ≠ 15 ∧ k.kind = 0 ∧ k.srcHost = false ∧ b.spanInPart part k.src k.len = false) ∨
      (part ≠ 15 ∧ k.dstHost = false ∧ b.spanInPart part k.dst k.dstLen = false) → b.dmaFault k part ≠ none)

/-- R157, R317 to R320: LOAD and UNLOAD. The model's own readings in it: log entries 53, 55. -/
def Obligations.JobsAreLoadedAndUnloaded : Prop :=
  (∀ (s : State) (q : Fin 256), s.Up → s.blk.activeOpc q 1 = none → exec (.load q) s = .next s) ∧
  (∀ (s : State) (q : Fin 256) (r : Running) (arg : Block × List Byte) (k : LoadBlock), s.Up → s.blk.activeOpc q 1 = some r →
    arg = s.blk.readArg s.env (engineReq 46) (s.blk.queue q) r 64 → k = LoadBlock.ofBytes arg.2 →
    (∀ f, arg.1.loadBlockFault k r.part = some f → exec (.load q) s = .next { s with blk := arg.1.refuseCmd s.env q r.seq f.1 f.2 }) ∧
    (arg.1.loadBlockFault k r.part = none → ∀ (o : Block × List (Byte × Bool)) (raw : Container),
      o = (if k.host then arg.1.takeHost false k.image k.len
        else arg.1.readMem s.env { id := engineReq 46, part := k.part } k.image k.len) → raw = { bytes := o.2.map Prod.fst } →
      (o.2.any Prod.snd = true → exec (.load q) s = .next { s with blk := o.1.refuseCmd s.env q r.seq 7 16 }) ∧
      (o.2.any Prod.snd = false →
        (∀ off, raw.headerFault = some off → exec (.load q) s = .next { s with blk := o.1.refuseCmd s.env q r.seq 7 off }) ∧
        (raw.headerFault = none → raw.relocsOk = false →
          exec (.load q) s = .next { s with blk := o.1.refuseCmd s.env q r.seq 7 (raw.off 8) }) ∧
        (raw.headerFault = none → raw.relocsOk = true → ∀ (base : Nat) (placed : Block),
          base = (if k.host then k.delta.toNat else k.image) →
          placed = (o.1.releaseJob k.part).writeMem s.env { id := engineReq 46, part := k.part, own := true } false base
            (clean (raw.relocate k).bytes) →
          (∀ f, placed.containerFault k.part base (raw.relocate k) = some f →
            exec (.load q) s = .next { s with blk := o.1.refuseCmd s.env q r.seq f.1 f.2 }) ∧
          (placed.containerFault k.part base (raw.relocate k) = none →
            exec (.load q) s = .next { s with
              blk := (placed.acceptLoad s.env q r k base (raw.relocate k)).1
              cur := (placed.acceptLoad s.env q r k base (raw.relocate k)).2 }))))) ∧
  (∀ (b : Block) (k : LoadBlock) (part : Nat), 8 ≤ k.part ∨ (mget ({} : Part) b.fe.parts k.part).valid = false ∨
    (part ≠ 15 ∧ part ≠ k.part) ∨ b.holdsJob k.part = true → b.loadBlockFault k part ≠ none) ∧
  (∀ (s : State) (q : Fin 256), s.Up →
    (s.blk.activeOpc q 2 = none → exec (.unload q) s = .next s) ∧
    (∀ r, s.blk.activeOpc q 2 = some r →
      ((∀ p < 8, (s.blk.gen p).regs.state = 0 ∨ (s.blk.gen p).regs.jobId ≠ r.desc.imm % 65536 ∨ (r.part ≠ 15 ∧ r.part ≠ p)) →
        exec (.unload q) s = .next { s with blk := s.blk.refuseCmd s.env q r.seq 6 60 }) ∧
      (∀ p < 8, (s.blk.gen p).regs.state ≠ 0 → (s.blk.gen p).regs.jobId = r.desc.imm % 65536 → r.part = p →
        ∃ b, b = (s.blk.retireCmd q r.seq).partitionReset s.env p 8 ∧
          exec (.unload q) s = .next { s with
            blk := (b.releaseJob p).post s.env { cls := 1, sev := 0, code := 11, part := p, source := feSource
                                                 payload := [(24, 1, q), (26, 2, r.desc.imm % 65536), (32, 8, r.seq)] } })))

/-- R350, R351, R354: management commands. The model's own readings in it: log entries 9, 12. -/
def Obligations.ManagementCommandsAct : Prop :=
  (∀ (s : State) (q : Fin 256), s.Up → s.blk.activeOpc q 7 = none →
    ∀ i ∈ [Instr.mgmt q, .info q, .override q, .flashWrite q, .retainedReset q, .measure q, .ownerKey q], exec i s = .next s) ∧
  (∀ (s : State) (q : Fin 256) (r : Running) (b : Block), s.Up → s.blk.activeOpc q 7 = some r →
    (s.blk.mgmtOpen s.env q r = (b, none) →
      ∀ i ∈ [Instr.mgmt q, .info q, .override q, .flashWrite q, .retainedReset q, .measure q, .ownerKey q],
        exec i s = .next { s with blk := b }) ∧
    (∀ k, s.blk.mgmtOpen s.env q r = (b, some k) →
      (exec (.mgmt q) s = .next { s with
        blk := if k.op = 2 then b.setBoot { b.boot with update := some { target := k.arg, queue := q, seq := r.seq } } else b }) ∧
      (∀ (n : Nat) (i : Instr), (n, i) ∈ [(0, Instr.info q), (1, .override q), (2, .flashWrite q), (3, .retainedReset q), (4, .measure q), (5, .ownerKey q)] →
        k.op ≠ n → exec i s = .next { s with blk := b }) ∧
      (∀ (n : Nat) (i : Instr), (n, i) ∈ [(0, Instr.info q), (4, .measure q)] → k.op = n →
        exec i s = .next { s with blk := (b.mgmtWrite s.env q r k (b.mgmtOutput s.env k)).retireCmd q r.seq }) ∧
      (k.op = 1 → k.arg = 0xFF → exec (.override q) s = .next { s with
        blk := (b.setBoot { b.boot with override := none }).retireCmd q r.seq }) ∧
      (k.op = 1 → k.arg ≠ 0xFF → exec (.override q) s = .next { s with
        blk := ((b.setBoot { b.boot with override := some k.arg }).bootEvent s.env 0x105 0 k.arg []).retireCmd q r.seq }) ∧
      (k.op = 2 → ∃ c, c = (b.mgmtRead s.env q r k).1.applyUpdate s.env k.arg (b.mgmtRead s.env q r k).2 ∧
        exec (.flashWrite q) s = .next { s with blk := (c.setBoot { c.boot with update := none }).retireCmd q r.seq }) ∧
      (k.op = 5 → ∃ (o : Block × List Byte) (f : Flash), o = b.mgmtRead s.env q r k ∧
        f = { o.1.boot.flash with
          programmed := o.1.boot.flash.programmed ||| 2 ^ k.arg
          owners := mset [] o.1.boot.flash.owners k.arg o.2, ownerRec := some k.arg } ∧
        exec (.ownerKey q) s = .next { s with blk := (o.1.setBoot { o.1.boot with flash := f, opened := f.isOpen }).retireCmd q r.seq }) ∧
      (k.op = 3 → exec (.retainedReset q) s = .next { s with
        blk := ((b.retireCmd q r.seq).doCommandComplete s.env q).retainedReset s.env 2 }))) ∧
  (∀ (b : Block) (e : Env) (q seq : Nat) (k : MgmtBlock),
    5 < k.op ∨ k.argOk = false ∨ k.low ≠ 0 ∨ 2 ^ 24 < k.len ∨ k.dstLen < (b.mgmtOutput e k).length ∨
      (k.op = 1 ∧ k.arg < 4 ∧ b.overrideFits k.arg = false) → b.mgmtFault e q seq k ≠ none) ∧
  (∀ (b : Block) (e : Env) (target why : Nat) (bs : List Byte), b.boot.flash.take target bs = .error why →
    (b.applyUpdate e target bs).boot = (b.bumpBoot 0x110 1).boot)

/-- R313 to R316: deadlines, hangs and time slices. The model's own readings in it: log entries 51, 52. -/
def Obligations.DeadlinesAndSlices : Prop :=
  (∀ (s s' : State) (q : Fin 256) (x : Queue), s' = s.scheduled (s.blk.deadlineDue q) → s'.Up → x = s'.blk.queue q →
    (s'.blk.deadlinesRun x = false ∨ x.firstDue = none → exec (.deadlineExpiry q) s = .next s') ∧
    (∀ r, s'.blk.deadlinesRun x = true → x.firstDue = some r →
      (s'.time.now < r.due → exec (.deadlineExpiry q) s = .next s') ∧
      (r.due ≤ s'.time.now → ∃ (wide : Bool) (b : Block), (wide = true ↔ 8 ≤ x.part ∨ 46 ≤ x.engine) ∧
        b = ((s'.blk.bumpFe 0x810 1).queueEvent s'.env q 3 2 r.seq [(25, 1, x.engine), (26, 1, b2n wide)]).abandonCmd s'.env q r.seq ∧
        exec (.deadlineExpiry q) s = .next { s' with
          blk := b.askSheet s'.env { trigger := 0, scope := if wide then 256 else 2 ^ x.part, stop := true, tick := s'.time.now
                                     queue := q, seq := r.seq } }))) ∧
  (∀ (s s' : State) (p : Fin 8), s' = s.eventAt (s.blk.hangDue p) → s'.Up →
    (s'.blk.hangDue p = none → exec (.hangEscalation p) s = .next s') ∧
    (∀ t, s'.blk.hangDue p = some t → s'.time.now < t → exec (.hangEscalation p) s = .next s') ∧
    (∀ t, s'.blk.hangDue p = some t → t ≤ s'.time.now →
      exec (.hangEscalation p) s = .next { s' with blk := (s'.blk.bumpFe 0x818 1).retainedReset s'.env 3 })) ∧
  (∀ (s s' : State) (en : Fin 48) (b : Block) (x : Engine), s' = s.scheduled (s.blk.sliceDue en) → s'.Up →
    b = s'.blk.wakeEngine s'.env en → x = b.engine en →
    (x.serving = none ∨ x.sliceOver = true ∨ 46 ≤ en.val ∨ s'.time.now < x.sliceEnd →
      exec (.timeSliceEnd en) s = .next { s' with blk := b }) ∧
    (∀ q, x.serving = some q → x.sliceOver = false → x.sliceEnd ≤ s'.time.now →
      (8 ≤ en.val → en.val < 46 →
        (b.nextServed en q = none → exec (.timeSliceEnd en) s = .next { s' with blk := b.serve s'.env q }) ∧
        (∀ n, b.nextServed en q = some n → ∃ c d : Block,
          c = (b.setQueue q { b.queue q with state := 5 }).pauseQueue s'.env q ∧ d = c.serve s'.env n ∧
          exec (.timeSliceEnd en) s = .next { s' with blk := d.setQueue n { d.queue n with state := 4 } })) ∧
      (en.val < 8 →
        (b.rivals en q = [] ∨ x.suspended ≠ none → exec (.timeSliceEnd en) s = .next { s' with blk := b.serve s'.env q }) ∧
        (b.rivals en q ≠ [] → x.suspended = none → ∀ h : (b.queue q).part < 8,
          exec (.timeSliceEnd en) s = .next { s' with
            blk := (b.setEngine en { x with sliceOver := true }).requestDrainAll ⟨(b.queue q).part, h⟩ }))))

/-- R300, R322 to R325, R336: sync objects and guard slots. -/
def Obligations.SyncObjectsUpdate : Prop :=
  (∀ (s : State) (f : Fin 9) (n : Fin 8192) (a : Fin (2 ^ 28)) (v : Fin (2 ^ 64)) (m : Fin 4), s.HostUp → (s.blk.obj n).reach (funcPart f) = false →
    (∀ i ∈ [Instr.add f n a, .release f n, .set f n v, .synCtlMode f n m], exec i s = .next s) ∧
    exec (.acquire f n) s = .next { s with blk := s.blk.emit (.completion f (zeros 4) false) }) ∧
  (∀ (s : State) (f : Fin 9) (n : Fin 8192) (a : Fin (2 ^ 28)) (v : Fin (2 ^ 64)) (o : SyncObj), s.HostUp → o = s.blk.obj n →
    o.reach (funcPart f) = true →
    (a.val = 0 → exec (.add f n a) s = .next { s with blk := s.blk.bumpSyn 0 1 }) ∧
    (o.mode = 0 →
      (a.val ≠ 0 → exec (.add f n a) s = .next { s with blk := s.blk.setObj n { o with val := (o.val + a.val) % 2 ^ 64 } }) ∧
      exec (.set f n v) s = .next { s with blk := s.blk.setObj n { o with val := v } } ∧
      exec (.release f n) s = .next { s with blk := s.blk.syncRefuse s.env (funcReq f) (funcPart f) n 1 } ∧
      exec (.acquire f n) s = .next { s with blk := s.blk.emit (.completion f (zeros 4) false) }) ∧
    (o.mode ≠ 0 →
      (a.val ≠ 0 → exec (.add f n a) s = .next { s with blk := s.blk.syncRefuse s.env (funcReq f) (funcPart f) n 1 }) ∧
      exec (.set f n v) s = .next { s with blk := s.blk.syncRefuse s.env (funcReq f) (funcPart f) n 1 } ∧
      (o.state = 1 → exec (.acquire f n) s = .next { s with
        blk := s.blk.emit (.completion f (leBytes 4 (2 ^ 29 + o.holder)) false) }) ∧
      (o.state ≠ 1 → o.state ≠ 2 → exec (.acquire f n) s = .next { s with
        blk := (s.blk.setObj n { o with state := 1, holder := funcReq f, holderPart := funcPart f }).emit
          (.completion f (leBytes 4 (2 ^ 31 + funcReq f)) false) }) ∧
      (o.state = 2 → ∃ b : Block,
        b = (s.blk.setObj n { o with state := 1, holder := funcReq f, holderPart := funcPart f }).syncEvent s.env 3 (funcReq f) (funcPart f) n [] ∧
        b.obj n = { o with state := 1, holder := funcReq f, holderPart := funcPart f } ∧
        exec (.acquire f n) s = .next { s with blk := b.emit (.completion f (leBytes 4 (2 ^ 31 + 2 ^ 30 + funcReq f)) false) }) ∧
      (¬(o.state = 1 ∧ o.holder = funcReq f ∧ o.holderPart = funcPart f) →
        exec (.release f n) s = .next { s with blk := s.blk.syncRefuse s.env (funcReq f) (funcPart f) n 3 }) ∧
      (o.state = 1 → o.holder = funcReq f → o.holderPart = funcPart f → ∃ b : Block,
        b = s.blk.setObj n { o with state := 0, holder := 0, holderPart := 0 } ∧
        (o.mode ≠ 2 ∨ b.slotOf n = none → exec (.release f n) s = .next { s with blk := b }) ∧
        (o.mode = 2 → ∀ k, b.slotOf n = some k → exec (.release f n) s = .next { s with blk := b.publish s.env k }))) ∧
    (∀ m : Fin 4,
      (m.val = 3 → exec (.synCtlMode f n m) s = .next { s with blk := s.blk.syncRefuse s.env (funcReq f) (funcPart f) n 4 }) ∧
      (m.val ≠ 3 → m.val = o.mode → exec (.synCtlMode f n m) s = .next s) ∧
      (m.val ≠ 3 → m.val ≠ o.mode → o.mode ≠ 0 → o.state ≠ 0 →
        exec (.synCtlMode f n m) s = .next { s with blk := s.blk.syncRefuse s.env (funcReq f) (funcPart f) n 4 }) ∧
      (m.val ≠ 3 → m.val ≠ o.mode → o.mode = 0 ∨ o.state = 0 →
        (m.val = 2 → s.blk.slotOf n = none →
          exec (.synCtlMode f n m) s = .next { s with blk := s.blk.syncRefuse s.env (funcReq f) (funcPart f) n 2 }) ∧
        (m.val ≠ 2 ∨ s.blk.slotOf n ≠ none → exec (.synCtlMode f n m) s = .next { s with
          blk := s.blk.setObj n { o with mode := m, val := 0, state := 0, holder := 0, holderPart := 0 } })))) ∧
  (∀ (s : State) (f : Fin 9) (k : Fin 64) (base : Fin (2 ^ 48)) (part : Fin 16) (len : Fin (2 ^ 32)) (valid : Bool) (obj : Fin 8192) (x : Slot),
    s.HostUp →
    x = { base := base, part := if f.val = 0 then part else (s.blk.slot k).part, len := len, valid := valid, obj := obj } →
    (f.val ≠ 0 → (s.blk.slot k).part ≠ funcPart f → exec (.guardSlotWrite f k base part len valid obj) s = .next s) ∧
    (f.val = 0 ∨ (s.blk.slot k).part = funcPart f →
      (s.blk.slotOk (funcPart f) k x = true → exec (.guardSlotWrite f k base part len valid obj) s = .next { s with
        blk := s.blk.setSlot k { x with staged := (s.blk.slot k).staged } }) ∧
      (s.blk.slotOk (funcPart f) k x = false → exec (.guardSlotWrite f k base part len valid obj) s = .next { s with
        blk := s.blk.syncRefuse s.env (funcReq f) (funcPart f) obj 5 })))

/-- R328 to R330, R333, R339: event rings. The model's own readings in it: log entries 7, 59. -/
def Obligations.EventRingsTurn : Prop :=
  (∀ (s : State) (f : Fin 9) (k : Fin 36) (v : Fin (2 ^ 32)) (r : Ring), s.Up → r = mget ({} : Ring) s.blk.evt.rings k →
    (s.blk.reachesRing f k = false ∨ (r.prod + 2 ^ 32 - r.cons) % 2 ^ 32 < (r.prod + 2 ^ 32 - v.val) % 2 ^ 32 →
      exec (.evtCons f k v) s = .next s) ∧
    (s.blk.reachesRing f k = true → (r.prod + 2 ^ 32 - v.val) % 2 ^ 32 ≤ (r.prod + 2 ^ 32 - r.cons) % 2 ^ 32 →
      ∃ t, exec (.evtCons f k v) s = .next t ∧ t = { s with blk := t.blk } ∧ Reports s.blk t.blk ∧
        (mget ({} : Ring) t.blk.evt.rings k).cons = v.val ∧
        (r.gapCount = 0 ∨ (r.prod + 2 ^ 32 - v.val) % 2 ^ 32 = r.cap → t.blk = s.blk.setRing k { r with cons := v }) ∧
        (r.gapCount ≠ 0 → (r.prod + 2 ^ 32 - v.val) % 2 ^ 32 ≠ r.cap →
          (mget ({} : Ring) t.blk.evt.rings k).gapCount = 0 ∧ (mget ({} : Ring) t.blk.evt.rings k).prod = (r.prod + 1) % 2 ^ 32 ∧
          t.blk.evt.seq = (s.blk.evt.seq + 1) % 2 ^ 64))) ∧
  (∀ (s : State) (f : Fin 9) (k : Fin 36) (enable mirror : Bool) (size : Fin 16) (minsev : Fin 4) (vector : Fin 128) (r x : Ring), s.Up →
    r = mget ({} : Ring) s.blk.evt.rings k →
    x = { r with enable := enable, mirror := if f.val = 0 ∧ k.val < 4 then mirror else r.mirror, size := min 10 size.val, minsev := minsev
                 vector := vector } →
    (s.blk.reachesRing f k = false → exec (.evtCtl f k enable mirror size minsev vector) s = .next s) ∧
    (s.blk.reachesRing f k = true →
      (enable = false ∨ r.enable = true → exec (.evtCtl f k enable mirror size minsev vector) s = .next { s with blk := s.blk.setRing k x }) ∧
      (enable = true → r.enable = false → ∃ b, b = s.blk.setRing k { x with prod := 0, cons := 0, phase := true, gapCount := 0 } ∧
        (4 ≤ k.val ∨ s.blk.evt.pf0Enabled = true → exec (.evtCtl f k enable mirror size minsev vector) s = .next { s with blk := b }) ∧
        (k.val < 4 → s.blk.evt.pf0Enabled = false →
          exec (.evtCtl f k enable mirror size minsev vector) s = .next { s with blk := b.giveBootLog s.env k })))) ∧
  (∀ (s s' : State) (k : Fin 36) (r : Ring), s' = s.eventAt (s.blk.modDue k) → s'.Up → r = mget ({} : Ring) s'.blk.evt.rings k →
    (r.firePending = false ∨ s'.time.now < r.fireAt → exec (.msixModerationExpiry k) s = .next s') ∧
    (r.firePending = true → r.fireAt ≤ s'.time.now → ∃ b : Block,
      b = s'.blk.setRing k { r with firePending := false, fireAt := s'.time.now + r.mod } ∧
      exec (.msixModerationExpiry k) s = .next { s' with blk := b.fireMsix (k / 4) r.vector } ∧
      ((mget ({} : Msix) b.evt.msix (msixKey (k / 4) r.vector)).masked = true →
        (mget ({} : Msix) (b.fireMsix (k / 4) r.vector).evt.msix (msixKey (k / 4) r.vector)).pending = true)))

/-- R299 to R303, R339: partitions, function resets, apertures, failed host reads, PCIe links. The model's own readings in it: log entry 56. -/
def Obligations.HostReachesMemory : Prop :=
  (∀ (s : State) (f : Fin 9) (i : Fin 8) (valid : Bool) (first : Fin 16) (size : Fin 4) (r : Part), s.Up →
    r = { valid := valid, first := first, size := size } →
    (s.blk.barUp = false ∨ f.val ≠ 0 → exec (.fePart f i valid first size) s = .next s) ∧
    (s.blk.barUp = true → f.val = 0 →
      (s.blk.holdsJob i = true ∨ s.blk.commandActive i = true ∨ s.blk.partOverlaps i r = true ∨
        (valid = true ∧ (first.val % 2 ^ size.val ≠ 0 ∨ 8 < first.val + 2 ^ size.val)) →
        exec (.fePart f i valid first size) s = .next { s with blk := s.blk.bumpFe 0x830 1 }) ∧
      (s.blk.holdsJob i = false → s.blk.commandActive i = false → s.blk.partOverlaps i r = false →
        valid = false ∨ (first.val % 2 ^ size.val = 0 ∧ first.val + 2 ^ size.val ≤ 8) →
        (mget ({} : Part) s.blk.fe.parts i = r → exec (.fePart f i valid first size) s = .next s) ∧
        (mget ({} : Part) s.blk.fe.parts i ≠ r → exec (.fePart f i valid first size) s = .next { s with
          blk := ({ s.blk with fe := { s.blk.fe with parts := mset {} s.blk.fe.parts i r } } : Block).partitionReset s.env i 6 })))) ∧
  (∀ (s : State) (i : Fin 8), s.Up →
    (s.blk.clk.ret ≠ none → exec (.flrVf i) s = .next s) ∧
    (s.blk.clk.ret = none → exec (.flrVf i) s = .next { s with blk := (s.blk.partitionReset s.env i 5).jobFaultWith s.env i 5 false }) ∧
    (s.blk.boot.stage = 6 → exec .flrPf0 s = .next { s with blk := s.blk.retainedReset s.env 1 }) ∧
    (s.blk.boot.stage ≠ 6 → exec .flrPf0 s = .next { s with
      blk := { s.blk with boot := { s.blk.boot with retainedAsked := some 1 } } })) ∧
  (∀ (s : State) (f : Fin 9) (off : Fin (2 ^ 36)) (n : Fin 4097) (bs : List Byte) (ep : Bool), s.Up →
    (s.blk.barUp = false → exec (.apertureRead f off n) s = .next { s with
      blk := s.blk.emit (.completion f (List.replicate n 0xFF) false) } ∧ exec (.apertureWrite f off bs ep) s = .next s) ∧
    (s.blk.barUp = true →
      (s.blk.apertureAddr f off = none → exec (.apertureRead f off n) s = .next { s with
        blk := s.blk.emit (.completion f (zeros n) true) } ∧ exec (.apertureWrite f off bs ep) s = .next s) ∧
      (∀ a o, s.blk.apertureAddr f off = some a → o = s.blk.readMem s.env { id := funcReq f, part := funcPart f } a n →
        (o.2.any Prod.snd = true → exec (.apertureRead f off n) s = .next { s with
          blk := o.1.emit (.completion f (zeros n) true) }) ∧
        (o.2.any Prod.snd = false → exec (.apertureRead f off n) s = .next { s with
          blk := o.1.emit (.completion f (o.2.map Prod.fst) false) }) ∧
        exec (.apertureWrite f off bs ep) s = .next { s with
          blk := s.blk.writeMem s.env { id := funcReq f, part := funcPart f } false a (bs.map (fun x => (x, ep))) }))) ∧
  (∀ (s : State) (q : Fin 256) (kind : Fin 4) (a : Fin (2 ^ 64)) (n : Nat), s.Up →
    ((s.blk.queue q).active = none → exec (.hostReadError q kind a n) s = .next s) ∧
    (∀ r, (s.blk.queue q).active = some r → ∃ b : Block,
      b = { s.blk with hostPoison := b.hostPoison } ∧
      (∀ x, mget false b.hostPoison x = true ↔ (a.val ≤ x ∧ x < a.val + n) ∨ mget false s.blk.hostPoison x = true) ∧
      exec (.hostReadError q kind a n) s = .next { s with blk := b.queueEvent s.env q 12 1 r.seq [(25, 1, kind), (40, 8, a)] })) ∧
  (∀ s : State, s.Up →
    exec (.pcieLinkDown false) s = .next { s with blk := { s.blk with fe := { s.blk.fe with linkUpA := false } } } ∧
    exec (.pcieLinkDown true) s = .next { s with blk := { s.blk with fe := { s.blk.fe with linkUpB := false } } } ∧
    exec (.perstN false) s = .next { s with blk := { s.blk with fe := { s.blk.fe with linkUpA := true } } } ∧
    exec (.perstN true) s = .next { s with blk := { s.blk with fe := { s.blk.fe with linkUpB := true } } })

/-- R358, R360, R366, R370: gating, domain resets and rejoining. The model's own readings in it: log entry 62. -/
def Obligations.DomainsGateAndReset : Prop :=
  (∀ (s : State) (d : Fin 128) (c : Nat) (b : Block), s.Up →
    (c = s.blk.gateCode d → b = s.blk.setClk { s.blk.clk with gateDom := d, gateRes := c } →
      (c = 0 → exec (.gate d) s = .next { s with blk := b.setDom d { b.dom d with state := 1 } }) ∧
      (c ≠ 0 → exec (.gate d) s = .next { s with blk := (b.bumpClk 0x220 1).clkEvent s.env 6 1 15 0xFF 0xFF d [(28, 1, c)] })) ∧
    (c = s.blk.ungateCode d → b = s.blk.setClk { s.blk.clk with gateDom := d, gateRes := c } →
      (c = 0 → exec (.ungate d) s = .next { s with blk := b.setDom d { b.dom d with state := 0 } }) ∧
      (c ≠ 0 → exec (.ungate d) s = .next { s with blk := (b.bumpClk 0x220 1).clkEvent s.env 6 1 15 0xFF 0xFF d [(28, 1, c)] })) ∧
    (c = s.blk.drstCode d → b = s.blk.setClk { s.blk.clk with drstRes := c } →
      (c = 0 → exec (.domainReset d) s = .next { s with blk := b.domainReset s.env d 9 }) ∧
      (c ≠ 0 → exec (.domainReset d) s = .next { s with blk := b }))) ∧
  (∀ (b : Block) (d : Nat),
    (100 ≤ d → b.gateCode d = 6 ∧ b.ungateCode d = 6 ∧ b.drstCode d = 6) ∧
    (d < 100 → hostDom d = false → b.gateCode d = 4 ∧ b.ungateCode d = 4) ∧
    (d < 100 → hostDom d = true → b.domBusy d = true → b.gateCode d = 7 ∧ b.ungateCode d = 7) ∧
    (d < 100 → hostDom d = true → b.domBusy d = false →
      ((∃ c < 100, domParent c = d ∧ (b.dom c).state = 0) → b.gateCode d = 1) ∧
      ((∀ c < 100, domParent c = d → (b.dom c).state ≠ 0) → b.gateCode d = if b.domInUse d then 3 else 0) ∧
      (b.domRuns (domParent d) = false → b.ungateCode d = 2) ∧
      (b.domRuns (domParent d) = true → ∀ n, b.domSource d = some n → b.ungateCode d = if b.sourceReady n then 0 else 5)) ∧
    (d = 95 ∨ (48 ≤ d ∧ d ≤ 79) ∨ (88 ≤ d ∧ d ≤ 91) → b.drstCode d = 3) ∧
    (hostDom d = true → b.clk.ret ≠ none → b.drstCode d = 0 ∧ ∀ e, b.domainReset e d 9 = b)) ∧
  (∀ (s : State) (d : Fin 128) (x : Dom), s.Up → x = s.blk.dom d →
    (s.blk.clk.ret ≠ none ∨ s.blk.domRuns (domParent d) = false ∨ (∃ n, s.blk.domSource d = some n ∧ s.blk.sourceReady n = false) ∨
        (x.state ≠ 4 ∧ ¬(x.state = 2 ∧ 0 < x.since)) → exec (.guardRejoined d) s = .next s) ∧
    (s.blk.clk.ret = none → s.blk.domRuns (domParent d) = true → (∀ n, s.blk.domSource d = some n → s.blk.sourceReady n = true) →
      x.state = 4 ∨ (x.state = 2 ∧ 0 < x.since) → ∃ b c : Block,
      b = s.blk.setDom d { x with state := 0, since := 0, dropsNew := 0, synthNew := 0 } ∧
      c = (if x.state = 2 ∧ 0 < x.since then b.clkEvent s.env 5 0 15 0xFF 3 d [(28, 4, s.time.now + 1 - x.since)] else b) ∧
      (x.dropsNew = 0 → x.synthNew = 0 → exec (.guardRejoined d) s = .next { s with blk := c }) ∧
      (x.dropsNew ≠ 0 ∨ x.synthNew ≠ 0 → exec (.guardRejoined d) s = .next { s with
        blk := c.clkEvent s.env 8 0 15 0xFF 0xFF d [(32, 8, x.dropsNew), (40, 8, x.synthNew)] })))

/-- R362, R371, R372: power states and plate source switches. The model's own readings in it: log entry 63. -/
def Obligations.PowerStatesChange : Prop :=
  (∀ (s : State) (keep : Bool), s.Up →
    ∀ (target : Nat) (sl : Bool) (i : Instr), (target, sl, i) ∈ [(0, false, Instr.active), (1, false, .hold), (2, keep, .safelight keep), (3, false, .off)] →
      ∀ (c : Nat) (b : Block), c = s.blk.pstateCode target → b = s.blk.setClk { s.blk.clk with pstateRes := c } →
      (c = 0 → exec i s = .next { s with blk := b.setClk { b.clk with moving := some { target := target, slLs := sl } } }) ∧
      (c ≠ 0 → exec i s = .next { s with blk := b.clkEvent s.env 10 1 15 0xFF target 0xFFFF [(28, 1, c)] })) ∧
  (∀ (b : Block) (target : Nat), target < 4 →
    (b.clk.ret ≠ none → b.pstateCode target = 4) ∧
    (b.clk.ret = none → b.clk.moving ≠ none → b.pstateCode target = 3) ∧
    (b.clk.ret = none → b.clk.moving = none → b.clk.pstate = target → b.pstateCode target = 2) ∧
    (b.clk.ret = none → b.clk.moving = none → b.clk.pstate ≠ target →
      ((∃ p < 8, ((target = 1 ∨ target = 2) ∧ 2 ≤ (b.gen p).regs.state ∨ target = 3 ∧ 1 ≤ (b.gen p).regs.state) ∧ (b.gen p).regs.state ≤ 5) →
        b.pstateCode target = 1) ∧
      ((∀ p < 8, (b.gen p).regs.state = 0 ∨ 5 < (b.gen p).regs.state) ∨ target = 0 → b.pstateCode target = 0))) ∧
  (∀ (s : State), s.Up →
    (s.blk.clk.moving = none → exec .pstateEntered s = .next s) ∧
    (∀ m, s.blk.clk.moving = some m →
      (m.target = 0 → exec .pstateEntered s = .next { s with blk := (s.blk.enterActive s.env).pstateDone s.env 0 }) ∧
      (m.target = 1 → s.blk.clk.pstate ≠ 2 → exec .pstateEntered s = .next { s with
        blk := ((List.range 48).foldl (fun (b : Block) d => if (b.dom d).state = 0 then b.setDom d { b.dom d with state := 1 } else b)
          s.blk).pstateDone s.env 1 }) ∧
      (m.target = 1 → s.blk.clk.pstate = 2 → exec .pstateEntered s = .next { s with
        blk := ((s.blk.enterActive s.env).enterHold).pstateDone s.env 1 }) ∧
      (m.target = 2 → exec .pstateEntered s = .next { s with blk := (s.blk.enterSafelight s.env m.slLs).pstateDone s.env 2 }) ∧
      (m.target = 3 → ∃ t, exec .pstateEntered s = .next t ∧ t = { s with blk := t.blk } ∧ t.blk.module.up = false ∧ t.blk.clk.off = true))) ∧
  (∀ (b : Block) (e : Env) (target : Nat), (b.pstateDone e target).clk.moving = none ∧ (b.pstateDone e target).clk.pstate = target % 3) ∧
  (∀ (s : State) (p : Fin 8) (fstep : Fin 32), s.Up →
    (18 ≤ fstep.val → exec (.switch p fstep) s = .next { s with blk := s.blk.refuseSwitch s.env p 5 }) ∧
    (fstep.val < 18 → s.blk.platesOf p = [] → exec (.switch p fstep) s = .next { s with blk := s.blk.refuseSwitch s.env p 2 }) ∧
    (fstep.val < 18 → s.blk.platesOf p ≠ [] → s.blk.holdsJob p = true →
      exec (.switch p fstep) s = .next { s with blk := s.blk.refuseSwitch s.env p 6 }) ∧
    (fstep.val < 18 → s.blk.platesOf p ≠ [] → s.blk.holdsJob p = false →
      (∃ k ∈ s.blk.platesOf p, ∃ d ∈ plateDoms k, (s.blk.dom d).state ≠ 0) →
      exec (.switch p fstep) s = .next { s with blk := s.blk.refuseSwitch s.env p 3 }) ∧
    (fstep.val < 18 → s.blk.platesOf p ≠ [] → s.blk.holdsJob p = false →
      (∀ k ∈ s.blk.platesOf p, ∀ d ∈ plateDoms k, (s.blk.dom d).state = 0) →
      (mget none s.blk.clk.switches p ≠ none → exec (.switch p fstep) s = .next { s with blk := s.blk.refuseSwitch s.env p 4 }) ∧
      (mget none s.blk.clk.switches p = none → ∃ (b : Block) (run : SwitchRun), b = s.blk.retune p fstep ∧
        run = { fstep := fstep, tick := (s.time.now / 1000 + 1) * 1000, pf0 := true } ∧
        exec (.switch p fstep) s = .next { s with blk := b.setClk { b.clk with switches := mset none s.blk.clk.switches p (some run) } })))

/-- R352, R363, R364: clock failures and their recovery. The model's own readings in it: log entry 62. -/
def Obligations.ClocksFailAndRecover : Prop :=
  (∀ (s : State) (n : Fin 33) (missing : Bool) (b c d : Block), s.Up →
    b = (s.blk.lostDoms n).foldl (fun (b : Block) d => if (b.dom d).state = 2 then b else b.setDom d { b.dom d with state := 3 })
      ((lostSource s.blk n missing).bumpClk 0x218 1) →
    c = ({ b with mem := { b.mem with hbm := b.mem.hbm.map (fun x =>
      (x.1, if (lostStacks n).contains x.1 then { x.2 with selfRefresh := true } else x.2)) } } : Block).resetPorts s.env (lostDirs n) →
    d = (if n.val = 30 then c.setPcie false false else if n.val = 31 then c.setPcie true false else c) →
    ∃ t : Block, t = (d.setClk { d.clk with lost := d.clk.lost.filter (fun x => x ≠ n.val) ++ [n.val], alert := d.clk.alert || decide (n.val ≠ 32)
      }).clkEvent s.env 1 3 15 n 0xFF 0xFFFF [(28, 1, b2n (!missing))] ∧
      t.clk.lost = d.clk.lost.filter (fun x => x ≠ n.val) ++ [n.val] ∧ (n.val ≠ 32 → t.clk.alert = true) ∧
      (n.val < 16 → s.blk.standby (n / 2) = n → s.blk.lostDoms n = [] ∧
        exec (.clockLost n missing) s = .next { s with blk := t.clkEvent s.env 3 1 15 n 0xFF 0xFFFF [] }) ∧
      (16 ≤ n.val ∨ s.blk.standby (n / 2) ≠ n →
        (n.val ≠ 24 → exec (.clockLost n missing) s = .next { s with blk := t }) ∧
        (n.val = 24 → t.clk.mgmtH1 = true → exec (.clockLost n missing) s = .next { s with blk := t }) ∧
        (n.val = 24 → t.clk.mgmtH1 = false → exec (.clockLost n missing) s = .next { s with
          blk := (t.setClk { t.clk with mgmtH1 := true }).clkEvent s.env 11 3 15 0xFF 0xFF 0xFFFF [] }))) ∧
  (∀ (s : State) (n : Fin 33), s.Up →
    (n.val ∉ s.blk.clk.lost → exec (.clockRecovery n) s = .next s) ∧
    (n.val ∈ s.blk.clk.lost → ∃ b c d : Block,
      b = (if n.val < 28 then s.blk.setPll n { mget {} s.blk.clk.plls n with lock := true, ready := true }
        else s.blk.setClk { s.blk.clk with
          refs := mset {} s.blk.clk.refs (n.val - 28) { mget {} s.blk.clk.refs (n.val - 28) with present := true, ready := true } }) ∧
      c = (recoveryDoms n).foldl (fun (b : Block) d => b.domainReset s.env d 4)
        ((b.setClk { b.clk with lost := b.clk.lost.filter (fun x => x ≠ n.val), alert := (b.clk.lost.filter (fun x => x ≠ n.val)).any (fun x => x ≠ 32)
          }).clkEvent s.env 2 0 15 n 0xFF 0xFFFF [(28, 1, s.blk.recoveryOf n)]) ∧
      d = (if s.blk.recoveryOf n = 2 then c.resetWithFault s.env (c.partOfPlate (n / 2)) 4
        else if s.blk.recoveryOf n = 3 then c.retainedReset s.env 4 else c) ∧
      exec (.clockRecovery n) s = .next { s with blk := d.clocksBack } ∧ n.val ∉ b.clk.lost.filter (fun x => x ≠ n.val))) ∧
  (∀ (b : Block) (n : Nat), n < 33 →
    (n < 16 → b.standby (n / 2) = n → b.recoveryOf n = 0) ∧
    (n < 16 → b.standby (n / 2) ≠ n → b.partOfPlate (n / 2) < 8 → b.recoveryOf n = 2) ∧
    ((16 ≤ n ∧ n < 24) ∨ n = 24 ∨ n = 26 ∨ n = 28 → b.recoveryOf n = 3) ∧
    (n = 25 ∨ n = 27 ∨ n = 29 ∨ n = 30 ∨ n = 31 → b.recoveryOf n = 1) ∧ (n = 32 → b.recoveryOf n = 0))

/-- R338, R339, R341 to R344: the cold start. The model's own readings in it: log entries 4, 61. -/
def Obligations.ColdStartRuns : Prop :=
  (∀ (s : State) (f : BootFinds), s.blk.module.powered = false ∨ s.blk.module.therm = true →
    exec (.coldReset f) s = .next { s with blk := s.blk.setModule { s.blk.module with resetLow := false } }) ∧
  (∀ (s : State) (f : BootFinds) (bad : Nat → Bool) (e done : Env), s.blk.module.powered = true → s.blk.module.therm = false →
    bad = (fun n => f.bad.contains n) → e = { clk := {}, tstate := 0, cur := [] } →
    done = { clk := { now := 1000 * f.ms }, tstate := 1, cur := [] } →
    ∃ t c0, exec (.coldReset f) s = .next t ∧ t = { s with time := { now := 1000 * f.ms }, cur := [], blk := t.blk } ∧
      c0.boot.flash = s.blk.boot.flash ∧ c0.int.spareStore = s.blk.int.spareStore ∧ c0.boot.retainedAsked = s.blk.boot.retainedAsked ∧
      c0.boot.pinSel = f.sel.val ∧ c0.boot.stage = 1 ∧ c0.fe.queues = [] ∧ c0.mem = ({} : Block).mem ∧
      (s.blk.boot.flash.choice bad = none → t.blk = c0.setBoot { c0.boot with stage := 2, recovery := true }) ∧
      (∀ h slot, s.blk.boot.flash.choice bad = some (h, slot) → ∃ (w : Firmware) (b c : Block),
        w = mget ({} : Firmware) s.blk.boot.flash.slots slot ∧
        b = (if slot ≠ (mget ({} : Header) s.blk.boot.flash.headers h).active then c0.bootEvent e 0x103 1 0xFF [(25, 1, slot)] else c0) ∧
        c = ((((((((b.setBoot { b.boot with fwSlot := slot, fwVer := w.ver, fwSvn := w.svn, fwKey := w.key }).readDeviceArea e bad).readProfiles e bad).lockAll).applySelected
          e f.sel).memStart e ((((((b.setBoot { b.boot with fwSlot := slot, fwVer := w.ver, fwSvn := w.svn, fwKey := w.key }).readDeviceArea e bad).readProfiles e bad).lockAll).applySelected
          e f.sel).boot.profile) f.channels).relimit 0).startPlates e f.proofs).bootDone done f.ms ∧
        c.boot.stage = 6 ∧ c.boot.ready = true ∧ c.boot.bootMs = f.ms ∧ c.fe.ready = true ∧
        (c.boot.retainedAsked = none → t.blk = c) ∧
        (∀ trigger, c.boot.retainedAsked = some trigger →
          t.blk = (c.setBoot { c.boot with retainedAsked := none }).retainedReset done trigger))) ∧
  (∀ (f : Flash) (bad : Nat → Bool),
    ((f.header bad 0).ok = false → (f.header bad 1).ok = false → f.choice bad = none) ∧
    ((f.header bad 0).ok = true → (f.header bad 1).ok = true → f.ruling bad = some (if (f.header bad 0).seq < (f.header bad 1).seq then 1 else 0)) ∧
    (∀ h, f.ruling bad = some h → (f.header bad h).ok = true ∧ ∀ s, s = (mget ({} : Header) f.headers h).active →
      (f.runs bad s = true → f.choice bad = some (h, s)) ∧
      (f.runs bad s = false → f.choice bad = if f.runs bad (1 - s) then some (h, 1 - s) else none)) ∧
    (∀ s, f.runs bad s = true → (mget ({} : Firmware) f.slots s).ok = true ∧ f.fuseSvn ≤ (mget ({} : Firmware) f.slots s).svn ∧
      (mget ({} : Firmware) f.slots s).key < 2 ∧ bit f.programmed (mget ({} : Firmware) f.slots s).key = true ∧
      bit f.revoked (mget ({} : Firmware) f.slots s).key = false))

/-- R8, R24, R339, R352, R367 to R370: warm resets and what ends them. The model's own readings in it: log entry 62. -/
def Obligations.RetainedResetsMerge : Prop :=
  (∀ (s : State), s.Up →
    (s.blk.boot.stage = 6 → exec .warmResetN s = .next { s with blk := s.blk.retainedReset s.env 0 }) ∧
    (s.blk.boot.stage ≠ 6 → exec .warmResetN s = .next { s with
      blk := { s.blk with boot := { s.blk.boot with retainedAsked := some 0 } } }) ∧
    (s.blk.clk.ret = none ∨ holdsRetained s.blk = true → exec .retainedResetSequence s = .next s) ∧
    (∀ run, s.blk.clk.ret = some run → holdsRetained s.blk = false → ∃ r : Block × SMap Nat,
      r = (List.range 8).foldl (fun acc p =>
        if acc.1.holdsJob p then
          (((acc.1.jobFaultWith s.env p 5 false).progressRewound s.env p).1,
            mset 0 acc.2 p ((acc.1.jobFaultWith s.env p 5 false).progressRewound s.env p).2)
        else acc) (s.blk.endRetained s.env run.since, s.cur) ∧
      exec .retainedResetSequence s = .next { s with blk := r.1, cur := r.2 } ∧ ∀ p, 8 ≤ p → mget 0 r.2 p = mget 0 s.cur p) ∧
    (s.blk.clk.mgmtH1 = true → exec .watchdogExpiry s = .next s) ∧
    (s.blk.clk.mgmtH1 = false → exec .watchdogExpiry s = .next { s with
      blk := (s.blk.setClk { s.blk.clk with mgmtH1 := true }).clkEvent s.env 11 3 15 0xFF 0xFF 0xFFFF [] }) ∧
    (∀ sel : Fin 4,
      (s.blk.boot.pinSel = sel.val → exec (.profileSelChange sel) s = .next s) ∧
      (s.blk.boot.pinSel ≠ sel.val → exec (.profileSelChange sel) s = .next { s with
        blk := (s.blk.setBoot { s.blk.boot with pinSel := sel }).bootEvent s.env 0x10A 1 0xFF [(25, 1, sel)] }))) ∧
  (∀ (b : Block) (e : Env) (trigger : Nat),
    (b.clk.ret ≠ none → b.retainedReset e trigger = b.bumpClk 0x200 1 ∧ ∀ p, b.partitionReset e p trigger = b) ∧
    ((b.endRetained e trigger).clk.ret = none ∧ (b.endRetained e trigger).clk.pstate = 0 ∧ (b.endRetained e trigger).clk.moving = none ∧
      (b.endRetained e trigger).fe.ready = true))

/-- R344, R351, R353: MCTP control messages and PLDM. The model's own readings in it: log entries 9, 11. -/
def Obligations.EndpointServesItsProtocols : Prop :=
  (∀ (s : State) (eid : Fin 256) (x : Sensor) (target : Fin 5) (image : List Byte), s.Up →
    (s.blk.boot.recovery = false → s.blk.boot.stage < 3 →
      ∀ i ∈ [Instr.setEndpointId eid, .getEndpointId, .getVersionSupport, .getMessageTypeSupport, .pldmDiscovery, .pldmSensorRead x,
        .pldmFirmwareUpdate target image], exec i s = .next s) ∧
    (s.blk.boot.recovery = true ∨ 3 ≤ s.blk.boot.stage →
      (∃ b, b = s.blk.setBoot { s.blk.boot with endpoint := { s.blk.boot.endpoint with eid := eid } } ∧
        exec (.setEndpointId eid) s = .next { s with blk := b.emit (.answer 1 [eid.val] []) }) ∧
      exec .getEndpointId s = .next { s with blk := s.blk.emit (.answer 2 [s.blk.boot.endpoint.eid] []) } ∧
      exec .getVersionSupport s = .next { s with blk := s.blk.emit (.answer 3 [1, 3] []) } ∧
      (exec .getMessageTypeSupport s = .next { s with
        blk := s.blk.emit (.answer 4 (if s.blk.boot.recovery then [0, 1] else [0, 1, 2]) []) }) ∧
      (exec .pldmDiscovery s = .next { s with
        blk := s.blk.emit (.answer 5 (if s.blk.boot.recovery then [0, 5] else [0, 2, 5]) []) }) ∧
      (s.blk.boot.recovery = true → exec (.pldmSensorRead x) s = .next s) ∧
      (s.blk.boot.recovery = false → exec (.pldmSensorRead x) s = .next { s with blk := s.blk.emit (.answer 6 (s.blk.sensor x) []) }) ∧
      (s.blk.boot.update ≠ none → exec (.pldmFirmwareUpdate target image) s = .next { s with blk := s.blk.emit (.answer 7 [1] []) }) ∧
      (s.blk.boot.update = none → exec (.pldmFirmwareUpdate target image) s = .next { s with
        blk := (s.blk.applyUpdate s.env target image).emit (.answer 7 [0] []) }))) ∧
  (∀ (b : Block),
    b.sensor .limit = [b.tim.limit] ∧ b.sensor .ready = [b2n b.boot.ready] ∧ b.sensor .recovery = [b2n b.boot.recovery] ∧
    b.sensor .profileFailed = [b2n b.boot.profileFailed] ∧ (∀ p, b.sensor (.partitionPower p) = [mget 0 b.tim.ppwr p]) ∧
    (∀ (p : Fin 8) t, b.module.temp 0 p = some t → b.sensor (.plateTemperature p) = [twos 16 t]) ∧
    (∀ (p : Fin 16) t, b.module.temp 1 p = some t → b.sensor (.stackTemperature p) = [twos 16 t]))

/-- R353, R354: SPDM. The model's own readings in it: log entries 9, 10. -/
def Obligations.SpdmFollowsItsOrder : Prop :=
  (∀ (s : State) (a h : Bool) (off len : Fin 65536) (nonce : List Byte) (index : Fin 256), s.Up →
    (s.blk.boot.recovery = true ∨ s.blk.boot.stage < 3 →
      ∀ i ∈ [Instr.getVersion, .getCapabilities, .negotiateAlgorithms a h, .getDigests, .getCertificate off len, .challenge nonce,
        .getMeasurements index nonce], exec i s = .next s) ∧
    (s.blk.boot.recovery = false → 3 ≤ s.blk.boot.stage →
      (∀ (c need : Nat) (i : Instr), (c, need, i) ∈ [(9, 1, Instr.getCapabilities), (10, 2, .negotiateAlgorithms a h), (11, 3, .getDigests),
          (12, 3, .getCertificate off len), (13, 3, .challenge nonce), (14, 3, .getMeasurements index nonce)] →
        s.blk.boot.endpoint.spdm < need → exec i s = .next { s with blk := s.blk.emit (.answer 0 [c] []) }) ∧
      exec .getVersion s = .next { s with blk := (s.blk.setSpdm 1).emit (.answer 8 [1, 2] []) } ∧
      (1 ≤ s.blk.boot.endpoint.spdm → exec .getCapabilities s = .next { s with
        blk := (s.blk.setSpdm (max 2 s.blk.boot.endpoint.spdm)).emit (.answer 9 [8, 9, 10, 11, 12, 13, 14] []) }) ∧
      (2 ≤ s.blk.boot.endpoint.spdm → exec (.negotiateAlgorithms a h) s = .next { s with
        blk := (if a = true ∧ h = true then s.blk.setSpdm 3 else s.blk).emit (.answer 10 [b2n a, b2n h] []) }) ∧
      (3 ≤ s.blk.boot.endpoint.spdm →
        exec .getDigests s = .next { s with blk := s.blk.emit (.answer 11 [] (Config.sha384 s.blk.boot.flash.cert)) } ∧
        (∃ bs : List Byte, bs = (s.blk.boot.flash.cert.drop off).take len ∧ exec (.getCertificate off len) s = .next { s with
          blk := s.blk.emit (.answer 12 [bs.length, s.blk.boot.flash.cert.length - off - bs.length] bs) }) ∧
        (∃ parts : List (List Byte), parts = [Config.sha384 s.blk.boot.flash.cert, nonce] ∧ exec (.challenge nonce) s = .next { s with
          blk := s.blk.emit (.answer 13 [] (parts.flatten ++ Config.identitySign (Config.spdmTranscript 13 parts))) }) ∧
        (index.val = 0 → exec (.getMeasurements index nonce) s = .next { s with
          blk := s.blk.emit (.answer 14 [5] (Config.identitySign (Config.spdmTranscript 14 [[], nonce]))) }) ∧
        (∀ l : List Nat, (index.val = 255 ∧ l = [1, 2, 3, 4, 5]) ∨ (index.val ≠ 0 ∧ index.val ≠ 255 ∧ l = [index.val]) →
          exec (.getMeasurements index nonce) s = .next { s with blk := s.blk.emit (.answer 14 l
            (s.blk.measureBlocks l ++ Config.identitySign (Config.spdmTranscript 14 [s.blk.measureBlocks l, nonce]))) }))))

/-- R376, R387, R389 to R392: bracketing, proof kernels, the health of rows. The model's own readings in it: log entries 22, 64. -/
def Obligations.FogIsFoundAndCharged : Prop :=
  (∀ (s : State) (k : Nat) (ox : Fin 640) (oy : Fin 512), s.Up →
    ((mget none s.blk.int.brackets k = none ∨ ∃ r, mget none s.blk.int.brackets k = some r ∧ r.other ≠ none) →
      ∀ equal, exec (.bracketCompare k ox oy equal) s = .next s) ∧
    (∀ r b, mget none s.blk.int.brackets k = some r → r.other = none → b = s.blk.bumpInt 0x188 1 →
      exec (.bracketCompare k ox oy true) s = .next { s with blk := r.frames.foldl (fun b f => b.freeFrame s.env integrityId 15 f) (b.setBracket k none) } ∧
      (∀ c, c = ((b.setBracket k (some { r with other := some (ox.val, oy.val) })).bumpInt 0x140 1) →
        ∃ d, d = (c.setCell r.x r.y ((c.cell r.x r.y).count 8 1)).intEvent s.env 4 (c.fogSev r.part) r.part (plateOf r.x r.y) r.x r.y [(32, 2, ox), (34, 2, oy), (36, 1, 0)] ∧
          (8 ≤ r.part → exec (.bracketCompare k ox oy false) s = .next { s with blk := d }) ∧
          (r.part < 8 → exec (.bracketCompare k ox oy false) s = .next { s with blk := d.jobFault s.env r.part 1 })))) ∧
  (∀ (s : State) (k : Nat), s.Up →
    ((mget none s.blk.int.brackets k = none ∨ ∃ r, mget none s.blk.int.brackets k = some r ∧ r.other = none) →
      ∀ v, exec (.bracketVote k v) s = .next s) ∧
    (∀ r ox oy b, mget none s.blk.int.brackets k = some r → r.other = some (ox, oy) → b = s.blk.dropBracket s.env k r →
      exec (.bracketVote k 0) s = .next { s with blk := b.bracketEvent s.env r ox oy 0 } ∧
      exec (.bracketVote k 1) s = .next { s with blk := (b.bracketEvent s.env r ox oy 1).chargeCell s.env r.x r.y } ∧
      exec (.bracketVote k 2) s = .next { s with blk := (b.bracketEvent s.env r ox oy 2).chargeCell s.env ox oy } ∧
      exec (.bracketVote k 3) s = .next { s with blk := ((b.bracketEvent s.env r ox oy 3).chargeCell s.env r.x r.y).chargeCell s.env ox oy })) ∧
  (∀ (s : State) (p : Fin 8) (col : Fin 160) (row : Fin 258) (kernel : Fin 256) (k : Nat) (b : Bool → Block), s.Up → k = (258 * p.val + row) * 160 + col →
    (∀ again, b again = { s.blk.bumpInt 0x158 1 with int := { (s.blk.bumpInt 0x158 1).int with proofTry := mset false s.blk.int.proofTry k again } }) →
    (mget false s.blk.int.proofTry k = false →
      exec (.proofKernelDone p col row kernel true) s = .next { s with blk := b false } ∧
      exec (.proofKernelDone p col row kernel false) s = .next { s with blk := b true }) ∧
    (mget false s.blk.int.proofTry k = true →
      exec (.proofKernelDone p col row kernel true) s = .next { s with blk := (b false).bumpInt 0x150 1 } ∧
      exec (.proofKernelDone p col row kernel false) s = .next { s with blk := (b false).proofFailed s.env p col row kernel } ∧
      ∀ (c : Block) (part x : Nat), c = (b false).bumpInt 0x148 1 → part = c.partOfPlate p → x = 160 * (p.val % 4) + col →
        ((b false).logicalRow p row = none → (b false).proofFailed s.env p col row kernel =
          (c.intEvent s.env 5 (c.fogSev part) part p x 0xFFFF [(32, 2, kernel)]).chargeRow s.env p row 1) ∧
        (∀ r y, (b false).logicalRow p row = some r → y = 256 * (p.val / 4) + r → ∃ d,
          d = (c.setCell x y ((c.cell x y).count 8 1)).intEvent s.env 5 (c.fogSev part) part p x y [(32, 2, kernel)] ∧
          (b false).proofFailed s.env p col row kernel = (if part < 8 then d.jobFault s.env part 1 else d).chargeRow s.env p row 1))) ∧
  (∀ (b c : Block) (e : Env) (plate row why : Nat) (h : RowHealth), h = b.rowHealth plate row →
    c = b.setRow plate row { h with
      fog := if why = 0 then min 255 (h.fog + 1) else h.fog, proof := if why = 0 then h.proof else min 255 (h.proof + 1), state := max 1 h.state } →
    (h.state < 2 → (why = 0 ∧ b.int.fogLimit ≤ h.fog + 1 ∧ b.int.fogLimit ≤ 255) ∨ why ≠ 0 → b.chargeRow e plate row why = c.failRow e plate row why) ∧
    (2 ≤ h.state ∨ (why = 0 ∧ h.fog + 1 < b.int.fogLimit ∧ h.proof = 0) → b.chargeRow e plate row why = c)) ∧
  (∀ (s : State) (p : Fin 8) (row : Fin 258) (h : RowHealth), s.Up → h = s.blk.rowHealth p row →
    (h.state = 1 ∧ h.fog ≤ 1 ∧ h.proof = 0 → exec (.fogChargeExpiry p row) s = .next { s with blk := s.blk.setRow p row { h with fog := 0, state := 0 } }) ∧
    (¬(h.state = 1 ∧ h.fog ≤ 1 ∧ h.proof = 0) → exec (.fogChargeExpiry p row) s = .next { s with blk := s.blk.setRow p row { h with fog := h.fog - 1 } })) ∧
  (∀ s : State, s.Up → exec .proofOverdueHour s = .next { s with
    blk := { s.blk with int := { s.blk.int with counters := bump s.blk.int.counters 0x160 1 } } }) ∧
  (∀ (s : State) (kind : Fin 256), s.Up → exec (.uncorrectedControl kind) s = .next { s with
    blk := ((s.blk.bumpInt 0x120 1).intEvent s.env 16 3 15 0xFF 0xFFFF 0xFFFF [(32, 1, kind)]).retainedReset s.env 2 })

/-- R402, R405, R406, R408: snapshots, contact sheets, breakpoints. The model's own readings in it: log entries 20, 65. -/
def Obligations.ObservationActs : Prop :=
  (∀ (s : State) (p : Fin 256) (cells hub : Bool) (scope : Fin 512) (stop : Bool) (u : Fin 16) (arm sc : Bool) (part : Fin 16) (pl : Fin 8) (cl : Fin 1024) (pc : Fin 2048) (m : Fin 256) (n : Nat),
    s.blk.boot.stage ≠ 6 → exec (.obsSnapReq p cells hub) s = .next s ∧ exec (.obsCsReq scope stop) s = .next s ∧
      exec (.obsBpArm u arm sc part pl cl pc) s = .next s ∧ exec (.obsBpResume m n) s = .next s) ∧
  (∀ (s : State) (p : Fin 256) (cells hub : Bool), s.Up → s.blk.boot.stage = 6 →
    (s.blk.obs.snap ≠ none → exec (.obsSnapReq p cells hub) s = .next { s with blk := { s.blk with obs := { s.blk.obs with counters := bump s.blk.obs.counters 0x428 1 } } }) ∧
    (s.blk.obs.snap = none → ∀ t, (s.time.now < s.blk.obs.snapTick → t = s.blk.obs.snapTick) → (s.blk.obs.snapTick ≤ s.time.now → t = s.time.now + 1) →
      exec (.obsSnapReq p cells hub) s = .next { s with
        blk := { s.blk with obs := { s.blk.obs with snap := some { tick := t, plates := p, cells := cells, hub := hub } } } })) ∧
  (∀ s : State, (s.blk.obs.snap = none → exec .snapshotTick s = .next s) ∧
    (∀ r s', s.blk.obs.snap = some r → s' = s.eventAt (some r.tick) → s'.Up → s'.blk.obs.snap = some r → ∀ l, l = s'.blk.snapEntries s'.env r →
      exec .snapshotTick s = .next { s' with
        blk := ({ s'.blk with obs := { s'.blk.obs with snap := none, snapTrunc := decide (65536 < l.length), snapBuf := l.take 65536 } } : Block).post s'.env
          { cls := 0, sev := 0, code := 0x106, part := 15, source := 0x1F
            payload := [(25, 1, if 65536 < l.length then 1 else 0), (28, 4, min 65536 l.length)] } })) ∧
  (∀ (s : State) (scope : Fin 512) (stop : Bool) (r : SheetReq), s.Up → s.blk.boot.stage = 6 →
    r = { trigger := 1, scope := scope, stop := stop, tick := s.time.now, queue := 0, seq := 0 } →
    (s.blk.obs.sheet = none → ∃ b, b = { s.blk with obs := { s.blk.obs with sheet := some r } } ∧
      exec (.obsCsReq scope stop) s = .next { s with blk := if stop then b.drainScope s.env scope else b }) ∧
    (∀ q, s.blk.obs.sheet = some q →
      (bit q.scope 8 = true ∨ (bit scope 8 = false ∧ scope.val % 256 &&& q.scope % 256 = scope.val % 256) → exec (.obsCsReq scope stop) s = .next s) ∧
      (bit q.scope 8 = false → bit scope 8 = true ∨ scope.val % 256 &&& q.scope % 256 ≠ scope.val % 256 →
        exec (.obsCsReq scope stop) s = .next { s with blk := { s.blk with obs := { s.blk.obs with waiting := s.blk.obs.waiting ++ [r] } } }))) ∧
  (∀ (s : State) (n : Nat), s.Up →
    (s.blk.obs.sheet = none → exec (.contactSheet n) s = .next s) ∧
    (∀ (r : SheetReq) (b c d : Block) (live : Nat), s.blk.obs.sheet = some r →
      live = ((s.blk.scopeStates r.scope).filter (fun x => !stillState x && x ≠ .idle)).length →
      (∀ k w, s.blk.obs.freeSlot = some k → w = (s.blk.writeSheet s.env r k).bumpObs 0x400 1 →
        b = (w.setObs { w.obs with lastSlot := k, nextSlot := (k + 1) % 8 }).obsEvent s.env 0x101 1 (sheetPart r.scope) k [(25, 1, r.trigger), (28, 2, live)]) →
      (s.blk.obs.freeSlot = none → b = (s.blk.bumpObs 0x408 1).obsEvent s.env 0x102 1 (sheetPart r.scope) 0 [(25, 1, r.trigger)]) →
      c = b.setObs { b.obs with sheet := none, after := [], waiting := b.obs.waiting.drop 1 } →
      d = ((if r.trigger = 0 then [r] else []) ++ b.obs.after).foldl (fun x a => x.afterDeadline s.env a)
        (if r.trigger = 1 ∧ r.stop = true then c.resumeScope r.scope n else c) →
      (b.obs.waiting = [] → exec (.contactSheet n) s = .next { s with blk := d }) ∧
      (∀ q l, b.obs.waiting = q :: l → exec (.contactSheet n) s = .next { s with blk := d.startSheet s.env q }))) ∧
  (∀ (b c : Block) (e : Env) (r : SheetReq) (k : Nat), c = b.writeSheet e r k →
    (∀ a, a < sheetAddr k ∨ sheetAddr k + 0x2000000 ≤ a → mget 0 c.mem.bytes a = mget 0 b.mem.bytes a) ∧
    (∀ o < 0x2000000, mget 0 c.mem.bytes (sheetAddr k + o) = if o < 0x300000 then b.sheetByte e r o else 0) ∧
    c = { b with mem := { b.mem with bytes := c.mem.bytes, poison := c.mem.poison } }) ∧
  (∀ (s : State) (k : Fin 16) (sc : Bool) (part : Fin 16) (pl : Fin 8) (cl : Fin 1024) (pc : Fin 2048) (u : Bool → BpUnit), s.Up → s.blk.boot.stage = 6 →
    (∀ arm, u arm = { s.blk.bp k with arm := arm, scope := sc, part := part, plate := pl, cluster := cl, pc := pc }) →
    exec (.obsBpArm k false sc part pl cl pc) s = .next { s with blk := s.blk.setBp k { u false with state := 0, reason := 0 } } ∧
    (∀ c, c = s.blk.armRefusal (u true) →
      (c = 0 → exec (.obsBpArm k true sc part pl cl pc) s = .next { s with blk := s.blk.setBp k { u true with state := 1, reason := 0, hits := 0 } }) ∧
      (c ≠ 0 → exec (.obsBpArm k true sc part pl cl pc) s = .next { s with blk := s.blk.setBp k { u true with state := 5, reason := c } }) ∧
      (8 ≤ part.val → c = 3) ∧ (part.val < 8 → 1 < (s.blk.gen part).job.devices.length → c = 1) ∧
      (part.val < 8 → (s.blk.gen part).job.devices.length ≤ 1 →
        c = if s.blk.holdsPlate part pl = true ∧ cl.val < 640 then 0 else 2))) ∧
  (∀ (s : State) (m : Fin 256) (n : Nat), s.Up → s.blk.boot.stage = 6 →
    exec (.obsBpResume m n) s = .next { s with
      blk := ((List.finRange 8).filter (fun p => bit m p.val)).foldl (fun b p => b.resumePart s.env p n) s.blk }) ∧
  (∀ (b c : Block) (e : Env) (p : Fin 8) (n : Nat), c = (b.liveRegions p).foldl (fun b i => b.doResumeStop ⟨p, i⟩ n) b →
    (∀ k < 16, ¬((c.bp k).part = p.val ∧ (c.bp k).state = 3)) → mget 0 c.obs.bpFrom p = 0 →
    (c.engine (mget ({} : Part) c.fe.parts p).first).sliceOver = false → c.obs.bpFrom = mset 0 c.obs.bpFrom p 0 → b.resumePart e p n = c)

/-- R419, R421, R423, R428 to R431, R436: sensors, TLIMIT, supply, RESET_N and the TAP. The model's own readings in it: log entries 2, 22, 66. -/
def Obligations.ModuleIsSuppliedAndCooled : Prop :=
  (∀ (b c : Block) (e : Env) (r : Reading) (k : Nat), c = b.takeReading e r → k = 256 * r.cls.val + r.index →
    c.module.temp r.cls r.index = some r.temp ∧
    (k ∈ c.module.warm ↔ ∃ l, warnAt r.cls = some l ∧ (l ≤ r.temp ∨ (k ∈ b.module.warm ∧ l - 3 < r.temp))) ∧
    (k ∈ c.module.hot ↔ ∃ l, throttleAt r.cls = some l ∧ (l ≤ r.temp ∨ (k ∈ b.module.hot ∧ l - 3 < r.temp))) ∧
    (∀ l, tripAt r.cls = some l → mget 0 c.module.tripRuns k = if l ≤ r.temp then mget 0 b.module.tripRuns k + 1 else 0) ∧
    (∀ j, j ≠ k → mget none c.module.temps j = mget none b.module.temps j ∧ (j ∈ c.module.warm ↔ j ∈ b.module.warm) ∧
      (j ∈ c.module.hot ↔ j ∈ b.module.hot) ∧ mget 0 c.module.tripRuns j = mget 0 b.module.tripRuns j) ∧
    c.module = { b.module with temps := c.module.temps, warm := c.module.warm, hot := c.module.hot, tripRuns := c.module.tripRuns } ∧
    (k ∈ b.module.warm ∨ k ∉ c.module.warm ∨ b.module.up = false → c = { b with module := c.module }) ∧
    (k ∉ b.module.warm → k ∈ c.module.warm → b.module.up = true →
      c = ({ b with module := c.module } : Block).moduleEvent e (if r.cls = 4 then 0x207 else 0x201) 1 r.cls r.index (twos 16 r.temp)
        (if r.cls = 4 then [(32, 2, twos 16 ((c.module.temp 5 0).getD 0))] else []))) ∧
  (List.range 6).map warnAt = [some 95, some 85, some 95, some 110, some 45, none] ∧
  (List.range 6).map throttleAt = [some 105, some 95, some 105, some 120, none, none] ∧
  (List.range 6).map tripAt = [some 115, some 105, some 115, some 130, none, none] ∧
  (∀ (s s' : State) (rs : List Reading) (b : Block) (m : Module), s' = s.eventAt (some (s.slot 100)) →
    b = rs.foldl (fun b r => b.takeReading s'.env r) s'.blk → m = b.module →
    (s'.blk.module.powered = false → exec (.thermalSample rs) s = .next s') ∧
    (s'.blk.module.powered = true → m.up = true → m.therm = false → ∀ k n, m.tripRuns.find? (fun x => decide (3 ≤ x.2)) = some (k, n) →
      exec (.thermalSample rs) s = .next { s' with blk := { b with module := { m with
        up := false, therm := true, trip := some { cls := k / 256, index := k % 256, temp := twos 8 ((mget none m.temps k).getD 0) } } } }) ∧
    (s'.blk.module.powered = true → m.up = false ∨ m.therm = true ∨ m.tripRuns.find? (fun x => decide (3 ≤ x.2)) = none →
      exec (.thermalSample rs) s = .next { s' with
        blk := if m.heldReset = true ∧ m.cool = true then { b with module := { m with heldReset := false, therm := false } } else b })) ∧
  (∀ (s s' : State) (b : Block) (e : Env) (m : Module) (t : Nat), s' = s.eventAt (some (s.slot 100000)) → s'.Up → b = s'.blk → e = s'.env → m = b.module →
    (m.throttling = true → t = max 1500 (min m.tlimit (if b.tim.msMeans = [] then m.tlimit else mean b.tim.msMeans) - 100) →
      (m.throttled = true → exec .tlimitUpdate s = .next { s' with blk := ({ b with module := { m with tlimit := t } } : Block).relimit s'.time.now }) ∧
      (m.throttled = false → ∀ k v, m.temps.find? (fun x => match x.2, throttleAt (x.1 / 256) with | some t, some l => decide (l ≤ t) | _, _ => false) = some (k, v) →
        exec .tlimitUpdate s = .next { s' with
        blk := (({ b with module := { m with tlimit := t, throttled := true, throttleFrom := s'.time.now } } : Block).moduleEvent e 0x202 1 (k / 256) (k % 256)
          (twos 16 ((m.temp (k / 256) (k % 256)).getD 0)) [(32, 2, t)]).relimit s'.time.now })) ∧
    (m.throttling = false → m.wellBelow = true → m.tlimit < 6900 → t = min 6900 (m.tlimit + (if b.boot.profile.mains60 then 6 else 5) * b.tim.slew) →
      (t < 6900 → exec .tlimitUpdate s = .next { s' with blk := ({ b with module := { m with tlimit := t } } : Block).relimit s'.time.now }) ∧
      (t = 6900 → ∀ c : Block, c = { b with module := { m with tlimit := t, throttled := false } } →
        (m.throttled = false → exec .tlimitUpdate s = .next { s' with blk := c.relimit s'.time.now }) ∧
        (m.throttled = true → exec .tlimitUpdate s = .next { s' with
          blk := (c.moduleEvent e 0x203 0 0xFF 0 0 [(32, 8, (s'.time.now - m.throttleFrom) / 1000)]).relimit s'.time.now }))) ∧
    (m.throttling = false → (m.wellBelow = false ∨ 6900 ≤ m.tlimit) → exec .tlimitUpdate s = .next s')) ∧
  (∀ (s : State) (m : Module), m = s.blk.module →
    (m.powered = true → exec .modulePowerUp s = .next s) ∧
    (m.powered = false → exec .modulePowerUp s = .next { s with
      blk := { s.blk with module := { powered := true, up := false, resetLow := m.resetLow, tap := m.tap } } }) ∧
    exec .powerFail s = .next { s with blk := { s.blk with module := { m with powered := false, up := false } } } ∧
    (∀ boot, boot = { s.blk.boot with retainedAsked := none } →
      (m.therm = true → m.cool = false → exec .resetNAssertion s = .next { s with
        blk := { s.blk with boot := boot, module := { m with resetLow := true, heldReset := true, up := false } } }) ∧
      (m.therm = true → m.cool = true → exec .resetNAssertion s = .next { s with
        blk := { s.blk with boot := boot, module := { m with resetLow := true, heldReset := false, therm := false, up := false } } }) ∧
      (m.therm = false → exec .resetNAssertion s = .next { s with
        blk := { s.blk with boot := boot, module := { m with resetLow := true, heldReset := false, up := false } } })) ∧
    (m.powered = true →
      exec .bypass s = .next { s with blk := { s.blk with module := { m with tap := 0 } } } ∧
      exec .idcode s = .next { s with
        blk := { s.blk with module := { m with tap := 1 }, out := s.blk.out ++ [.scan (Config.fuseStepping % 16 * 2 ^ 28 + 0xC051A3B)] } } ∧
      exec .sample s = .next { s with blk := { s.blk with module := { m with tap := 2 } } } ∧
      exec .extest s = .next { s with blk := { s.blk with module := { m with tap := if m.resetLow then 3 else 0 } } }) ∧
    (m.powered = false → ∀ i ∈ [Instr.bypass, .idcode, .sample, .extest], exec i s = .next s)) ∧
  (∀ (s : State) (v sec : Nat), s.Up → v = s.blk.tim.vin → sec = s.time.now / 1000000 + 1 →
    (4200 ≤ v → v < 4800 → s.blk.module.lowAt ≠ sec → exec .inputLow s = .next { s with
      blk := ({ s.blk with module := { s.blk.module with lowAt := sec } } : Block).moduleEvent s.env 0x205 1 0xFF 0 v [(32, 2, min 0xFFFF s.blk.ilimit)] }) ∧
    (v < 4200 ∨ 4800 ≤ v ∨ s.blk.module.lowAt = sec → exec .inputLow s = .next s) ∧
    (6200 < v → s.blk.module.highAt ≠ sec → exec .inputHigh s = .next { s with
      blk := ({ s.blk with module := { s.blk.module with highAt := sec } } : Block).moduleEvent s.env 0x206 1 0xFF 0 v [] }) ∧
    (v ≤ 6200 ∨ s.blk.module.highAt = sec → exec .inputHigh s = .next s))

/-- R5 to R7, R299, R367, R435: register words, pairs and latches; a partition reset ends; a PCIe port comes up. The model's own readings in it: log entries 57, 58. -/
def Obligations.RegistersAreWrittenAndRead : Prop :=
  (∀ (s : State) (f : Fin 9) (off : Fin (2 ^ 26)) (v : Fin (2 ^ 32)), s.Up →
    (s.blk.barUp = false → exec (.registerWrite f false off v) s = .next s) ∧
    (f ≠ 0 ∨ s.blk.boot.stage ≠ 6 → exec (.registerWrite f true off v) s = .next s)) ∧
  (∀ (s : State) (off : Fin (2 ^ 26)) (v : Fin (2 ^ 32)) (a lo : Nat), s.HostUp → a = off.val / 4 * 4 → lo = off.val / 8 * 8 →
    (s.blk.pair s.env lo = none → exec (.registerWrite 0 false off v) s = .next { s with blk := s.blk.writeSolo s.env 0 a v }) ∧
    (∀ old b, s.blk.pair s.env lo = some old → b = { s.blk with latches := mset 0 s.blk.latches lo 0 } →
      (s.blk.reachesPair 0 lo = false → exec (.registerWrite 0 false off v) s = .next { s with blk := b }) ∧
      (s.blk.reachesPair 0 lo = true →
        (a = lo → exec (.registerWrite 0 false off v) s = .next { s with blk := { b with loWrites := mset 0 b.loWrites lo (v + 1) } }) ∧
        (a ≠ lo → ∀ l, (mget 0 s.blk.loWrites lo = 0 → l = old % 2 ^ 32) → (mget 0 s.blk.loWrites lo ≠ 0 → l = mget 0 s.blk.loWrites lo - 1) →
          exec (.registerWrite 0 false off v) s = .next { s with
            blk := ({ b with loWrites := mset 0 b.loWrites lo 0 } : Block).writePair s.env 0 lo (v * 2 ^ 32 + l) })))) ∧
  (∀ (b : Block) (e : Env) (v : Nat),
    b.writeSolo e 0 0x1000008 v = { b with int := { b.int with proofPeriod := max 10 (min 86400 v) } } ∧
    b.writeSolo e 0 0x100000C v = { b with int := { b.int with fogWindow := max 1 (min 168 (v % 256)) } } ∧
    b.writeSolo e 0 0x30001C v = { b with tim := { b.tim with holdLimit := max 1 (min 3600 v) } } ∧
    b.writeSolo e 0 0xA0002C v = { b with mem := { b.mem with scrubPeriod := max 1 (min 168 (v % 256)) } } ∧
    b.writeSolo e 0 0xC02008 v = { b with link := { b.link with peerHold := max 1 (min 10000 (v % 65536)) } } ∧
    (bit v 31 = true → b.writeSolo e 0 0x114 v = { b with module := { b.module with trip := b.module.trip.map (fun t => { t with valid := false }) } }) ∧
    (bit v 31 = false → b.writeSolo e 0 0x114 v = b) ∧
    (∀ a, a / 0x100000 = 1 → b.writeSolo e 0 a v = b) ∧
    (∀ f a, f ≠ 0 → a / 0x100000 ≠ 4 → a / 0x100000 ≠ 5 → a / 0x100000 ≠ 6 → b.writeSolo e f a v = b)) ∧
  (∀ (s : State) (off : Fin (2 ^ 26)) (a lo : Nat), s.HostUp → s.blk.boot.recovery = false → a = off.val / 4 * 4 → lo = off.val / 8 * 8 →
    ∀ v b, s.blk.pair s.env lo = some v →
    (a = lo → b = { s.blk with latches := mset 0 s.blk.latches lo (v / 2 ^ 32 % 2 ^ 32 + 1) } →
      (lo ≠ 0x300008 → exec (.registerPairRead 0 false off) s = .next { s with blk := b.emit (.completion 0 (leBytes 4 (v % 2 ^ 32)) false) }) ∧
      (lo = 0x300008 → exec (.registerPairRead 0 false off) s = .next { s with
        blk := ({ b with latches := mset 0 b.latches 0x300010 (s.time.frac % 65536 + 1) } : Block).emit (.completion 0 (leBytes 4 (v % 2 ^ 32)) false) })) ∧
    (a ≠ lo → b = { s.blk with latches := mset 0 s.blk.latches lo 0 } →
      (mget 0 s.blk.latches lo = 0 → exec (.registerPairRead 0 false off) s = .next { s with
        blk := b.emit (.completion 0 (leBytes 4 (v / 2 ^ 32 % 2 ^ 32)) false) }) ∧
      (mget 0 s.blk.latches lo ≠ 0 → exec (.registerPairRead 0 false off) s = .next { s with
        blk := b.emit (.completion 0 (leBytes 4 (mget 0 s.blk.latches lo - 1)) false) }))) ∧
  (∀ (s : State) (f : Fin 9) (off : Fin (2 ^ 26)), s.Up → s.blk.boot.recovery = false → s.blk.barUp = false →
    exec (.registerPairRead f false off) s = .next { s with blk := s.blk.emit (.completion f (leBytes 4 (2 ^ 32 - 1)) false) }) ∧
  (∀ (s : State) (p : Fin 8) (b : Block), s.Up →
    (mget none s.blk.clk.parts p = none → b = s.blk) →
    (∀ run, mget none s.blk.clk.parts p = some run →
      ((∃ k n, k ∈ s.blk.platesOf p ∧ n ∈ s.blk.clk.lost ∧ n / 2 = k ∧ n < 16 ∧ s.blk.standby k ≠ n) → b = s.blk) ∧
      ((∀ k n, k ∈ s.blk.platesOf p → n ∈ s.blk.clk.lost → n / 2 = k → n < 16 → s.blk.standby k = n) → b =
        ((s.blk.setClk { s.blk.clk with parts := mset none s.blk.clk.parts p none }).setDoms ((s.blk.platesOf p).flatMap plateDoms) 2 0).clkEvent
          s.env 5 0 p 0xFF 2 0xFFFF [(28, 4, s.time.now - run.since)])) →
    exec (.partitionResetDone p) s = .next { s with blk := (b.progressRewound s.env p).1, cur := mset 0 s.cur p (b.progressRewound s.env p).2 } ∧
    ((b.gen p).regs.state ≠ 5 → exec (.partitionResetDone p) s = .next { s with blk := b, cur := mset 0 s.cur p (s.env.curGen p) })) ∧
  (∀ s : State, s.Up →
    exec (.pcieLinkUp false) s = .next { s with blk := { s.blk with fe := { s.blk.fe with linkUpA := true } } } ∧
    exec (.pcieLinkUp true) s = .next { s with blk := { s.blk with fe := { s.blk.fe with linkUpB := true } } })

/-- R312: which queues bind to which engine. -/
def Obligations.BindingsFollowTheTable : Prop :=
  ∀ (s : State) (f : Fin 9) (q : Fin 256) (eng : Fin 64) (part : Fin 16) (x : Queue) (p : Nat) (allowed : Prop), s.Up →
    s.blk.reachesQueue f q = true → x = s.blk.queue q → p = (if f.val = 0 then part.val else x.part) →
    (allowed ↔ (eng.val < 8 ∧ p < 8 ∧ (mget ({} : Part) s.blk.fe.parts p).valid = true ∧ (mget ({} : Part) s.blk.fe.parts p).first = eng.val) ∨
      (8 ≤ eng.val ∧ eng.val ≤ 46 ∧ (p < 8 ∨ p = 15)) ∨ (eng.val = 47 ∧ p = 15)) →
    (¬allowed ∨ (x.enable = true ∧ (p ≠ x.part ∨ eng.val ≠ x.engine)) →
      ∃ t : Block, exec (.queueBind f q eng part) s = .next { s with blk := t } ∧
        t = { s.blk with fe := { s.blk.fe with counters := t.fe.counters } } ∧
        mget 0 t.fe.counters 0x830 = min (mget 0 s.blk.fe.counters 0x830 + 1) (2 ^ 48 - 1) ∧
        ∀ k, k ≠ 0x830 → mget 0 t.fe.counters k = mget 0 s.blk.fe.counters k) ∧
    (allowed → ¬(x.enable = true ∧ (p ≠ x.part ∨ eng.val ≠ x.engine)) →
      ∃ t : Block, exec (.queueBind f q eng part) s = .next { s with blk := t } ∧
        (t.queue q).engine = eng.val ∧ (t.queue q).part = p ∧ (t.queue q).enable = x.enable ∧
        t = { s.blk with fe := { s.blk.fe with queues := t.fe.queues } } ∧ ∀ k, k ≠ q.val → t.queue k = s.blk.queue k)

/-- R36: the integer formats and the packing of small elements. -/
def Obligations.PackedElementsAreInPlace : Prop :=
  (∀ (i : Int) (sc : Nat),
    (-128 ≤ i → i ≤ 127 → elemValue .int8 sc (i % 256).toNat = (.ofInt i, false)) ∧
    (0 ≤ i → i ≤ 255 → elemValue .uint8 sc i.toNat = (.ofInt i, false)) ∧
    (-8 ≤ i → i ≤ 7 → elemValue .int4 sc (i % 16).toNat = (.ofInt i, false))) ∧
  (∀ raw sc : Nat,
    (∃ i : Int, -128 ≤ i ∧ i ≤ 127 ∧ elemValue .int8 sc raw = (.ofInt i, false)) ∧
    (∃ i : Int, 0 ≤ i ∧ i ≤ 255 ∧ elemValue .uint8 sc raw = (.ofInt i, false)) ∧
    (∃ i : Int, -8 ≤ i ∧ i ≤ 7 ∧ elemValue .int4 sc raw = (.ofInt i, false))) ∧
  (∀ f ∈ [Fmt.int4, .mx4], ∀ (bs : List Byte) (i : Nat),
    elemRaw f bs (2 * i) = (bs.getD i 0).toNat % 16 ∧ elemRaw f bs (2 * i + 1) = (bs.getD i 0).toNat / 16) ∧
  (∀ f ∈ [Fmt.mx6e2m3, .mx6e3m2], ∀ (bs : List Byte) (i j : Nat), j < 4 →
    elemRaw f bs (4 * i + j) =
      ((bs.getD (3 * i) 0).toNat + 256 * (bs.getD (3 * i + 1) 0).toNat + 65536 * (bs.getD (3 * i + 2) 0).toNat) / 2 ^ (6 * j) % 64) ∧
  (∀ f ∈ [Fmt.int4, .mx4, .mx6e2m3, .mx6e3m2], ∀ (xs : List Nat) (i : Nat), i < xs.length →
    elemRaw f (packRaw f xs) i = xs.getD i 0 % 2 ^ f.elemBits)

/-- The step: the command at the front of the queue, or a campus tick (the queue and the tick are the model's, log entries 1 and 3). -/
def Obligations.StepTakesTheFront : Prop :=
  (∀ (c : Instr) (s : State) (rest : List Instr), step { s with pending := c :: rest } = exec c { s with pending := rest }) ∧
  (∀ s : State, s.pending = [] → ∃ t, step s = .next t ∧ t.time = { now := s.time.now + 1, frac := 0 } ∧ t.cur = s.cur ∧ t.pending = [] ∧
    (s.blk.module.up = false → t.blk = s.blk) ∧ (s.blk.module.up = true → t.blk = s.blk.elapse s.time.now (s.time.now + 1)))

/-- R92, R93: the 64-bit instructions of region programs and their words. -/
def Obligations.OperationWordsRoundTrip : Prop :=
  (∀ op : SeqOp, op.wf = true → SeqOp.decode op.encode = some op ∧ op.encode < 2 ^ 64) ∧
  (∀ (w : Nat) (op : SeqOp), w < 2 ^ 64 → SeqOp.decode w = some op → op.encode = w ∧ op.wf = true)

/-- The state after reset (R179, R223, R316, R338, R430, R435; the choices are log entries 4 to 6). -/
def Obligations.ResetIsSound : Prop :=
  State.reset.Sound ∧ State.reset.pending = [] ∧ State.reset.blk.mem.bytes = [] ∧ State.reset.blk.mem.wf = true ∧
  (∀ a, mget 0 State.reset.blk.mem.bytes a = 0) ∧ State.reset.blk.barUp = false ∧ State.reset.blk.boot.stage = 0 ∧
  State.reset.time = { now := 0, frac := 0 } ∧ State.reset.blk.tim.tstate = 0 ∧ State.reset.blk.tim.slew = 500 ∧
  State.reset.blk.module.tlimit = 6900 ∧ State.reset.blk.module.trip = none ∧ State.reset.blk.int.proofPeriod = 300 ∧
  State.reset.blk.int.fogWindow = 24 ∧ State.reset.blk.int.fogLimit = 2 ∧ State.reset.blk.int.brkN = 16 ∧ State.reset.blk.mem.scrubPeriod = 24 ∧
  (∀ q, (State.reset.blk.queue q).enable = false ∧ (State.reset.blk.queue q).part = 15) ∧
  (∀ p, (mget ({} : Part) State.reset.blk.fe.parts p).valid = false) ∧ (∀ n, (State.reset.blk.obj n).holder = 0)

/-- R19, R25, R169, R179, R182: what no command can do to campus time, to the current generations and to the queue. -/
def Obligations.EveryStepKeepsOrder : Prop :=
  (∀ s t : State, s.Sound → step s = .next t → t.Sound) ∧
  (∀ (c : Instr) (s : State), (∃ t, exec c s = .next t) ∨
    (∃ v i, c = .powerSample v i ∧ (7200 < v.val ∨ 20000 < i.val) ∧ exec c s = .fault .absoluteMaximum)) ∧
  (∀ (c : Instr) (s t : State), exec c s = .next t →
    t.pending = s.pending ∧ (¬StartsTime c → NotBefore s t) ∧ (¬AdvancesGeneration c → ∀ p, mget 0 t.cur p ≤ mget 0 s.cur p)) ∧
  (∀ (p : Fin 8) (s t : State) (q : Nat), exec (.fixTick p) s = .next t →
    mget 0 t.cur q = mget 0 s.cur q ∨ (q = p.val ∧ mget 0 t.cur q = (mget 0 s.cur p + 1) % 2 ^ 48))

end
end

