-- ==== Sys2Proof/Laws/Bits.lean ====
section
/-! SUPPORT. Numbers as little-endian bytes. -/
namespace Sys2Proof.Machine

@[simp] theorem length_leBytes (n v : Nat) : (leBytes n v).length = n := by
  induction n generalizing v with
  | zero => rfl
  | succ n ih => simp [leBytes, ih]

/-- Bytes spell the number that was split into them, as far as it fits. -/
theorem leNat_leBytes (n v : Nat) : leNat (leBytes n v) = v % 2 ^ (8 * n) := by
  induction n generalizing v with
  | zero => simp [leBytes, leNat, Nat.mod_one]
  | succ n ih =>
    simp only [leBytes, leNat, ih]
    have h1 : (BitVec.ofNat 8 v : Byte).toNat = v % 256 := by simp [BitVec.toNat_ofNat]
    rw [h1, Nat.shiftRight_eq_div_pow]
    have h2 : 2 ^ (8 * (n + 1)) = 256 * 2 ^ (8 * n) := by rw [Nat.mul_add, Nat.pow_add, Nat.mul_comm]
    rw [h2, Nat.mod_mul]

/-- A number of `n` bytes survives being split and put together. -/
theorem leNat_leBytes_of_lt (n v : Nat) (h : v < 2 ^ (8 * n)) : leNat (leBytes n v) = v := by
  rw [leNat_leBytes, Nat.mod_eq_of_lt h]

end Sys2Proof.Machine
end

