-- ==== Sys2Proof/Laws/Events.lean ====
section
/-! SUPPORT. What a report may change: one lemma per reporting operation. -/
namespace Sys2Proof.Machine

theorem Reports.refl (b : Block) : Reports b b := rfl

theorem Reports.trans {a b c : Block} (h : Reports a b) (k : Reports b c) : Reports a c := by
  unfold Reports at *
  rw [k, h]

theorem Reports.foldl {α : Type} {f : Block → α → Block} (h : ∀ b x, Reports b (f b x)) (l : List α) (b : Block) :
    Reports b (l.foldl f b) := by
  induction l generalizing b with
  | nil => exact .refl b
  | cons x l ih => exact (h b x).trans (ih (f b x))

theorem Reports.evt (b : Block) (u : EventUnit) : Reports b { b with evt := u } := rfl
theorem Reports.trace (b : Block) (t : TraceUnit) : Reports b (b.setTrace t) := rfl
theorem emit_reports (b : Block) (o : Out) : Reports b (b.emit o) := rfl
theorem writeHost_reports (b : Block) (a : Nat) (bs : List Byte) : Reports b (b.writeHost a bs) := rfl

theorem viaPort_reports (b : Block) (p : Bool) : Reports b (b.viaPort p) := by
  unfold Block.viaPort
  extract_lets own other
  by_cases h : (!own && other) = true
  · rw [if_pos h]; rfl
  · rw [if_neg h]; rfl

theorem fireMsix_reports (b : Block) (f v : Nat) : Reports b (b.fireMsix f v) := by
  unfold Block.fireMsix; dsimp only; split
  · exact .evt _ _
  · exact (viaPort_reports b false).trans (emit_reports _ _)

theorem putRecord_reports (b : Block) (k : Nat) (bs : List Byte) : Reports b (b.putRecord k bs) := by
  unfold Block.putRecord
  extract_lets
  exact ((Reports.evt _ _).trans (viaPort_reports _ false)).trans (writeHost_reports _ _ _)

theorem ringIrq_reports (b : Block) (e : Env) (k v : Nat) : Reports b (b.ringIrq e k v) := by
  unfold Block.ringIrq
  extract_lets
  split
  · exact (Reports.evt _ _).trans (fireMsix_reports _ _ _)
  · exact .evt _ _

theorem toRing_reports (b : Block) (e : Env) (bs : List Byte) (v q k : Nat) : Reports b (b.toRing e bs v q k) := by
  unfold Block.toRing; dsimp only; split
  · rfl
  · exact (putRecord_reports _ _ _).trans (ringIrq_reports _ _ _ _)

theorem postRaw_reports (b : Block) (e : Env) (ev : Event) : Reports b (b.postRaw e ev) := by
  unfold Block.postRaw
  extract_lets
  exact (Reports.evt _ _).trans (.foldl (fun _ _ => toRing_reports _ _ _ _ _ _) _ _)

theorem traceStop_reports (b : Block) (e : Env) (n : Nat) : Reports b (b.traceStop e n) :=
  (Reports.trace b _).trans (postRaw_reports _ _ _)

theorem traceRec_reports (b : Block) (e : Env) (i j p : Nat) : Reports b (b.traceRec e i j p) := by
  unfold Block.traceRec
  extract_lets t
  split
  · rfl
  · split
    · exact (Reports.trace _ _).trans (traceStop_reports _ _ _)
    · exact .trace _ _

theorem traceEvent_reports (b : Block) (e : Env) (ev : Event) : Reports b (b.traceEvent e ev) := by
  unfold Block.traceEvent
  extract_lets t hit b1 b2
  have h1 : Reports b b1 := by
    show Reports b (if _ then _ else _)
    split
    · exact .trace _ _
    · rfl
  have h2 : Reports b b2 := h1.trans (traceRec_reports _ _ _ _ _)
  split
  · exact h2.trans (traceStop_reports _ _ _)
  · exact h2

/-- Writing an event record is a report. -/
theorem post_reports (b : Block) (e : Env) (ev : Event) : Reports b (b.post e ev) :=
  (postRaw_reports b e ev).trans (traceEvent_reports _ e ev)

theorem runEvent_reports (b : Block) (e : Env) (p c x y : Nat) (m : List (Nat × Nat × Nat)) :
    Reports b (b.runEvent e p c x y m) := post_reports _ _ _

theorem obsEvent_reports (b : Block) (e : Env) (c v p u : Nat) (m : List (Nat × Nat × Nat)) :
    Reports b (b.obsEvent e c v p u m) := post_reports _ _ _

theorem traceBranch_reports (b : Block) (e : Env) (r : RegionId) (i j : Nat) : Reports b (b.traceBranch e r i j) := by
  unfold Block.traceBranch; dsimp only; split
  · exact traceRec_reports _ _ _ _ _
  · rfl

theorem traceFreeze_reports (b : Block) (e : Env) (r : RegionId) (c : Nat) (v : Bool) : Reports b (b.traceFreeze e r c v) := by
  unfold Block.traceFreeze; dsimp only; split
  · exact traceRec_reports _ _ _ _ _
  · rfl

/-- A report changes no region, cluster or cell. -/
theorem Reports.plates {b c : Block} (h : Reports b c) : c.plates = b.plates := by rw [h]

theorem Reports.region {b c : Block} (h : Reports b c) (q : RegionId) : c.region q = b.region q := by
  simp only [Block.region, Block.image, h.plates]

theorem Reports.cluster {b c : Block} (h : Reports b c) (x y : Nat) : c.cluster x y = b.cluster x y := by
  simp only [Block.cluster, h.plates]

theorem Reports.cell {b c : Block} (h : Reports b c) (x y : Nat) : c.cell x y = b.cell x y := by
  simp only [Block.cell, h.plates]

theorem Reports.syn_eq {b c : Block} (h : Reports b c) : c.syn = b.syn := by rw [h]
theorem Reports.mem_eq {b c : Block} (h : Reports b c) : c.mem = b.mem := by rw [h]
theorem Reports.shc_eq {b c : Block} (h : Reports b c) : c.shc = b.shc := by rw [h]
theorem Reports.gens_eq {b c : Block} (h : Reports b c) : c.gens = b.gens := by rw [h]
theorem Reports.int_eq {b c : Block} (h : Reports b c) : c.int = b.int := by rw [h]
theorem Reports.topo_eq {b c : Block} (h : Reports b c) : c.topo = b.topo := by rw [h]
theorem Reports.msgs_eq {b c : Block} (h : Reports b c) : c.msgs = b.msgs := by rw [h]
theorem Reports.clk_eq {b c : Block} (h : Reports b c) : c.clk = b.clk := by rw [h]
theorem Reports.tim_eq {b c : Block} (h : Reports b c) : c.tim = b.tim := by rw [h]
theorem Reports.module_eq {b c : Block} (h : Reports b c) : c.module = b.module := by rw [h]
theorem Reports.boot_eq {b c : Block} (h : Reports b c) : c.boot = b.boot := by rw [h]
theorem Reports.link_eq {b c : Block} (h : Reports b c) : c.link = b.link := by rw [h]
theorem Reports.coll_eq {b c : Block} (h : Reports b c) : c.coll = b.coll := by rw [h]
theorem Reports.latches_eq {b c : Block} (h : Reports b c) : c.latches = b.latches := by rw [h]

end Sys2Proof.Machine
end

