-- ==== Sys2Proof/Laws/SMap.lean ====
section
/-! SUPPORT. The sparse map: reading what was written, and the canonical form. -/
namespace Sys2Proof.Machine

variable {α : Type}

@[simp] theorem mget_nil (d : α) (k : Nat) : mget d [] k = d := rfl

theorem mget_mput (d : α) (m : SMap α) (k j : Nat) (x : α) :
    mget d (mput m k x) j = if k = j then x else mget d m j := by
  induction m with
  | nil => simp [mput, mget]
  | cons a m ih =>
    obtain ⟨i, v⟩ := a
    simp only [mput]
    split
    · subst i; simp only [mget]; split <;> rfl
    · split
      · simp only [mget]
      · simp only [mget, ih]
        by_cases h : i = j
        · subst h; simp [Ne.symm ‹_›]
        · simp [h]

theorem mget_mdel (d : α) (m : SMap α) (k j : Nat) : mget d (mdel m k) j = if k = j then d else mget d m j := by
  induction m with
  | nil => simp [mdel]
  | cons a m ih =>
    obtain ⟨i, v⟩ := a
    simp only [mdel]
    by_cases hik : i = k
    · subst hik
      simp only [if_true, ih, mget]
      split <;> rfl
    · simp only [if_neg hik, mget, ih]
      by_cases hij : i = j
      · subst hij; simp [Ne.symm hik]
      · simp [hij]

theorem mdel_mdel (m : SMap α) (k : Nat) : mdel (mdel m k) k = mdel m k := by
  induction m with
  | nil => rfl
  | cons a m ih =>
    obtain ⟨i, v⟩ := a
    by_cases h : i = k <;> simp [mdel, h, ih]

theorem mdel_mput (m : SMap α) (k : Nat) (x : α) : mdel (mput m k x) k = mdel m k := by
  induction m with
  | nil => simp [mput, mdel]
  | cons a m ih =>
    obtain ⟨i, v⟩ := a
    simp only [mput]
    by_cases h1 : i = k
    · simp [h1, mdel]
    · by_cases h2 : k < i
      · simp [h1, h2, mdel]
      · simp [h1, h2, mdel, ih]

theorem mput_mput (m : SMap α) (k : Nat) (x y : α) : mput (mput m k x) k y = mput m k y := by
  induction m with
  | nil => simp [mput]
  | cons a m ih =>
    obtain ⟨i, v⟩ := a
    simp only [mput]
    by_cases h1 : i = k
    · simp [h1, mput]
    · by_cases h2 : k < i
      · simp [h1, h2, mput]
      · simp [h1, h2, mput, ih]

theorem mput_ne_nil (m : SMap α) (k : Nat) (x : α) : mput m k x ≠ [] := by
  cases m with
  | nil => simp [mput]
  | cons a m =>
    obtain ⟨j, v⟩ := a
    simp only [mput]
    split
    · simp
    · split <;> simp

variable [DecidableEq α]

/-- Reading a map after a write: the value at the index written, every other index as before. -/
theorem mget_mset (d : α) (m : SMap α) (k j : Nat) (x : α) : mget d (mset d m k x) j = if k = j then x else mget d m j := by
  unfold mset
  split
  · next hx => subst hx; exact mget_mdel x m k j
  · exact mget_mput d m k j x

@[simp] theorem mget_mset_self (d : α) (m : SMap α) (k : Nat) (x : α) : mget d (mset d m k x) k = x := by
  simp [mget_mset]

/-- A write leaves every other index alone. -/
theorem mget_mset_other (d : α) (m : SMap α) (k j : Nat) (x : α) (h : k ≠ j) : mget d (mset d m k x) j = mget d m j := by
  simp [mget_mset, h]

theorem mget_mmod (d : α) (m : SMap α) (k j : Nat) (f : α → α) :
    mget d (mmod d m k f) j = if k = j then f (mget d m k) else mget d m j := mget_mset d m k j _

/-- The second of two writes stands, where it writes no default after a default. -/
theorem mset_mset (d : α) (m : SMap α) (k : Nat) (x y : α) (h : x = d → y = d) :
    mset d (mset d m k x) k y = mset d m k y := by
  unfold mset
  by_cases hx : x = d
  · simp [hx, h hx, mdel_mdel]
  · by_cases hy : y = d
    · simp [hx, hy, mdel_mput]
    · simp [hx, hy, mput_mput]

/-! ## The canonical form -/

theorem mwfFrom_mono (d : α) (lo : Nat) (m : SMap α) (h : mwfFrom d (some lo) m = true) (l : Nat) (hl : l ≤ lo) :
    mwfFrom d (some l) m = true := by
  cases m with
  | nil => rfl
  | cons a m =>
    obtain ⟨k, v⟩ := a
    simp only [mwfFrom, Bool.and_eq_true, decide_eq_true_eq] at h ⊢
    exact ⟨⟨by omega, h.1.2⟩, h.2⟩

theorem mwfFrom_weak (d : α) (lo : Option Nat) (i : Nat) (m : SMap α) (hl : ∀ l, lo = some l → l ≤ i)
    (h : mwfFrom d (some i) m = true) : mwfFrom d lo m = true := by
  cases lo with
  | some l => exact mwfFrom_mono d i m h l (hl l rfl)
  | none =>
    cases m with
    | nil => rfl
    | cons b m =>
      obtain ⟨j, w⟩ := b
      simp only [mwfFrom, Bool.and_eq_true, decide_eq_true_eq] at h ⊢
      exact ⟨⟨trivial, h.1.2⟩, h.2⟩

theorem mwfFrom_mput (d : α) (lo : Option Nat) (m : SMap α) (k : Nat) (x : α) (hx : x ≠ d)
    (h : mwfFrom d lo m = true) (hk : ∀ l, lo = some l → l < k) : mwfFrom d lo (mput m k x) = true := by
  induction m generalizing lo with
  | nil =>
    cases lo with
    | none => simp [mput, mwfFrom, hx]
    | some l => simp [mput, mwfFrom, hx, hk l rfl]
  | cons a m ih =>
    obtain ⟨i, v⟩ := a
    simp only [mwfFrom, Bool.and_eq_true, decide_eq_true_eq] at h
    have hlo : mwfFrom d lo [(k, x)] = true := by
      cases lo with
      | none => simp [mwfFrom, hx]
      | some l => simp [mwfFrom, hx, hk l rfl]
    simp only [mwfFrom, Bool.and_eq_true, decide_eq_true_eq] at hlo
    simp only [mput]
    split
    · subst i
      simp only [mwfFrom, Bool.and_eq_true, decide_eq_true_eq]
      exact ⟨hlo.1, h.2⟩
    · split
      · simp only [mwfFrom, Bool.and_eq_true, decide_eq_true_eq]
        exact ⟨hlo.1, ⟨‹k < i›, h.1.2⟩, h.2⟩
      · next h1 h2 =>
        simp only [mwfFrom, Bool.and_eq_true, decide_eq_true_eq]
        refine ⟨h.1, ih (some i) h.2 ?_⟩
        intro l hl
        cases hl
        omega

theorem mwfFrom_mdel (d : α) (lo : Option Nat) (m : SMap α) (k : Nat) (h : mwfFrom d lo m = true) :
    mwfFrom d lo (mdel m k) = true := by
  induction m generalizing lo with
  | nil => exact h
  | cons a m ih =>
    obtain ⟨i, v⟩ := a
    simp only [mwfFrom, Bool.and_eq_true, decide_eq_true_eq] at h
    simp only [mdel]
    split
    · refine ih lo (mwfFrom_weak d lo i m ?_ h.2)
      intro l hl; subst hl
      have := h.1.1
      simp only [decide_eq_true_eq] at this
      omega
    · simp only [mwfFrom, Bool.and_eq_true, decide_eq_true_eq]
      exact ⟨h.1, ih (some i) h.2⟩

/-- A write keeps the canonical form. -/
theorem mwf_mset (d : α) (m : SMap α) (k : Nat) (x : α) (h : mwf d m = true) : mwf d (mset d m k x) = true := by
  unfold mset
  split
  · exact mwfFrom_mdel d none m k h
  · next hx => exact mwfFrom_mput d none m k x hx h (fun l hl => by cases hl)

theorem mwf_mmod (d : α) (m : SMap α) (k : Nat) (f : α → α) (h : mwf d m = true) : mwf d (mmod d m k f) = true :=
  mwf_mset d m k _ h

end Sys2Proof.Machine
end

