-- ==== Sys2Proof/Laws/Mem.lean ====
section
/-! SUPPORT. Memory: bytes after stores, the canonical form of memory, and what leaves the decode of addresses alone. -/
namespace Sys2Proof.Machine

/-! ## Bytes -/

theorem mget_putBytes (m : SMap Byte) (a : Nat) (bs : List Byte) (x : Nat) :
    mget 0 (putBytes m a bs) x = if a ≤ x ∧ x < a + bs.length then bs.getD (x - a) 0 else mget 0 m x := by
  induction bs generalizing m a with
  | nil =>
    have : ¬ (a ≤ x ∧ x < a + ([] : List Byte).length) := by rw [List.length_nil]; omega
    rw [if_neg this]; rfl
  | cons v bs ih =>
    rw [putBytes, ih, List.length_cons]
    by_cases h1 : a + 1 ≤ x ∧ x < a + 1 + bs.length
    · have h2 : a ≤ x ∧ x < a + (bs.length + 1) := by omega
      rw [if_pos h1, if_pos h2]
      obtain ⟨k, hk⟩ : ∃ k, x = a + (k + 1) := ⟨x - a - 1, by omega⟩
      have e1 : x - (a + 1) = k := by omega
      have e2 : x - a = k + 1 := by omega
      rw [e1, e2]; rfl
    · rw [if_neg h1, mget_mset]
      by_cases h3 : a = x
      · subst h3
        rw [if_pos rfl, if_pos (by omega), Nat.sub_self]; rfl
      · rw [if_neg h3, if_neg (by omega)]

/-- A store keeps the canonical form. -/
theorem mwf_putBytes (m : SMap Byte) (a : Nat) (bs : List Byte) (h : mwf 0 m = true) : mwf 0 (putBytes m a bs) = true := by
  induction bs generalizing m a with
  | nil => exact h
  | cons x bs ih => exact ih _ _ (mwf_mset _ _ _ _ h)

theorem length_memBytes (m : SMap Byte) (a n : Nat) : (memBytes m a n).length = n := by
  induction n generalizing a with
  | zero => rfl
  | succ n ih => simp [memBytes, ih]

theorem getD_memBytes (m : SMap Byte) (a n i : Nat) (h : i < n) : (memBytes m a n).getD i 0 = mget 0 m (a + i) := by
  induction n generalizing a i with
  | zero => omega
  | succ n ih =>
    cases i with
    | zero => rfl
    | succ i =>
      rw [memBytes, List.getD_cons_succ, ih _ _ (by omega)]
      congr 1; omega

/-- Reading back what was stored. -/
theorem memBytes_putBytes (m : SMap Byte) (a : Nat) (bs : List Byte) : memBytes (putBytes m a bs) a bs.length = bs := by
  apply List.ext_getElem?
  intro i
  by_cases h : i < bs.length
  · have h1 : (memBytes (putBytes m a bs) a bs.length).getD i 0 = bs.getD i 0 := by
      rw [getD_memBytes _ _ _ _ h, mget_putBytes, if_pos (by omega), Nat.add_sub_cancel_left]
    have h2 : i < (memBytes (putBytes m a bs) a bs.length).length := by rw [length_memBytes]; exact h
    rw [List.getElem?_eq_getElem h, List.getElem?_eq_getElem h2]
    simpa [List.getD_eq_getElem?_getD, List.getElem?_eq_getElem h, List.getElem?_eq_getElem h2] using h1
  · have h2 : (memBytes (putBytes m a bs) a bs.length).length ≤ i := by rw [length_memBytes]; omega
    rw [List.getElem?_eq_none (Nat.le_of_not_lt h), List.getElem?_eq_none h2]

/-! ## The decode of addresses -/

/-- From `b` to `c` nothing changed that decides where an access goes and whether it is let through. -/
def SameMap (b c : Block) : Prop :=
  c.fe.parts = b.fe.parts ∧ c.gens = b.gens ∧ c.syn = b.syn ∧ c.clk = b.clk ∧ c.mem.affine = b.mem.affine ∧
  c.mem.rsv = b.mem.rsv ∧ c.mem.key = b.mem.key ∧ c.mem.pranges = b.mem.pranges ∧
  (∀ s, (c.stack s).insvc = (b.stack s).insvc ∧ (c.stack s).fenced = (b.stack s).fenced) ∧
  (∀ n, (c.memChan n).tg = (b.memChan n).tg)

theorem SameMap.refl (b : Block) : SameMap b b := ⟨rfl, rfl, rfl, rfl, rfl, rfl, rfl, rfl, fun _ => ⟨rfl, rfl⟩, fun _ => rfl⟩

theorem SameMap.trans {a b c : Block} (h : SameMap a b) (k : SameMap b c) : SameMap a c := by
  obtain ⟨h1, h2, h3, h4, h5, h6, h7, h8, h9, h10⟩ := h
  obtain ⟨k1, k2, k3, k4, k5, k6, k7, k8, k9, k10⟩ := k
  exact ⟨k1.trans h1, k2.trans h2, k3.trans h3, k4.trans h4, k5.trans h5, k6.trans h6, k7.trans h7, k8.trans h8,
    fun s => ⟨(k9 s).1.trans (h9 s).1, (k9 s).2.trans (h9 s).2⟩, fun n => (k10 n).trans (h10 n)⟩

theorem Reports.sameMap {b c : Block} (h : Reports b c) : SameMap b c := by
  have h1 : c.fe.parts = b.fe.parts := by rw [h]
  have h2 : c.mem = b.mem := h.mem_eq
  refine ⟨h1, h.gens_eq, h.syn_eq, h.clk_eq, ?_, ?_, ?_, ?_, fun s => ⟨?_, ?_⟩, fun n => ?_⟩ <;>
    simp only [Block.stack, Block.memChan, h2]

theorem SameMap.slots {b c : Block} (h : SameMap b c) (l : List Nat) : c.slots l = b.slots l := by
  unfold Block.slots
  simp only [(h.2.2.2.2.2.2.2.2.1 _).1]

theorem SameMap.rangeOf {b c : Block} (h : SameMap b c) (a : Nat) : c.rangeOf a = b.rangeOf a := by
  have hs := h.slots
  obtain ⟨h1, h2, h3, h4, h5, h6, h7, h8, h9, h10⟩ := h
  have hu : c.usable = b.usable := by unfold Block.usable; rw [h6]
  have hf : c.slots = b.slots := funext hs
  have key : ∀ x : Block, x.rangeOf a = (fun (aff : Bool) (u : Nat) (sl : List Nat → List Nat) =>
      if windowBase ≤ a then
        let p := (a - windowBase) / 0x40000000
        let ss := sl (plateStacks p)
        if p < 8 && (a - windowBase) % 0x40000000 < 0x3E000000 && !ss.isEmpty then
          some (Range.mk (9 + p) (windowBase + p * 0x40000000) ss u 0x3E000000)
        else none
      else if aff then
        let p := a / 0x1800000000
        let ss := sl (plateStacks p)
        let len := ss.length * u * 2048
        if p < 8 && a % 0x1800000000 < len then some ⟨1 + p, p * 0x1800000000, ss, 0, len⟩ else none
      else
        let ss := sl allStacks
        let len := ss.length * u * 2048
        if a < len then some ⟨0, 0, ss, 0, len⟩ else none) x.mem.affine x.usable x.slots := fun _ => rfl
  rw [key, key, h5, hu, hf]

theorem SameMap.placeIn {b c : Block} (h : SameMap b c) (r : Range) (a : Nat) : c.placeIn r a = b.placeIn r a := by
  obtain ⟨h1, h2, h3, h4, h5, h6, h7, h8, h9, h10⟩ := h
  unfold Block.placeIn
  simp only [h7]

theorem SameMap.place {b c : Block} (h : SameMap b c) (a : Nat) : c.place a = b.place a := by
  unfold Block.place
  rw [h.rangeOf]
  have hp : (fun r => c.placeIn r a) = fun r => b.placeIn r a := funext (fun r => h.placeIn r a)
  rw [hp]

theorem SameMap.inPart {b c : Block} (h : SameMap b c) (p a : Nat) : c.inPart p a = b.inPart p a := by
  have hr := h.rangeOf
  obtain ⟨h1, h2, h3, h4, h5, h6, h7, h8, h9, h10⟩ := h
  unfold Block.inPart Block.holdsPlate
  simp only [hr, h1, h5, h8]

theorem SameMap.accessFault {b c : Block} (h : SameMap b c) (q : Req) (w : Bool) (a : Nat) :
    c.accessFault q w a = b.accessFault q w a := by
  have hr := h.rangeOf
  have hp := h.inPart
  have hq := h.placeIn
  obtain ⟨h1, h2, h3, h4, h5, h6, h7, h8, h9, h10⟩ := h
  have h10' : ∀ n, (mget ({} : MemChannel) c.mem.chans n).tg = (mget ({} : MemChannel) b.mem.chans n).tg := h10
  unfold Block.accessFault
  rw [hr]
  cases b.rangeOf a with
  | none => rfl
  | some r => simp only [hp, hq, (h9 _).2, h10']

theorem SameMap.deadSlice {b c : Block} (h : SameMap b c) (a : Nat) : c.deadSlice a = b.deadSlice a := by
  unfold Block.deadSlice
  rw [h.place]
  obtain ⟨h1, h2, h3, h4, h5, h6, h7, h8, h9, h10⟩ := h
  simp only [h4]

theorem SameMap.genFind {b c : Block} (h : SameMap b c) (a : Nat) : c.genFind a = b.genFind a := by
  unfold Block.genFind Block.gen
  rw [h.2.1]

theorem SameMap.redirect {b c : Block} (h : SameMap b c) (e : Env) (q : Req) (w : Bool) (a : Nat) :
    c.redirect e q w a = b.redirect e q w a := by
  unfold Block.redirect
  rw [h.genFind]
  unfold Block.gen
  rw [h.2.1]

theorem SameMap.guardOf {b c : Block} (h : SameMap b c) (a : Nat) : c.guardOf a = b.guardOf a := by
  unfold Block.guardOf
  rw [h.2.2.1]

theorem SameMap.guardHolder {b c : Block} (h : SameMap b c) (k : Nat) (q : Req) : c.guardHolder k q = b.guardHolder k q := by
  unfold Block.guardHolder
  rw [h.2.2.1]

/-! ## What keeps it, and memory's bytes, poison and side states -/

/-- From `b` to `c` the contents of memory are as before, and so is the decode of addresses. -/
def SameMemory (b c : Block) : Prop :=
  SameMap b c ∧ c.mem.bytes = b.mem.bytes ∧ c.mem.poison = b.mem.poison ∧ c.mem.ewa = b.mem.ewa ∧ c.shc.adds = b.shc.adds ∧
  c.shc.exact = b.shc.exact

theorem SameMemory.refl (b : Block) : SameMemory b b := ⟨.refl b, rfl, rfl, rfl, rfl, rfl⟩

theorem SameMemory.trans {a b c : Block} (h : SameMemory a b) (k : SameMemory b c) : SameMemory a c :=
  ⟨h.1.trans k.1, k.2.1.trans h.2.1, k.2.2.1.trans h.2.2.1, k.2.2.2.1.trans h.2.2.2.1, k.2.2.2.2.1.trans h.2.2.2.2.1,
    k.2.2.2.2.2.trans h.2.2.2.2.2⟩

theorem Reports.sameMemory {b c : Block} (h : Reports b c) : SameMemory b c :=
  ⟨h.sameMap, by rw [h.mem_eq], by rw [h.mem_eq], by rw [h.mem_eq], by rw [h.shc_eq], by rw [h.shc_eq]⟩

theorem stack_setStack (b : Block) (s : Nat) (x : Stack) (k : Nat) : (b.setStack s x).stack k = if s = k then x else b.stack k :=
  mget_mset _ _ _ _ _

theorem bumpStack_sameMemory (b : Block) (s off n : Nat) : SameMemory b (b.bumpStack s off n) := by
  refine ⟨⟨rfl, rfl, rfl, rfl, rfl, rfl, rfl, rfl, fun k => ?_, fun _ => rfl⟩, rfl, rfl, rfl, rfl, rfl⟩
  unfold Block.bumpStack
  rw [stack_setStack]
  split
  · rename_i h; subst h; exact ⟨rfl, rfl⟩
  · exact ⟨rfl, rfl⟩

theorem setChan_sameMemory (b : Block) (n : Nat) (x : MemChannel) (h : x.tg = (b.memChan n).tg) : SameMemory b (b.setChan n x) := by
  refine ⟨⟨rfl, rfl, rfl, rfl, rfl, rfl, rfl, rfl, fun _ => ⟨rfl, rfl⟩, fun k => ?_⟩, rfl, rfl, rfl, rfl, rfl⟩
  show (mget ({} : MemChannel) (mset {} b.mem.chans n x) k).tg = _
  rw [mget_mset]
  split
  · rename_i hk; subst hk; exact h
  · rfl

theorem memEvent_sameMemory (b : Block) (e : Env) (c v p s ch pc bank a : Nat) (m : List (Nat × Nat × Nat)) :
    SameMemory b (b.memEvent e c v p s ch pc bank a m) := (post_reports _ _ _).sameMemory

theorem activate_sameMemory (b : Block) (e : Env) (part : Nat) (p : Place) : SameMemory b (b.activate e part p) := by
  have hm : ∀ (c : Block) (m : Memory), m = { c.mem with
      acts := m.acts, actWindow := m.actWindow, held := m.held, lastEvt := m.lastEvt } → SameMemory c (c.setMem m) := by
    intro c m h
    rw [h]
    exact ⟨⟨rfl, rfl, rfl, rfl, rfl, rfl, rfl, rfl, fun _ => ⟨rfl, rfl⟩, fun _ => rfl⟩, rfl, rfl, rfl, rfl, rfl⟩
  have ht : ∀ c : Block, SameMemory c (c.throttleEvent e part p) := by
    intro c
    unfold Block.throttleEvent
    dsimp only
    split
    · exact hm _ _ rfl
    · exact (hm _ _ rfl).trans (memEvent_sameMemory _ _ _ _ _ _ _ _ _ _ _)
  unfold Block.activate
  dsimp only
  generalize hb : (ite (b.mem.raaimt ≤ _) _ _ : Block) = b1
  have h1 : SameMemory b b1 := by
    rw [← hb]
    split
    · exact (hm _ _ rfl).trans (bumpStack_sameMemory _ _ _ _)
    · exact hm _ _ rfl
  repeat' split
  all_goals first
    | exact ((h1.trans (hm _ _ rfl)).trans (bumpStack_sameMemory _ _ _ _)).trans (ht _)
    | exact h1.trans (hm _ _ rfl)

/-- Serving a granule counts it, and leaves what memory holds alone. -/
theorem served_sameMemory (b : Block) (e : Env) (part : Nat) (p : Place) (act : Bool) : SameMemory b (b.served e part p act) := by
  unfold Block.served
  extract_lets c b1
  have h : SameMemory b b1 := setChan_sameMemory _ _ _ rfl
  split
  · exact h.trans (activate_sameMemory _ _ _ _)
  · exact h

theorem touch_sameMemory (b : Block) (a : Nat) (w h c : Bool) : SameMemory b (b.touch a w h c) :=
  ⟨⟨rfl, rfl, rfl, rfl, rfl, rfl, rfl, rfl, fun _ => ⟨rfl, rfl⟩, fun _ => rfl⟩, rfl, rfl, rfl, rfl, rfl⟩

/-! ## Stores -/

/-- What a write inside one granule leaves in memory (R215): a poisoned one zeros and the mark; bytes go into a granule that
is not poisoned, and a whole one clears the mark; part of a poisoned granule changes nothing. -/
theorem writeGranule_mem (b : Block) (e : Env) (a : Nat) (bs : List Byte) (poison cmpr : Bool) :
    (b.writeGranule e a bs poison cmpr).mem.bytes =
      (if poison then putBytes b.mem.bytes (a / 64 * 64) (zeros 64)
        else if mget false b.mem.poison (a / 64) = true ∧ bs.length ≠ 64 then b.mem.bytes else putBytes b.mem.bytes a bs) ∧
    (b.writeGranule e a bs poison cmpr).mem.poison =
      (if poison then mset false b.mem.poison (a / 64) true
        else if mget false b.mem.poison (a / 64) = true ∧ bs.length ≠ 64 then b.mem.poison
        else mset false b.mem.poison (a / 64) false) := by
  have hr : ∀ c : Block, (c.reportPoison e (a / 64 * 64)).mem = c.mem := by
    intro c
    unfold Block.reportPoison
    split
    · rfl
    · dsimp only
      split
      · exact (post_reports _ _ _).mem_eq
      · split <;> exact (post_reports _ _ _).mem_eq
  have hg : a / 64 * 64 / 64 = a / 64 := by omega
  unfold Block.writeGranule
  dsimp only
  cases poison with
  | true =>
    simp only [if_true, Block.poisonGranule, hr, hg]
    exact ⟨rfl, rfl⟩
  | false =>
    simp only [Bool.false_eq_true, if_false]
    have ht : (b.touch a true (decide (bs.length = 64)) cmpr).mem = b.mem := rfl
    by_cases h : mget false b.mem.poison (a / 64) = true ∧ bs.length ≠ 64
    · have : (mget false b.mem.poison (a / 64) && !decide (bs.length = 64)) = true := by simp [h.1, h.2]
      rw [ht, if_pos this, if_pos h, if_pos h]
      exact ⟨rfl, rfl⟩
    · have : (mget false b.mem.poison (a / 64) && !decide (bs.length = 64)) = false := by
        cases h1 : mget false b.mem.poison (a / 64)
        · rfl
        · by_cases h2 : bs.length = 64
          · simp [h2]
          · exact absurd ⟨h1, h2⟩ h
      rw [ht, this, if_neg Bool.false_ne_true, if_neg h, if_neg h]
      exact ⟨rfl, rfl⟩

/-- A write inside one granule keeps memory's canonical form. -/
theorem writeGranule_wf (b : Block) (e : Env) (a : Nat) (bs : List Byte) (poison cmpr : Bool) (h : b.mem.wf = true) :
    (b.writeGranule e a bs poison cmpr).mem.wf = true := by
  unfold Memory.wf at *
  rw [(writeGranule_mem b e a bs poison cmpr).1]
  split
  · exact mwf_putBytes _ _ _ h
  · split
    · exact h
    · exact mwf_putBytes _ _ _ h

end Sys2Proof.Machine
end

