-- ==== Sys2Proof/Laws/Canonical.lean ====
section
/-! SUPPORT. Every operation that changes the bytes of device or host memory keeps their canonical form. -/
namespace Sys2Proof.Machine

/-! ## Restricting a map -/

theorem mwfFrom_filter {α : Type} [DecidableEq α] (d : α) (p : Nat × α → Bool) (lo : Option Nat) (m : SMap α)
    (h : mwfFrom d lo m = true) : mwfFrom d lo (m.filter p) = true := by
  induction m generalizing lo with
  | nil => exact h
  | cons a m ih =>
    obtain ⟨i, v⟩ := a
    simp only [mwfFrom, Bool.and_eq_true, decide_eq_true_eq] at h
    by_cases hp : p (i, v) = true
    · rw [List.filter_cons_of_pos hp]
      simp only [mwfFrom, Bool.and_eq_true, decide_eq_true_eq]
      exact ⟨h.1, ih (some i) h.2⟩
    · rw [List.filter_cons_of_neg hp]
      refine mwfFrom_weak d lo i _ ?_ (ih (some i) h.2)
      intro l hl; subst hl
      have := h.1.1
      simp only [decide_eq_true_eq] at this
      omega

/-- Dropping entries keeps the canonical form. -/
theorem mwf_filter {α : Type} [DecidableEq α] (d : α) (p : Nat × α → Bool) (m : SMap α) (h : mwf d m = true) :
    mwf d (m.filter p) = true := mwfFrom_filter d p none m h

/-! ## Device memory -/

theorem poisonGranule_wf (b : Block) (e : Env) (a : Nat) (h : b.mem.wf = true) : (b.poisonGranule e a).mem.wf = true := by
  have hr : ∀ c : Block, (c.reportPoison e (a / 64 * 64)).mem = c.mem := by
    intro c
    unfold Block.reportPoison
    split
    · rfl
    · dsimp only
      split
      · exact (post_reports _ _ _).mem_eq
      · split <;> exact (post_reports _ _ _).mem_eq
  unfold Block.poisonGranule
  dsimp only
  rw [hr]
  unfold Memory.wf at *
  dsimp only
  exact mwf_putBytes _ _ _ h

theorem zeroDone_wf (b : Block) (f : Nat) (h : b.mem.wf = true) : (b.zeroDone f).mem.wf = true := by
  unfold Block.zeroDone
  split
  · exact h
  · exact mwf_filter _ _ _ h

theorem zeroFrames_wf (b : Block) (h : b.mem.wf = true) : b.zeroFrames.mem.wf = true := mwf_filter _ _ _ h

theorem writeSheet_wf (b : Block) (e : Env) (r : SheetReq) (slot : Nat) (h : b.mem.wf = true) :
    (b.writeSheet e r slot).mem.wf = true := by
  have key : ∀ (l : List Nat) (m : SMap Byte), mwf 0 m = true →
      mwf 0 (l.foldl (fun m off => mset 0 m (sheetAddr slot + off) (b.sheetByte e r off)) m) = true := by
    intro l
    induction l with
    | nil => exact fun _ hm => hm
    | cons x l ih => exact fun m hm => ih _ (mwf_mset _ _ _ _ hm)
  unfold Block.writeSheet Memory.wf
  dsimp only
  exact key _ _ (mwf_filter _ _ _ h)

theorem addDone_wf (b : Block) (e : Env) (x : PendingAdd) (h : b.mem.wf = true) : (b.addDone e x).mem.wf = true := by
  unfold Block.addDone
  extract_lets rest b1 b2 b3 sum m
  have h3 : b3.mem = b.mem := by
    show Block.mem (ite (_ = true) _ _) = _
    split <;> rfl
  clear_value b3
  split
  · exact poisonGranule_wf _ _ _ (by rw [h3]; exact h)
  · split
    · rw [h3]; exact h
    · show mwf 0 (putBytes b3.mem.bytes _ _) = true
      rw [h3]; exact mwf_putBytes _ _ _ h

/-! ## Host memory -/

theorem mwf_hostWrite (m : SMap Byte) (a : Nat) (bs : List Byte) (h : mwf 0 m = true) : mwf 0 (hostWrite m a bs) = true := by
  induction bs generalizing m a with
  | nil => exact h
  | cons x bs ih => exact ih _ _ (mwf_mset _ _ _ _ h)

theorem writeHost_wf (b : Block) (a : Nat) (bs : List Byte) (h : b.hostWf = true) : (b.writeHost a bs).hostWf = true :=
  mwf_hostWrite _ _ _ h

end Sys2Proof.Machine
end

