-- ==== Sys2Proof/Laws/Region.lean ====
section
/-! SUPPORT. Regions: reading what was written, and what watching an instruction may change. -/
namespace Sys2Proof.Machine

/-! ## Reading what was written -/

theorem image_setImage (b : Block) (p q : Nat) (i : Image) : (b.setImage p i).image q = if p = q then i else b.image q :=
  mget_mset _ _ _ _ _

theorem cell_setCell (b : Block) (x y i j : Nat) (c : Cell) (hx : x < 640) (hi : i < 640) :
    (b.setCell x y c).cell i j = if x = i ∧ y = j then c else b.cell i j := by
  refine (mget_mset _ _ _ _ _).trans ?_
  have : cellKey x y = cellKey i j ↔ x = i ∧ y = j := by unfold cellKey; omega
  simp only [this]; rfl

theorem cluster_setCluster (b : Block) (x y i j : Nat) (c : Cluster) (hx : x < 80) (hi : i < 80) :
    (b.setCluster x y c).cluster i j = if x = i ∧ y = j then c else b.cluster i j := by
  refine (mget_mset _ _ _ _ _).trans ?_
  have : clusterKey x y = clusterKey i j ↔ x = i ∧ y = j := by unfold clusterKey; omega
  simp only [this]; rfl

/-- A region that is written is read back; every other region is as before. -/
theorem region_setRegion (b : Block) (r q : RegionId) (x : Region) :
    (b.setRegion r x).region q = if r = q then x else b.region q := by
  have hrq : r = q ↔ (r.part : Nat) = q.part ∧ r.idx = q.idx := by
    cases r; cases q; simp [Fin.ext_iff]
  simp only [Block.region, Block.setRegion, image_setImage]
  by_cases hp : (r.part : Nat) = q.part
  · simp only [hp, if_true, mget_mset, hrq, true_and]
  · simp only [hp, if_false, hrq, false_and]

theorem setImage_setImage (b : Block) (p : Nat) (i j : Image) (h : i = {} → j = {}) :
    (b.setImage p i).setImage p j = b.setImage p j := by
  simp only [Block.setImage, mset_mset _ _ _ _ _ h]

theorem setRegion_setRegion (b : Block) (r : RegionId) (x y : Region) (hx : x ≠ {}) :
    (b.setRegion r x).setRegion r y = b.setRegion r y := by
  show (b.setRegion r x).setImage r.part { (b.setRegion r x).image r.part with
    regions := mset {} ((b.setRegion r x).image r.part).regions r.idx y } = _
  have himg : (b.setRegion r x).image r.part = { b.image r.part with regions := mset {} (b.image r.part).regions r.idx x } := by
    have := image_setImage b r.part r.part { b.image r.part with regions := mset {} (b.image r.part).regions r.idx x }
    rw [if_pos rfl] at this
    exact this
  rw [himg]
  dsimp only
  rw [mset_mset _ _ _ _ _ (fun h => absurd h hx)]
  refine setImage_setImage b r.part _ _ (fun hh => ?_)
  have := congrArg Image.regions hh
  simp [mset, hx, mput_ne_nil] at this

@[simp] theorem setRegion_cluster (b : Block) (r : RegionId) (x : Region) (i j : Nat) :
    (b.setRegion r x).cluster i j = b.cluster i j := rfl

@[simp] theorem setRegion_cell (b : Block) (r : RegionId) (x : Region) (i j : Nat) : (b.setRegion r x).cell i j = b.cell i j := rfl

/-! ## Watching -/

theorem Watched.refl (b : Block) : Watched b b := ⟨rfl, fun _ => rfl⟩

theorem Watched.trans {a b c : Block} (h : Watched a b) (k : Watched b c) : Watched a c := by
  refine ⟨?_, fun q => ?_⟩
  · have h1 := h.1; have k1 := k.1
    rw [k1, h1]
  · rw [k.2 q, h.2 q]

theorem Reports.watched {b c : Block} (h : Reports b c) : Watched b c := by
  refine ⟨?_, fun q => ?_⟩
  · unfold Reports at h; rw [h]
  · rw [h.region]

theorem Watched.foldl {α : Type} {f : Block → α → Block} (h : ∀ b x, Watched b (f b x)) (l : List α) (b : Block) :
    Watched b (l.foldl f b) := by
  induction l generalizing b with
  | nil => exact .refl b
  | cons x l ih => exact (h b x).trans (ih (f b x))

theorem setBp_watched (b : Block) (k : Nat) (u : BpUnit) : Watched b (b.setBp k u) := ⟨rfl, fun _ => rfl⟩
theorem bumpObs_watched (b : Block) (k n : Nat) : Watched b (b.bumpObs k n) := ⟨rfl, fun _ => rfl⟩

theorem requestDrain_watched (b : Block) (r : RegionId) : Watched b (b.requestDrain r) := by
  unfold Block.requestDrain
  dsimp only
  split
  · next h =>
    refine ⟨rfl, fun q => ?_⟩
    rw [region_setRegion b r q _]
    split
    · next hq => subst hq; rfl
    · rfl
  · exact .refl b

theorem requestDrainAll_watched (b : Block) (p : Fin 8) : Watched b (b.requestDrainAll p) :=
  .foldl (fun _ _ => requestDrain_watched _ _) _ _

theorem breakHits_watched (b : Block) (r : RegionId) (pc : Nat) : Watched b (b.breakHits r pc) := by
  refine .foldl (fun b k => ?_) _ _
  dsimp only
  split
  · split
    · split
      · exact ((bumpObs_watched b 0x420 1).trans (setBp_watched _ k _)).trans (requestDrainAll_watched _ _)
      · exact ((bumpObs_watched b 0x420 1).trans (setBp_watched _ k _)).trans (requestDrain_watched _ _)
    · exact (bumpObs_watched b 0x420 1).trans (setBp_watched _ k _)
  · exact .refl b

theorem breakMissed_watched (b : Block) (e : Env) (r : RegionId) : Watched b (b.breakMissed e r) := by
  refine .foldl (fun b k => ?_) _ _
  dsimp only
  split
  · exact (setBp_watched b k _).trans (obsEvent_reports _ _ _ _ _ _ _).watched
  · exact .refl b

/-- Watching an instruction changes breakpoint units, the trace, reports and drain requests alone. -/
theorem seqWatch_watched (b : Block) (e : Env) (r : RegionId) (x : Region) : Watched b (b.seqWatch e r x) := by
  unfold Block.seqWatch
  extract_lets y moved b1 b2
  have h1 : Watched b b1 := by
    show Watched b (if _ then _ else _)
    split
    · exact breakHits_watched _ _ _
    · exact .refl b
  have h2 : Watched b b2 := by
    refine h1.trans ?_
    show Watched b1 (if _ then _ else _)
    split
    · exact (traceBranch_reports _ _ _ _ _).watched
    · exact .refl b1
  split
  · exact h2.trans (breakMissed_watched _ _ _)
  · exact h2

/-- The one signal of a region whose earlier writes are visible is applied at once (R112). -/
theorem settle_one (b : Block) (e : Env) (r : RegionId) (y : Region) (o : Nat) (hy : ∀ l, ({ y with signals := l } : Region) ≠ {})
    (h0 : y.signals = []) (hc : y.clusters = (b.region r).clusters) (hv : b.writesVisible r = true) :
    (b.setRegion r { y with signals := [o] }).settleSignals e r =
      if (b.setRegion r y).syncUsable r.part o
        then (b.setRegion r y).syncAdd e (clusterIndex y.lead.1 y.lead.2) r.part o 1
        else (b.setRegion r y).syncModeError e r o := by
  have hr := region_setRegion b r r { y with signals := [o] }
  rw [if_pos rfl] at hr
  have hv' : (b.setRegion r { y with signals := [o] }).writesVisible r = true := by
    simp only [Block.writesVisible, hr, setRegion_cluster] at hv ⊢
    rw [← hc] at hv
    exact hv
  unfold Block.settleSignals
  simp only [hr, hv', List.isEmpty_cons, Bool.not_true, Bool.or_self, Bool.false_eq_true, if_false, List.foldl_cons, List.foldl_nil]
  rw [setRegion_setRegion b r _ _ (hy _)]
  have : ({ y with signals := [] } : Region) = y := by rw [← h0]
  simp only [this]
  rfl

/-- A region that is not at an instruction executes none. -/
theorem seqStep_stays (b : Block) (e : Env) (r : RegionId) (f : Region → Block)
    (h : (b.region r).state ≠ .running ∨ (b.region r).waitLeft ≠ 0 ∨ (b.region r).walk.phase ≠ .none) :
    b.seqStep e r f = b := by
  unfold Block.seqStep
  rcases h with h | h | h <;> simp [h]

/-- A region that fetches executes the instruction, watched. -/
theorem seqStep_fetches (b : Block) (e : Env) (r : RegionId) (f : Region → Block) (h : b.Fetches r) :
    b.seqStep e r f = (f (b.region r)).seqWatch e r (b.region r) := by
  obtain ⟨h1, h2, h3, h4⟩ := h
  unfold Block.seqStep
  simp [h1, h2, h3, Nat.not_le.mpr h4]

/-! ## Stops -/

theorem Watched.region {b c : Block} (h : Watched b c) (q : RegionId) :
    ∃ d, c.region q = { b.region q with drain := d } := ⟨_, h.2 q⟩

theorem modClusters_images (b : Block) (r : RegionId) (f : Cluster → Cluster) :
    (b.modClusters r f).plates.images = b.plates.images := by
  unfold Block.modClusters
  generalize (b.region r).clusters = l
  induction l generalizing b with
  | nil => rfl
  | cons p l ih => rw [List.foldl_cons, ih]; rfl

/-- Counting stalls changes no region. -/
theorem countStall_region (b : Block) (rs : List RegionId) (k n : Nat) (q : RegionId) :
    (b.countStall rs k n).region q = b.region q := by
  have : (b.countStall rs k n).plates.images = b.plates.images := by
    unfold Block.countStall
    induction rs generalizing b with
    | nil => rfl
    | cons r rs ih => rw [List.foldl_cons, ih, modClusters_images]
  simp only [Block.region, Block.image, this]

theorem modRegion_region (b : Block) (r q : RegionId) (f : Region → Region) :
    (b.modRegion r f).region q = if r = q then f (b.region r) else b.region q := region_setRegion _ _ _ _

/-- Stopping a region: its state is stopped, or breakpoint; of no region anything changes but its drain request. -/
theorem stopRegion_region (b : Block) (e : Env) (r q : RegionId) :
    ∃ v d, (v = .stopped ∨ v = .breakpoint) ∧ (b.stopRegion e r).region q =
      { (if r = q then { b.region r with state := v } else b.region q) with drain := d } := by
  unfold Block.stopRegion
  extract_lets mine b1 byScope ob b2
  have hv : ∃ v, (v = SeqState.stopped ∨ v = SeqState.breakpoint) ∧
      b1 = b.modRegion r (fun x => { x with state := v, drain := false }) := by
    refine ⟨if mine.isEmpty then .stopped else .breakpoint, ?_, rfl⟩
    split
    · exact .inl rfl
    · exact .inr rfl
  obtain ⟨v, h1, h2⟩ := hv
  have hw : Watched b1 (mine.foldl (fun b k =>
      let u := b.bp k
      (b.setBp k { u with state := 3 }).obsEvent e 0x103 0 r.part k
        [(26, 2, clusterIndex u.at.1 u.at.2), (28, 2, u.pc)]) b2) := by
    have hb : Watched b1 b2 := by
      show Watched b1 (if _ then _ else _)
      split
      · exact ⟨rfl, fun _ => rfl⟩
      · exact .refl b1
    exact hb.trans (.foldl (fun b k => (setBp_watched b k _).trans (obsEvent_reports _ _ _ _ _ _ _).watched) _ _)
  obtain ⟨d, hd⟩ := hw.region q
  refine ⟨v, d, h1, ?_⟩
  rw [hd, h2, modRegion_region]
  split <;> rfl

end Sys2Proof.Machine
end

