-- ==== Sys2Proof/Laws/Cell.lean ====
section
/-! SUPPORT. Cells: the lanes of the vector registers and the accumulator entries under each update. -/
namespace Sys2Proof.Machine

theorem lane_setLane (c : Cell) (r l v : Nat) (p : Bool) (q j : Nat) (hl : l < 16) (hj : j < 16) :
    (c.setLane r l v p).lane q j = if r % 16 = q % 16 ∧ l = j then v else c.lane q j := by
  refine (mget_mset _ _ _ _ _).trans ?_
  have : 16 * (r % 16) + l = 16 * (q % 16) + j ↔ r % 16 = q % 16 ∧ l = j := by omega
  simp only [this]; rfl

/-- Writing the lanes below `n` of one register, in order. -/
def setLanes (c : Cell) (vd : Nat) (f : Nat → Nat) (p : Nat → Bool) (n : Nat) : Cell :=
  (List.range n).foldl (fun c l => c.setLane vd l (f l) (p l)) c

theorem setLanes_succ (c : Cell) (vd : Nat) (f : Nat → Nat) (p : Nat → Bool) (n : Nat) :
    setLanes c vd f p (n + 1) = (setLanes c vd f p n).setLane vd n (f n) (p n) := by
  simp [setLanes, List.range_succ]

theorem lane_setLanes (c : Cell) (vd : Nat) (f : Nat → Nat) (p : Nat → Bool) (n q j : Nat) (hn : n ≤ 16) (hj : j < 16) :
    (setLanes c vd f p n).lane q j = if vd % 16 = q % 16 ∧ j < n then f j else c.lane q j := by
  induction n with
  | zero => simp [setLanes]
  | succ n ih =>
    rw [setLanes_succ, lane_setLane _ _ _ _ _ _ _ (by omega) hj, ih (by omega)]
    by_cases h1 : vd % 16 = q % 16
    · by_cases h2 : n = j
      · subst h2; simp [h1]
      · have : j < n ↔ j < n + 1 := by omega
        simp [h1, h2, this]
    · simp [h1]

theorem setLanes_rest (c : Cell) (vd : Nat) (f : Nat → Nat) (p : Nat → Bool) (n : Nat) :
    setLanes c vd f p n = { c with vreg := (setLanes c vd f p n).vreg, vPoison := (setLanes c vd f p n).vPoison } := by
  induction n with
  | zero => rfl
  | succ n ih =>
    rw [setLanes_succ]
    conv => lhs; rw [ih]
    rfl

theorem zip_map_self {α : Type} (l : List Nat) (g : Nat → α) : (l.map g).zip l = l.map (fun x => (g x, x)) := by
  induction l with
  | nil => rfl
  | cons x l ih => simp [ih]

/-- The lanewise operation as one register's lanes. -/
theorem lanewise_cell (c : Cell) (o : OpEntry) (srcs : List Nat) (f : List Nat → Nat) :
    (c.lanewise o srcs f).cell = setLanes c o.vd (fun l => f (srcs.map (fun r => c.lane r l)))
      (fun l => srcs.any (fun r => c.lanePoison r l)) 16 := by
  simp only [Cell.lanewise, lanes, zip_map_self, List.foldl_map]
  rfl

theorem lanewise_poisoned (c : Cell) (o : OpEntry) (srcs : List Nat) (f : List Nat → Nat) :
    (c.lanewise o srcs f).poisoned = lanes.any (fun l => srcs.any (fun r => c.lanePoison r l)) := by
  simp [Cell.lanewise, List.any_map, Function.comp_def]

/-- Each lane of the destination takes the function of that lane of the sources; nothing else of the cell changes. -/
theorem lanewise_sets (c : Cell) (o : OpEntry) (srcs : List Nat) (f : List Nat → Nat) :
    LanesSet c { (c.lanewise o srcs f).cell with issue := none } o.vd (fun l => f (srcs.map (fun r => c.lane r l))) := by
  rw [lanewise_cell]
  have h := fun q j hj => lane_setLanes c o.vd (fun l => f (srcs.map (fun r => c.lane r l)))
    (fun l => srcs.any (fun r => c.lanePoison r l)) 16 q j (Nat.le_refl _) hj
  have hr := setLanes_rest c o.vd (fun l => f (srcs.map (fun r => c.lane r l))) (fun l => srcs.any (fun r => c.lanePoison r l)) 16
  generalize setLanes c o.vd (fun l => f (srcs.map (fun r => c.lane r l))) (fun l => srcs.any (fun r => c.lanePoison r l)) 16 = k at h hr
  refine ⟨fun l hl => ?_, fun r l hl hn => ?_, ?_⟩
  · have := h o.vd l hl
    rw [if_pos ⟨rfl, hl⟩] at this
    exact this
  · have := h r l hl
    rw [if_neg (fun e => hn e.1.symm)] at this
    exact this
  · rw [hr]

theorem accAt_setAcc (c : Cell) (i j : Nat) (a : Acc) : (c.setAcc i a).accAt j = if i = j then a else c.accAt j :=
  mget_mset _ _ _ _ _

/-- One add: the entry takes the sum modulo 2^64 and the merged side state; every other entry's value is as before. -/
theorem add_val (r : CellRun) (g : Group) (e : Int) (i : Nat) (v : Int) (d : Side) (p : Bool) (j : Nat) :
    ((r.add g e i v d p).cell.accAt j).val =
      if i = j then sext 64 (twos 64 ((r.cell.accAt i).val + v)) else (r.cell.accAt j).val := by
  have ovfl : ∀ (q : CellRun) (w : Int), ((q.overflow g e i w).cell.accAt j).val = (q.cell.accAt j).val := by
    intro q w
    unfold CellRun.overflow
    split
    · rfl
    · dsimp only
      split
      · rfl
      · show ((q.cell.setAcc i _).accAt j).val = _
        rw [accAt_setAcc]
        split
        · next h => subst h; rfl
        · rfl
  unfold CellRun.add
  dsimp only
  split
  · rw [ovfl]
    show ((r.cell.setAcc i _).accAt j).val = _
    rw [accAt_setAcc]; split <;> rfl
  · show ((r.cell.setAcc i _).accAt j).val = _
    rw [accAt_setAcc]; split <;> rfl

/-- Adds to entries that are all different: each takes its own sum, every other entry's value is as before. -/
theorem add_foldl_val {α : Type} (g : Group) (e : Int) (ix : α → Nat) (v : α → Int) (d : α → Side) (p : α → Bool)
    (l : List α) (hl : (l.map ix).Nodup) (r : CellRun) (j : Nat) :
    (∀ a ∈ l, ix a = j → ((l.foldl (fun r a => r.add g e (ix a) (v a) (d a) (p a)) r).cell.accAt j).val
      = sext 64 (twos 64 ((r.cell.accAt j).val + v a))) ∧
    ((∀ a ∈ l, ix a ≠ j) → ((l.foldl (fun r a => r.add g e (ix a) (v a) (d a) (p a)) r).cell.accAt j).val = (r.cell.accAt j).val) := by
  induction l generalizing r with
  | nil => simp
  | cons b l ih =>
    simp only [List.map_cons, List.nodup_cons] at hl
    obtain ⟨hb, hl⟩ := hl
    have h := ih hl (r.add g e (ix b) (v b) (d b) (p b))
    simp only [List.foldl_cons]
    refine ⟨fun a ha hj => ?_, fun hn => ?_⟩
    · rcases List.mem_cons.mp ha with rfl | ha
      · have : ∀ c ∈ l, ix c ≠ j := fun c hc hcj => hb (by rw [hj, ← hcj]; exact List.mem_map_of_mem hc)
        rw [h.2 this, add_val, if_pos hj, hj]
      · rw [h.1 a ha hj, add_val]
        have : ix b ≠ j := fun hbj => hb (by rw [hbj, ← hj]; exact List.mem_map_of_mem ha)
        rw [if_neg this]
    · rw [h.2 (fun a ha => hn a (List.mem_cons_of_mem _ ha)), add_val, if_neg (hn b List.mem_cons_self)]

end Sys2Proof.Machine
end

