-- ==== Sys2Proof/Laws/State.lean ====
section
/-! SUPPORT. The fields of the state under each update, so that no later proof unfolds a record update. -/
namespace Sys2Proof.Machine

variable (s : State) (f : Env → Block → Block) (g : Block → Block)

@[simp] theorem State.always_time : (s.always g).time = s.time := rfl
@[simp] theorem State.always_cur : (s.always g).cur = s.cur := rfl
@[simp] theorem State.always_pending : (s.always g).pending = s.pending := rfl
@[simp] theorem State.always_blk : (s.always g).blk = g s.blk := rfl

@[simp] theorem State.onBlock_time : (s.onBlock f).time = s.time := by unfold onBlock; split <;> rfl
@[simp] theorem State.onBlock_cur : (s.onBlock f).cur = s.cur := by unfold onBlock; split <;> rfl
@[simp] theorem State.onBlock_pending : (s.onBlock f).pending = s.pending := by unfold onBlock; split <;> rfl
theorem State.onBlock_up (h : s.blk.module.up = true) : s.onBlock f = { s with blk := f s.env s.blk } := by simp [onBlock, h]
theorem State.onBlock_down (h : s.blk.module.up = false) : s.onBlock f = s := by simp [onBlock, h]

@[simp] theorem State.onHost_time : (s.onHost f).time = s.time := State.onBlock_time s _
@[simp] theorem State.onHost_cur : (s.onHost f).cur = s.cur := State.onBlock_cur s _
@[simp] theorem State.onHost_pending : (s.onHost f).pending = s.pending := State.onBlock_pending s _
theorem State.onHost_up (h : s.blk.module.up = true) (hb : s.blk.barUp = true) :
    s.onHost f = { s with blk := f s.env s.blk } := by simp [onHost, onBlock, h, hb]

@[simp] theorem State.onObs_time : (s.onObs f).time = s.time := State.onBlock_time s _
@[simp] theorem State.onObs_cur : (s.onObs f).cur = s.cur := State.onBlock_cur s _
@[simp] theorem State.onObs_pending : (s.onObs f).pending = s.pending := State.onBlock_pending s _
theorem State.onObs_up (h : s.blk.module.up = true) (hb : s.blk.boot.stage = 6) :
    s.onObs f = { s with blk := f s.env s.blk } := by simp [onObs, onBlock, h, hb]

@[simp] theorem State.onTap_time : (s.onTap g).time = s.time := by unfold onTap; split <;> rfl
@[simp] theorem State.onTap_cur : (s.onTap g).cur = s.cur := by unfold onTap; split <;> rfl
@[simp] theorem State.onTap_pending : (s.onTap g).pending = s.pending := by unfold onTap; split <;> rfl
theorem State.onTap_up (h : s.blk.module.powered = true) : s.onTap g = { s with blk := g s.blk } := by simp [onTap, h, always]

@[simp] theorem State.onCrossing_time (n : Nat) : (s.onCrossing n f).time = s.time := State.onBlock_time s _
@[simp] theorem State.onCrossing_cur (n : Nat) : (s.onCrossing n f).cur = s.cur := State.onBlock_cur s _
@[simp] theorem State.onCrossing_pending (n : Nat) : (s.onCrossing n f).pending = s.pending := State.onBlock_pending s _
theorem State.onCrossing_up (n : Nat) (h : s.blk.module.up = true) (hc : s.blk.crosses n = true) :
    s.onCrossing n f = { s with blk := f s.env s.blk } := by simp [onCrossing, onBlock, h, hc]

@[simp] theorem State.onLive_time (n : Nat) : (s.onLive n f).time = s.time := State.onBlock_time s _
@[simp] theorem State.onLive_cur (n : Nat) : (s.onLive n f).cur = s.cur := State.onBlock_cur s _
@[simp] theorem State.onLive_pending (n : Nat) : (s.onLive n f).pending = s.pending := State.onBlock_pending s _
theorem State.onLive_up (n : Nat) (h : s.blk.module.up = true) (hc : s.blk.crosses n = true) :
    s.onLive n f = { s with blk := f s.env s.blk } := by simp [onLive, onBlock, h, hc]

variable (k : Env → Block → Block × SMap Nat) (k1 : Env → Block → Block × Nat) (p : Nat)

@[simp] theorem State.onCur_time : (s.onCur k).time = s.time := by unfold onCur; split <;> rfl
@[simp] theorem State.onCur_pending : (s.onCur k).pending = s.pending := by unfold onCur; split <;> rfl
theorem State.onCur_up (h : s.blk.module.up = true) :
    s.onCur k = { s with blk := (k s.env s.blk).1, cur := (k s.env s.blk).2 } := by simp [onCur, h]

@[simp] theorem State.onPart_time : (s.onPart p k1).time = s.time := State.onCur_time s _
@[simp] theorem State.onPart_pending : (s.onPart p k1).pending = s.pending := State.onCur_pending s _
theorem State.onPart_up (h : s.blk.module.up = true) :
    s.onPart p k1 = { s with blk := (k1 s.env s.blk).1, cur := mset 0 s.cur p (k1 s.env s.blk).2 } := by
  simp [onPart, onCur, h, env]

@[simp] theorem State.advanceTo_cur (t : Nat) : (s.advanceTo t).cur = s.cur := by unfold advanceTo; split <;> rfl
@[simp] theorem State.advanceTo_pending (t : Nat) : (s.advanceTo t).pending = s.pending := by unfold advanceTo; split <;> rfl
theorem State.advanceTo_now (t : Nat) : (s.advanceTo t).time.now = max s.time.now t := by
  unfold advanceTo; split
  · show t = _; omega
  · omega
theorem State.advanceTo_past (t : Nat) (h : t ≤ s.time.now) : s.advanceTo t = s := by simp [advanceTo, Nat.not_lt.mpr h]

@[simp] theorem State.eventAt_none : s.eventAt none = s := rfl
@[simp] theorem State.eventAt_cur (t : Option Nat) : (s.eventAt t).cur = s.cur := by cases t <;> simp [eventAt]
@[simp] theorem State.eventAt_pending (t : Option Nat) : (s.eventAt t).pending = s.pending := by cases t <;> simp [eventAt]
theorem State.eventAt_now_le (t : Option Nat) : s.time.now ≤ (s.eventAt t).time.now := by
  cases t with
  | none => exact Nat.le_refl _
  | some t => simp only [eventAt, advanceTo_now]; omega

@[simp] theorem State.scheduled_none : s.scheduled none = s := rfl
@[simp] theorem State.scheduled_cur (t : Option Nat) : (s.scheduled t).cur = s.cur := by
  cases t <;> simp only [scheduled]; split <;> simp
@[simp] theorem State.scheduled_pending (t : Option Nat) : (s.scheduled t).pending = s.pending := by
  cases t <;> simp only [scheduled]; split <;> simp
theorem State.scheduled_now_le (t : Option Nat) : s.time.now ≤ (s.scheduled t).time.now := by
  cases t with
  | none => exact Nat.le_refl _
  | some t =>
    simp only [scheduled]
    split
    · simp
    · simp only [advanceTo_now]; omega

@[simp] theorem State.idleTick_cur : s.idleTick.cur = s.cur := State.advanceTo_cur s _
@[simp] theorem State.idleTick_pending : s.idleTick.pending = s.pending := State.advanceTo_pending s _
theorem State.idleTick_now : s.idleTick.time.now = s.time.now + 1 := by simp [idleTick, advanceTo_now]

@[simp] theorem State.woken_time (w : Nat) : (s.woken w).time = s.time := State.onCur_time s _
@[simp] theorem State.woken_pending (w : Nat) : (s.woken w).pending = s.pending := State.onCur_pending s _

end Sys2Proof.Machine
end

