-- ==== Sys2Proof/Tests/Slice0.lean ====
section
/-! SUPPORT. Tests: ill-formed commands are refused, instruction words written out by hand, single steps, and for each
obligation a state and operands that meet its hypotheses. -/
namespace Sys2Proof.Tests
set_option Elab.async false
open Sys2Proof.Machine

/-! ## Small states -/

/-- The state after reset with block `b`. -/
def st (b : Block) : State := { time := {}, cur := [], blk := b, pending := [] }

/-- The same with campus time `now`. -/
def stAt (now : Nat) (b : Block) : State := { st b with time := { now := now } }

/-- A block after its cold start. -/
def live : Block := { boot := { stage := 6 } }

/-- Region 0 of partition 0. -/
def rid : RegionId := ⟨0, 0⟩

/-- Region `x` loaded as region 0 of partition 0. -/
def reg (x : Region) : Block := ({} : Block).setRegion rid x

/-- A region that fetches. -/
def runs : Region := { state := .running, plen := 3 }

/-! ## Well-formed commands -/

def gm (words : Nat) : GenMsg :=
  { job := 0, epoch := 0, sender := 0, flags := 0, gen := 0, gen2 := 0, tick1 := 0, tick2 := 0, data := List.replicate words 0 }

def mg (mtype : Nat) : Msg :=
  { mtype := mtype, flags := 0, src := 0, dst := 0, parts := 0, rop := 0, job := 0, epoch := 0, mid := 0, length := 0, addr := 0
    signal := 0, expfmt := 0, qseq := 0, data := [] }

def fl (ftype : Nat) : Flit :=
  { ftype := ftype, vc := 0, cls := 0, seq := 0, ack := 0, crVc := 0, crCls := 0, crCount := 0, mtag := 0, som := false, eom := false
    cmp := false, len := 0, payload := List.replicate 240 0, check := 0 }

def ar (ftype : Nat) : Arrival := { flit := fl ftype, fixed := [0, 0, 0, 0], lost := 0 }

def pm : PowerMsg :=
  { magic := 0x44475044, ver := 1, key := 0, spare := true, seq := 0, target := 0, issue := 0, effect := 0, expire := 0, mac := true }

def iw : IssueWord :=
  { entry := 0, firstC := 0, route := 0, routeEn := false, idxA := 0, rowMask := 0, colMask := 0, pred := 0 }

def asker : Asker := { id := 0, part := 0, job := false, gclass := 0 }

theorem test_wf_accepts :
    (Instr.wait rid 1).wf = true ∧ (Instr.issue rid iw .none).wf = true ∧ (Instr.walkRetire ⟨0, 639⟩).wf = true ∧
    (Instr.ready 0 (gm 0)).wf = true ∧ (Instr.put 0 (mg 0)).wf = true ∧ (Instr.idle 0 (ar 0)).wf = true ∧ (Instr.query pm).wf = true ∧
    (Instr.memWrite asker 63 [1] false false false).wf = true ∧ (Instr.bracketVote 0 1).wf = true := by decide +kernel

theorem test_wf_refuses_wait_zero : (Instr.wait rid 0).wf = false := by decide +kernel
theorem test_wf_refuses_idlew_zero : (Instr.idlew rid 0 0).wf = false := by decide +kernel
theorem test_wf_refuses_odd_strm : (Instr.strm rid 0 0 5).wf = false := by decide +kernel
theorem test_wf_refuses_issue_codes :
    (Instr.issue rid { iw with entry := 64 } .none).wf = false ∧ (Instr.issue rid { iw with firstC := 6 } .none).wf = false ∧
    (Instr.issue rid { iw with route := 16 } .none).wf = false ∧ (Instr.issue rid { iw with idxA := 1 } .none).wf = false ∧
    (Instr.issue rid { iw with idxA := 16 } .none).wf = false ∧ (Instr.issue rid { iw with rowMask := 256 } .none).wf = false ∧
    (Instr.issue rid { iw with colMask := 256 } .none).wf = false ∧ (Instr.issue rid { iw with pred := 5 } .none).wf = false := by
  decide +kernel
theorem test_wf_refuses_seq_fields :
    (SeqOp.idlew 16 1).wf = false ∧ (SeqOp.wait (2 ^ 24)).wf = false ∧ (SeqOp.br 2048).wf = false ∧ (SeqOp.brc 4 false 0).wf = false ∧
    (SeqOp.loop 8 0).wf = false ∧ (SeqOp.ldc 0 (2 ^ 24)).wf = false ∧ (SeqOp.cmp 0 0 4 0).wf = false ∧ (SeqOp.lda 0 (2 ^ 40)).wf = false ∧
    (SeqOp.addi 16 0).wf = false ∧ (SeqOp.adda 0 16).wf = false ∧ (SeqOp.strm 4 0 0).wf = false ∧ (SeqOp.syncsig 8192).wf = false ∧
    (SeqOp.syncwt 0 8192).wf = false ∧ (SeqOp.walk 16).wf = false := by decide +kernel
theorem test_wf_refuses_region : (Instr.nop ⟨0, 640⟩).wf = false ∧ (Instr.waitEnd ⟨0, 640⟩).wf = false := by decide +kernel
theorem test_wf_refuses_genmsg :
    (Instr.ready 0 (gm 1)).wf = false ∧ (Instr.abort 0 (gm 2)).wf = false ∧ (Instr.maxima 0 (gm 3)).wf = false ∧
    (Instr.order 0 { gm 0 with sender := 1024 }).wf = false ∧ (Instr.fixed 0 { gm 0 with epoch := 65536 }).wf = false ∧
    (Instr.abort 0 { gm 0 with data := [65536, 0, 0] }).wf = false := by decide +kernel
theorem test_wf_refuses_message :
    (Instr.put 0 (mg 1)).wf = false ∧ (Instr.getReq 0 { mg 1 with dst := 1024 }).wf = false ∧
    (Instr.collectiveData 0 { mg 3 with addr := 2 ^ 48 }).wf = false := by decide +kernel
theorem test_wf_refuses_flit :
    (Instr.data 0 (ar 0)).wf = false ∧ (Instr.idle 0 { ar 0 with fixed := [] }).wf = false ∧
    (Instr.idle 0 { ar 0 with flit := { fl 0 with payload := [] } }).wf = false ∧
    (Instr.idle 0 { ar 0 with flit := { fl 0 with len := 241 } }).wf = false := by decide +kernel
theorem test_wf_refuses_directive :
    (Instr.query { pm with ver := 256 }).wf = false ∧ (Instr.setShares pm [1, 2]).wf = false := by decide +kernel
theorem test_wf_refuses_lengths :
    (Instr.memWrite asker 0 [] false false false).wf = false ∧ (Instr.memWrite asker 63 [1, 2] false false false).wf = false ∧
    (Instr.challenge [1]).wf = false ∧ (Instr.getMeasurements 1 []).wf = false ∧ (Instr.estimateScale [1] []).wf = false ∧
    (Instr.budgetDivision 0 []).wf = false := by decide +kernel
theorem test_wf_refuses_hub : (Instr.alloc 1 [(0, 0)]).wf = false ∨ (Instr.alloc 0 [(0, 0)]).wf = false := by decide +kernel
theorem test_wf_refuses_sensor : (Instr.thermalSample [{ cls := 1, index := 16, temp := 0 }]).wf = false := by decide +kernel
theorem test_wf_refuses_vote : (Instr.bracketVote 0 0).wf = false := by decide +kernel

/-! ## Instruction words, written out from R92 and R93 -/

theorem test_words_control :
    SeqOp.decode 0x0000000000000000 = some .nop ∧ SeqOp.decode 0x0100000000000005 = some (.wait 5) ∧
    SeqOp.decode 0x0230000000123456 = some (.idlew 3 0x123456) ∧ SeqOp.decode 0x0300000000000000 = some .halt ∧
    SeqOp.decode 0x0400000000000000 = some .drainpt ∧ SeqOp.decode 0x05000000000007FF = some (.br 0x7FF) ∧
    SeqOp.decode 0x0650000000000123 = some (.brc 2 true 0x123) ∧ SeqOp.decode 0x07A0000000000001 = some (.loop 5 1) ∧
    SeqOp.decode 0x08C0000000ABCDEF = some (.ldc 6 0xABCDEF) ∧ SeqOp.decode 0x092E000000000007 = some (.cmp 1 3 2 7) := by
  decide +kernel

theorem test_words_address :
    SeqOp.decode 0x10F000123456789A = some (.lda 15 0x123456789A) ∧ SeqOp.decode 0x111000FFFFFFFFFF = some (.addi 1 0xFFFFFFFFFF) ∧
    SeqOp.decode 0x1223000000000000 = some (.adda 2 3) ∧ SeqOp.decode 0x20A5000000000000 = some (.strm 2 9 4) ∧
    SeqOp.decode 0x2100000000001FFF = some (.syncsig 0x1FFF) ∧ SeqOp.decode 0x2240000000000010 = some (.syncwt 4 0x10) ∧
    SeqOp.decode 0x31E0000000000000 = some (.walk 14) := by decide +kernel

theorem test_words_issue : SeqOp.decode 0x30A9CDA050A00000 = some (.issue
    { entry := 0x2A, firstC := 3, route := 9, routeEn := true, idxA := 6, rowMask := 0x81, colMask := 0x42, pred := 4 }) := by
  decide +kernel

theorem test_words_refused :
    SeqOp.decode 0x0A00000000000000 = none ∧ SeqOp.decode 0xFF00000000000000 = none ∧ SeqOp.decode 0x0000000000000001 = none ∧
    SeqOp.decode 0x0100000000000000 = none ∧ SeqOp.decode 0x0510000000000000 = none ∧ SeqOp.decode 0x20A5400000000000 = none ∧
    SeqOp.decode 0x30A9CDA050A00001 = none ∧ SeqOp.decode 0x3003000000000000 = none ∧ SeqOp.decode 0x3000000000280000 = none := by
  decide +kernel


/-! ## For each obligation, what meets its hypotheses -/

/-- Stream descriptor at 0, whose tensor descriptor lies at 64; partition 0 owns the first GiB. -/
def streams : Block := { mem := {
  bytes := putBytes (putBytes [] 0 (leBytes 64 (1 + 2 ^ 74 + 2 ^ 240 + 2 ^ 291 + 2 ^ 342 + 2 ^ 393 + 2 ^ 444)))
    64 (leBytes 64 (2 ^ 53 + 2 ^ 96))
  pranges := [(0, { base := 0, size := 1 })] } }

/-- The same with region `x` and cluster 0. -/
def streamsWith (x : Region) (c : Cluster) : Block := (streams.setRegion rid x).setCluster 0 0 c

/-- An op-table word of code `opc`, valid. -/
def opw (opc : Nat) : Nat := 2 ^ 255 + opc * 2 ^ 249

def iss : Issue := { entry := 0, first := false, idx := 0, pitch := 0, a := [], b := [] }

/-- Cell (0, 0) issued entry 0 of code `opc`. -/
def cellOp (opc : Nat) : Block := ({} : Block).setCell 0 0 { ops := [(0, opw opc)], issue := some iss }

theorem test_wit_SequencerBranchesGo :
    (st (reg runs)).Up ∧ (reg runs).Fetches rid ∧ (reg { runs with ctrs := [(1, 5)] }).Fetches rid ∧
    mget 0 ((reg { runs with ctrs := [(1, 5)] }).region rid).ctrs 1 ≠ 0 ∧ mget 0 ((reg runs).region rid).ctrs 7 = 0 ∧
    ((reg runs).region rid).drain = false := by unfold Block.Fetches; decide +kernel

theorem test_wit_SequencerWaitsCount :
    (st (reg runs)).Up ∧ (reg runs).Fetches rid ∧ ((reg { runs with waitLeft := 1 }).region rid).state = .running ∧
    ((reg { runs with waitLeft := 1 }).region rid).waitLeft ≠ 0 := by unfold Block.Fetches; decide +kernel

theorem test_wit_SequencerAddressesLoad :
    (st (streamsWith runs {})).Up ∧ (streamsWith runs {}).Fetches rid ∧ ((streamsWith runs {}).region rid).clusters = [(0, 0)] ∧
    (∀ p ∈ ((streamsWith runs {}).region rid).clusters,
      (streamsWith runs {}).streamFault rid.part (mget 0 ((streamsWith runs {}).cluster p.1 p.2).areg 0) 0 = none) ∧
    (∀ p ∈ ((streamsWith runs {}).region rid).clusters, (((streamsWith runs {}).cluster p.1 p.2).chan 0).queue.length < 4) ∧
    (∃ c : Cluster, c = { chans := [(0, { queue := List.replicate 4 { desc := 0, off := 0 } })] } ∧ (streamsWith runs c).Fetches rid ∧
      (∀ p ∈ ((streamsWith runs c).region rid).clusters,
        (streamsWith runs c).streamFault rid.part (mget 0 ((streamsWith runs c).cluster p.1 p.2).areg 0) 0 = none) ∧
      (∃ p ∈ ((streamsWith runs c).region rid).clusters, 4 ≤ (((streamsWith runs c).cluster p.1 p.2).chan 0).queue.length)) ∧
    ((reg runs).region rid).clusters.findSome? (fun p => (reg runs).streamFault rid.part (mget 0 ((reg runs).cluster p.1 p.2).areg 0) 0)
      = some 6 := by
  unfold Block.Fetches
  refine ⟨?_, ?_, ?_, ?_, ?_, ⟨_, rfl, ?_, ?_, ?_⟩, ?_⟩ <;> decide +kernel

theorem test_wit_SequencerSyncActs :
    (st (reg runs)).Up ∧ (reg runs).Fetches rid ∧ (reg runs).writesVisible rid = true ∧ ((reg runs).region rid).signals = [] ∧
    ((reg runs).setCluster 0 0 { outs := [(0, [(0, false)])] }).Fetches rid ∧
    ((reg runs).setCluster 0 0 { outs := [(0, [(0, false)])] }).writesVisible rid = false ∧
    (((reg runs).setObj 8191 { part := 0 }).obj 8191).mode = 0 ∧ (((reg runs).setObj 8191 { part := 0 }).obj 8191).part = rid.part ∧
    ((reg runs).setObj 8191 { part := 0 }).Fetches rid ∧ ((reg runs).setObj 8191 { part := 0 }).writesVisible rid = true ∧
    (reg runs).syncUsable rid.part 0 = false ∧ ((reg runs).setObj 8191 { part := 0 }).syncUsable rid.part 8191 = true ∧
    mget 0 (((reg runs).setObj 8191 { part := 0 }).cluster 0 0).areg 0 ≤ (((reg runs).setObj 8191 { part := 0 }).obj 8191).val ∧
    (∃ b, b = ((reg runs).setObj 0 { part := 0 }).setCluster 0 0 { areg := [(15, 1)] } ∧ b.Fetches rid ∧ b.syncUsable rid.part 0 = true ∧
      (b.obj 0).val < mget 0 (b.cluster (b.region rid).x0 (b.region rid).y0).areg 15) ∧
    ((reg { runs with syncWait := some (3, 0) }).region rid).syncWait = some (3, 0) ∧
    0 ≤ ((reg { runs with syncWait := some (3, 0) }).obj 3).val := by
  unfold Block.Fetches
  refine ⟨?_, ?_, ?_, ?_, ?_, ?_, ?_, ?_, ?_, ?_, ?_, ?_, ?_, ⟨_, rfl, ?_, ?_, ?_⟩, ?_, ?_⟩ <;> decide +kernel

/-- Memory with stack 0 in service, its first GiB in partition 0. -/
def ram : Memory := { hbm := [(0, { insvc := 2 ^ 32 - 1 })], pranges := [(0, { base := 0, size := 1 })] }

/-- A macro-instruction at 0; with `full`, its M, N and BATCH are 1. -/
def macroBlk (full : Bool) : Block :=
  let one : Byte := if full then 1 else 0
  let word : List Byte := zeros 114 ++ [one, 0, 0, 0, 0, one, 0, 0, one, 0, 0, 0, 0x10, 0xA7]
  ({ mem := { ram with bytes := putBytes [] 0 word } } : Block).setRegion rid runs

/-- The macro-instruction as WALK reads it. -/
def macroRead (full : Bool) : Macro :=
  Macro.ofBits (leNat (((macroBlk full).readMem (st (macroBlk full)).env ((macroBlk full).clusterReq 0 0 0 0) 0 128).2.map Prod.fst))

theorem test_wit_SequencerIssuesAndWalks :
    (st (reg runs)).Up ∧ (reg runs).Fetches rid ∧
    ({ iw with pred := 4 } : IssueWord).pred ≠ 0 ∧
    ((reg { runs with cmps := [(3, { rel := 1 })] }).region rid).cmp 3 = false ∧ (reg { runs with cmps := [(3, { rel := 1 })] }).Fetches rid ∧
    ((reg runs).region rid).cmp 0 = true ∧ iw.pred = 0 ∧
    (reg runs).issueBlocked (st (reg runs)).env 0 ((reg runs).region rid) iw = none ∧
    (∃ b, b = (streamsWith runs { chans := [(0, { queue := [{ desc := 0, off := 0 }] })] }).setCell 0 0 { ops := [(0, opw 0x10 + 5 * 2 ^ 33)] } ∧
      b.Fetches rid ∧ (b.issueBlocked (st b).env 0 (b.region rid) { iw with rowMask := 1, colMask := 1 }).isSome = true) ∧
    (streamsWith runs { chans := [(3, { held := [(0, false)] })] }).channelsEmpty
      ((streamsWith runs { chans := [(3, { held := [(0, false)] })] }).region rid) = false ∧
    (reg runs).channelsEmpty ((reg runs).region rid) = true ∧
    (Macro.ofBits (leNat (((reg runs).readMem (st (reg runs)).env ((reg runs).clusterReq 0 0 0 0) 0 128).2.map Prod.fst))).magic ≠ 0xA7 ∧
    (macroBlk true).Fetches rid ∧ (macroBlk true).channelsEmpty ((macroBlk true).region rid) = true ∧
    (macroBlk false).Fetches rid ∧ (macroBlk false).channelsEmpty ((macroBlk false).region rid) = true ∧
    (macroRead false).magic = 0xA7 ∧ (macroRead false).ver = 1 ∧ (macroRead false).m = 0 ∧
    (macroRead true).magic = 0xA7 ∧ (macroRead true).ver = 1 ∧ (macroRead true).m ≠ 0 ∧ (macroRead true).n ≠ 0 ∧ (macroRead true).batch ≠ 0 ∧
    ((reg { runs with walk := { phase := .fill } }).region rid).walk.phase ≠ .none ∧
    ((reg { runs with walk := { phase := .fill } }).region rid).walk.phase ≠ .stopped := by
  unfold Block.Fetches
  refine ⟨?_, ?_, ?_, ?_, ?_, ?_, ?_, ?_, ⟨_, rfl, ?_, ?_⟩, ?_⟩ <;> decide +kernel

theorem test_wit_VectorLanesCompute :
    (st (cellOp 0x12)).Up ∧ ({} : Block).issued 0 0 0x12 = none ∧
    ([0x12, 0x13, 0x14, 0x15, 0x16, 0x17, 0x18, 0x1A, 0x1B, 0x1C, 0x1D, 0x1E, 0x1F, 0x20]).all
      (fun n => ((cellOp n).issued 0 0 n).isSome) = true := by decide +kernel

theorem test_wit_VectorReducesAndMoves :
    (st (cellOp 0x10)).Up ∧ ({} : Block).issued 0 0 0x10 = none ∧
    ([0x22, 0x23, 0x21, 0x10, 0x11, 0x19]).all (fun n => ((cellOp n).issued 0 0 n).isSome) = true ∧
    (OpEntry.ofBits (opw 0x10)).aSrc = 0 ∧ (OpEntry.ofBits (opw 0x10 + 7 * 2 ^ 33)).aSrc ≠ 0 ∧
    ((({} : Block).setCell 639 511 { ops := [(0, opw 0x10 + 7 * 2 ^ 33)], issue := some iss }).issued 639 511 0x10).isSome = true := by
  decide +kernel

theorem test_wit_MatrixPassAddsProducts :
    ({ OpEntry.ofBits (opw 1) with accInit := false } : OpEntry).accInit = false ∧
    (({} : Cell).openGroup (OpEntry.ofBits (opw 1)) 0 false).passes = 0 ∧
    (∃ c : Cell, c = { groups := [(0, some { init := true, passes := 1 })] } ∧
      (c.openGroup (OpEntry.ofBits (opw 1 + 2 ^ 136)) 0 false).passes = 1 ∧ 1 % (OpEntry.ofBits (opw 1 + 2 ^ 136)).spillEvery ≠ 0) := by
  refine ⟨?_, ?_, ⟨_, rfl, ?_, ?_⟩⟩ <;> decide +kernel

theorem test_wit_MatrixOperationsRun :
    (st (cellOp 1)).Up ∧ ((cellOp 0).cell 0 0).issue = some iss ∧ (((cellOp 0).cell 0 0).op iss.entry).opc = 0 ∧
    ((({} : Block).setCell 0 0 { issue := some iss }).cell 0 0).issue = some iss ∧
    (((({} : Block).setCell 0 0 { issue := some iss }).cell 0 0).op iss.entry).valid = false ∧
    ([6, 1, 3, 2]).all (fun n => ((cellOp n).issued 0 0 n).isSome) = true ∧ (OpEntry.ofBits (opw 2)).epiOp = 0 ∧
    ((({} : Block).setCell 0 0 { spills := [{ base := 0, ls := 0, fresh := false, vals := [] }] }).cell 0 0).spills.length = 1 ∧
    (({} : Block).cell 0 0).spills = [] ∧ ([6, 1, 3, 2]).all (fun n => (({} : Block).issued 0 0 n).isNone) = true := by decide +kernel

/-- A sampled group whose record takes one frame. -/
def sampled : Sampled := { entry := 0, exposure := 0, count := 0, log := [], totals := [] }

theorem test_wit_CellStateMoves :
    (st {}).Up ∧ ({} : Block).atDrain 0 0 = true ∧
    ((({ fe := { parts := [(0, { valid := true, first := 0, size := 0 })] } } : Block).setImage 0
      { loaded := true, runCmd := some 0, regions := [(0, runs)] }).atDrain 0 0) = false ∧
    ((reg { state := .replayWait }).region rid).state = .replayWait ∧ ((reg runs).region rid).state ≠ .replayWait ∧
    (({} : Block).cell 0 0).sampled = [] ∧ ((({} : Block).setCell 0 0 { sampled := [sampled] }).cell 0 0).sampled = [sampled] ∧
    ceilDiv (({} : Block).bracketBytes 0 0 sampled).length 0x4000 = 1 ∧
    ((({} : Block).setCell 0 0 { sampled := [] }).allocMany 1).2.length = 1 := by decide +kernel

theorem test_wit_RegionsStopAndResume :
    (st (reg runs)).Up ∧ (reg { runs with drain := true }).Fetches rid ∧ ((reg { runs with drain := true }).region rid).drain = true ∧
    ((reg runs).region rid).walk.phase = .none ∧ ((reg { state := .frozen }).region rid).state = .frozen ∧
    ((reg { state := .replayWait }).region rid).state = .replayWait ∧
    ((reg { runs with walk := { phase := .passes } }).region rid).walk.phase ≠ .none ∧
    ((reg { state := .halted }).region rid).state = .halted ∧ ((reg { state := .stopped }).region rid).state = .stopped ∧
    ((reg { state := .breakpoint }).region rid).state = .breakpoint ∧ ((reg { state := .halted }).region rid).walk.phase ≠ .stopped ∧
    (reg { state := .frozen }).groupWaits rid = false ∧
    (reg { state := .frozen, frozenCause := 9 }).groupWaits rid = true := by unfold Block.Fetches; decide +kernel

/-- Partition 0 on plate 0, running fused command 0. -/
def running (x : Region) : Block :=
  (({ fe := { parts := [(0, { valid := true })] } } : Block)).setImage 0 { loaded := true, commands := 1, runCmd := some 0, regions := [(0, x)] }

/-- RUN of partition 0 in the phase given. -/
def runDesc (opc : Nat) : Desc :=
  { opc := opc, flags := 0, deadline := 0, waitSo := 0, sigSo := 0, waitVal := 0, deps := [], arg := 0, imm := 0, reserved := false }

def cmdRun (opc : Nat) (phase : Phase) : Running :=
  { seq := 1, desc := runDesc opc, phase := phase, due := 0, lock := none, gens := [], part := 0, stepList := false }

/-- Queue 0 of partition 0 on engine `eng` with one command of code `opc`. -/
def busyQueue (eng opc : Nat) (phase : Phase) : Queue :=
  { enable := true, part := 0, engine := eng, submitted := 1, state := 4, running := [cmdRun opc phase] }

theorem test_wit_StagesStartAndComplete :
    (st (running runs)).Up ∧ ({} : Block).regionAt 0 0 = none ∧ (running runs).regionAt 0 0 = some rid ∧
    ((running runs).region rid).state ≠ .halted ∧ (running { state := .halted }).writesHanded 0 0 = true ∧
    ((running { state := .halted }).region rid).state = .halted ∧
    ((running { state := .halted }).setCluster 0 0 { outs := [(0, [(0, false)])] }).writesHanded 0 0 = false ∧
    (({} : Block).image 0).runCmd = none ∧ (running runs).liveRegions 0 = [0] ∧ ((running runs).region rid).done = false ∧
    (∃ b : Block, b = (running { state := .halted, done := true }).setQueue 0 (busyQueue 0 3 .executing) ∧
      (b.image 0).runCmd = some 0 ∧ (∀ i ∈ b.liveRegions 0, (b.region ⟨0, i⟩).done = true) ∧ b.runQueue 0 = some 0) := by
  refine ⟨?_, ?_, ?_, ?_, ?_, ?_, ?_, ?_, ?_, ?_, ⟨_, rfl, ?_, ?_, ?_⟩⟩ <;> decide +kernel

theorem test_wit_StreamsMoveBeats :
    (st (streamsWith runs {})).Up ∧ (({} : Block).cluster 0 0).chan 0 = {} ∧
    (∃ f : Flow, f = { desc := 0, off := 0 } ∧ f.served < streams.flowBytes f) ∧
    (∃ f : Flow, f = { desc := 0, off := 0, served := 4 } ∧ streams.flowBytes f ≤ f.served ∧
      ((streamsWith runs { chans := [(0, { queue := [f] })] }).cluster 0 0 |>.chan 0).taken < streams.flowBytes f ∧
      streams.flowBytes f ≤ ((streamsWith runs { chans := [(0, { queue := [f], taken := 4 })] }).cluster 0 0 |>.chan 0).taken) := by
  refine ⟨?_, ?_, ⟨_, rfl, ?_⟩, ⟨_, rfl, ?_, ?_, ?_⟩⟩ <;> decide +kernel

/-- Generation unit 0 with registers `r`, working alone. -/
def genBlk (r : GenRegs) (p : Proto) (a : GenAux) : Block := ({} : Block).setGen 0 { regs := r, proto := p, aux := a, job := { devices := [0] } }

theorem test_wit_GenerationMessagesAct :
    (st (genBlk { state := 2 } {} {})).Up ∧
    ([1, 2, 3, 4, 5, 6, 7]).all (fun n =>
      decide (((genBlk { state := 2 } {} {}).consumeGen n (gm 0)).takes 0 (gm 0) = some 0)) = true ∧
    (((genBlk { state := 2 } {} {}).consumeGen 4 (gm 0)).gen 0).regs.state = 2 ∧
    bit (gm 0).flags 2 = false ∧ bit ({ gm 0 with flags := 4 } : GenMsg).flags 2 = true ∧
    ((genBlk { state := 2 } {} {}).consumeGen 7 { gm 0 with flags := 4 }).takes 0 { gm 0 with flags := 4 } = some 0 ∧
    ((genBlk { state := 5 } {} {}).consumeGen 8 (gm 0)).takes 0 (gm 0) = some 0 ∧
    (((genBlk { state := 5 } {} {}).consumeGen 8 (gm 0)).gen 0).regs.state = 5 ∧
    (((genBlk { state := 5 } {} {}).consumeGen 9 (gm 0)).gen 0).proto.restart = none ∧
    ((genBlk { state := 1 } {} {}).consumeGen 9 (gm 0)).takes 0 (gm 0) = some 0 ∧
    (((genBlk { state := 1 } {} {}).consumeGen 9 (gm 0)).gen 0).regs.state = 1 ∧
    (((genBlk { state := 1 } {} {}).consumeGen 9 (gm 0)).gen 0).proto.restart = none ∧
    ((genBlk { state := 1 } {} {}).consumeGen 10 (gm 0)).takes 0 (gm 0) = some 0 ∧
    (((genBlk { state := 1 } {} {}).consumeGen 10 (gm 0)).gen 0).regs.state = 1 := by decide +kernel

theorem test_wit_GenerationMessagesWait :
    (st {}).Up ∧ (({} : Block).consumeGen 1 (gm 0)).jobPart 0 (gm 0).job = none ∧
    (∀ n ∈ List.range 11, ((genBlk { state := 2, epoch := 5 } {} {}).consumeGen n (gm 0)).jobPart 0 (gm 0).job = some 0) ∧
    (gm 0).epoch ≠ (((genBlk { state := 2, epoch := 5 } {} {}).consumeGen 1 (gm 0)).gen 0).regs.epoch ∧
    staleEpoch 5 (gm 0).epoch = true ∧ staleEpoch 5 ({ gm 0 with epoch := 6 } : GenMsg).epoch = false ∧
    staleEpoch 5 (5 + 32768) = false ∧ staleEpoch 5 (5 + 32769) = true := by decide +kernel

/-- The state at the due time of an event of unit 0. -/
def dueState (b : Block) (t : Option Nat) : State := (st b).eventAt t

theorem test_wit_FixAndGatesHappen :
    (∃ b s', b = genBlk { state := 3 } { order := some { tick := 5, gate := 9, orddep := false } } {} ∧ s' = (st b).scheduled (b.fixDue 0) ∧
      s'.Up ∧ (s'.blk.gen 0).proto.order = some { tick := 5, gate := 9, orddep := false } ∧ (s'.blk.gen 0).regs.state = 3 ∧
      s'.blk.mayAgree s'.env 0 = true ∧ 5 ≤ s'.time.now) ∧
    (∃ b s', b = genBlk { state := 4 } {} { gateTick := 7 } ∧ s' = (st b).scheduled (b.gateDue 0) ∧ s'.Up ∧
      s'.blk.gateOpens s'.env 0 = true ∧ (s'.blk.gen 0).proto.restart = none ∧ (s'.blk.gen 0).regs.state = 4) ∧
    (∃ b s', b = genBlk { state := 5 } { restart := some { target := 0, gate := 7 } } { gateTick := 7 } ∧
      s' = (st b).scheduled (b.gateDue 0) ∧ s'.Up ∧ s'.blk.gateOpens s'.env 0 = true ∧ (s'.blk.gen 0).proto.restart ≠ none ∧
      (s'.blk.gen 0).regs.state = 5) ∧
    (∃ b s', b = genBlk { state := 1 } { sentLoaded := true } {} ∧ s' = (st b).eventAt (b.loadedDue 0) ∧ s'.Up ∧
      s'.blk.loadedDue 0 = some 10000 ∧ 10000 ≤ s'.time.now ∧ s'.blk.clk.pstate ≠ 2 ∧ s'.blk.mayAgree s'.env 0 = true) ∧
    (∃ b s', b = genBlk { state := 3 } {} { orderBy := 5 } ∧ s' = (st b).eventAt (b.orderDue 0) ∧ s'.Up ∧ s'.blk.orderDue 0 = some 5 ∧
      5 ≤ s'.time.now) ∧
    (∃ b s', b = genBlk { state := 3 } {} { exposeBy := 5 } ∧ s' = (st b).eventAt (b.exposeDue 0) ∧ s'.Up ∧ s'.blk.exposeDue 0 = some 5 ∧
      5 ≤ s'.time.now) ∧
    (∃ b s', b = genBlk { state := 5 } {} { rejoinBy := 5 } ∧ s' = (st b).eventAt (b.rejoinDue 0) ∧ s'.Up ∧ s'.blk.rejoinDue 0 = some 5 ∧
      5 ≤ s'.time.now ∧ (s'.blk.gen 0).regs.state = 5 ∧ (s'.blk.gen 0).proto.restart = none) := by
  refine ⟨⟨_, _, rfl, rfl, ?_⟩, ⟨_, _, rfl, rfl, ?_⟩, ⟨_, _, rfl, rfl, ?_⟩, ⟨_, _, rfl, rfl, ?_⟩, ⟨_, _, rfl, rfl, ?_⟩,
    ⟨_, _, rfl, rfl, ?_⟩, ⟨_, _, rfl, rfl, ?_⟩⟩ <;> decide +kernel

/-- A block with time unit `t`. -/
def timBlk (t : TimeUnit) : Block := { tim := t }

theorem test_wit_TimebaseFollowsItsSources :
    (st {}).Up ∧ ({} : Block).tim.tstate ≤ 1 ∧ ({} : Block).tim.stepped = false ∧ (st {}).time.now * 65536 + (st {}).time.frac < 0 * 65536 + 1 ∧
    2 ≤ (timBlk { tstate := 2 }).tim.tstate ∧
    (dueState (timBlk { tstate := 2 }) (some ((timBlk { tstate := 2 }).tim.edgeAt 0))).Up ∧
    ¬ ((dueState (timBlk { tstate := 2 }) (some ((timBlk { tstate := 2 }).tim.edgeAt 0))).blk.tim.ptpOk = true ∧ 1000 < (1000 : Int).natAbs) ∧
    (∃ b s', b = timBlk { tstate := 2, ptpOk := true, ctOk := true, ctBad := 3 } ∧ s' = dueState b (some (b.tim.edgeAt 0)) ∧ s'.Up ∧
      s'.blk.tim.ptpOk = true ∧ 1000 < (-1001 : Int).natAbs ∧ 3 ≤ s'.blk.tim.ctBad ∧ s'.blk.tim.ctOk = true) ∧
    (timBlk { tstate := 2 }).tim.tstate = 2 ∧ (timBlk { tstate := 4 }).tim.tstate ≠ 2 ∧
    (∃ b s', b = timBlk { tstate := 3 } ∧ s' = dueState b b.tim.holdDue ∧ s'.Up ∧ s'.blk.tim.tstate = 3 ∧ s'.time.now = 30000000) ∧
    (∃ b s', b = timBlk { tstate := 4 } ∧ s' = dueState b b.tim.holdDue ∧ s'.Up ∧ s'.blk.tim.tstate = 4) := by
  refine ⟨?_, ?_, ?_, ?_, ?_, ?_, ?_, ⟨_, _, rfl, rfl, ?_⟩, ?_, ?_, ⟨_, _, rfl, rfl, ?_⟩, ⟨_, _, rfl, rfl, ?_⟩⟩ <;> decide +kernel

theorem test_wit_MainsCyclesEnd :
    (st {}).Up ∧ ({} : Block).tim.gridLast = none ∧ (timBlk { gridLast := some 0 }).tim.gridLast = some 0 ∧
    (stAt 13999 (timBlk { gridLast := some 0 })).time.now - 0 < 14000 ∧ 24000 < (stAt 24001 (timBlk { gridLast := some 0 })).time.now - 0 ∧
    14000 ≤ (stAt 14000 (timBlk { gridLast := some 0 })).time.now - 0 ∧ (stAt 24000 (timBlk { gridLast := some 0 })).time.now - 0 ≤ 24000 ∧
    (timBlk { gridLast := some 0, grid := true }).tim.grid = true ∧ (timBlk { gridLast := some 0, gridRun := 6 }).tim.gridRun < 7 ∧
    7 ≤ (timBlk { gridLast := some 0, gridRun := 7 }).tim.gridRun ∧ (timBlk { gridRun := 7 }).tim.grid = false ∧
    (dueState (timBlk { gridLast := some 0 }) (some (3 * ({} : Block).nominalPeriod))).Up ∧
    (dueState {} (some (({} : Block).tim.cycleAt + ({} : Block).nominalPeriod))).Up ∧
    ({} : Block).tim.floorNow ≤ ({} : Block).tim.floor := by decide +kernel

/-- The state at the due time, with one more sample of 0 W. -/
def sampledBlk (t : TimeUnit) : Block := timBlk { t with samples := ((0, 0) :: t.samples).take 100, sampleAt := 0, cycN := t.cycN + 1 }

theorem test_wit_InputIsMeasured :
    7200 < (7201 : Fin 65536).val ∧ 20000 < (20001 : Fin 65536).val ∧ (7200 : Fin 65536).val ≤ 7200 ∧ (20000 : Fin 65536).val ≤ 20000 ∧
    (dueState {} (some (nextSlot 10 0 0))).Up ∧ (∀ c, (sampledBlk {}).tim.curtail = some c → c.started = true → False) ∧
    (sampledBlk { limit := 0, curtail := some { t0 := 0, started := true, missed := false } }).tim.limit ≤
      (sampledBlk { limit := 0, curtail := some { t0 := 0, started := true, missed := false } }).tim.mean100 ∧
    (∀ m : Bool, (sampledBlk { curtail := some { t0 := 0, started := true, missed := m } }).tim.curtail
      = some { t0 := 0, started := true, missed := m }) ∧
    (∀ m : Bool, (sampledBlk { curtail := some { t0 := 0, started := true, missed := m } }).tim.mean100
      < (sampledBlk { curtail := some { t0 := 0, started := true, missed := m } }).tim.limit) ∧
    (dueState {} (some ((st {}).slot 1000))).Up ∧ (dueState {} (some ((st {}).slot 10))).Up ∧ ([1, 2] : List Nat).sum ≠ 0 := by
  refine ⟨?_, ?_, ?_, ?_, ?_, fun _ h _ => ?_, ?_, ?_, ?_, ?_⟩
  case refine_6 => cases h
  all_goals decide +kernel

theorem test_wit_LimitsAreLeastAndCurtail :
    ((timBlk { limit := 6900 }).relimit 0).tim.limit < (timBlk { limit := 6900 }).tim.limit ∧ (dueState {} (some 4)).Up ∧
    (0 : Fin 8).val = (dueState {} (some 4)).blk.tim.pinLevel ∧ (7 : Fin 8).val ≠ (dueState {} (some 4)).blk.tim.pinLevel ∧
    ((st {}).scheduled ({} : Block).tim.swallowDue).Up ∧
    (∃ b s' c, b = timBlk { curtail := some { t0 := 0, started := false, missed := false } } ∧ s' = (st b).scheduled b.tim.swallowDue ∧ s'.Up ∧
      s'.blk.tim.curtail = some c ∧ c.started = false ∧ s'.time.now = 12) ∧
    (∃ b s' c, b = timBlk { curtail := some { t0 := 0, started := true, missed := true } } ∧ s' = dueState b b.tim.missDue ∧ s'.Up ∧
      s'.blk.tim.curtail = some c ∧ c.missed = true ∧ c.started = true) ∧
    (∃ b s' c, b = timBlk { limit := 0, curtail := some { t0 := 0, started := true, missed := false } } ∧ s' = dueState b b.tim.missDue ∧ s'.Up ∧
      s'.blk.tim.curtail = some c ∧ c.missed = false ∧ s'.blk.tim.limit ≤ s'.blk.tim.mean100) ∧
    (dueState (timBlk { limit := 1 }) none).blk.tim.mean100 < (dueState (timBlk { limit := 1 }) none).blk.tim.limit := by
  refine ⟨?_, ?_, ?_, ?_, ?_, ⟨_, _, _, rfl, rfl, ?_, rfl, ?_, ?_⟩, ⟨_, _, _, rfl, rfl, ?_, rfl, ?_, ?_⟩, ⟨_, _, _, rfl, rfl, ?_, rfl, ?_, ?_⟩, ?_⟩ <;>
    decide +kernel

/-- Partition 0 on plate 0 with power state `y`, PLL_P0_B at the frequency of FSTEP 0 and ready or not, and switch `run`. -/
def pllBlk (y : PartPower) (ready : Bool) (run : Option SwitchRun) : Block :=
  { fe := { parts := [(0, { valid := true })] }
    tim := { parts := [(0, y)] }
    clk := { plls := [(1, { ready := ready, mhz := fstepMhz 0 })], switches := [(0, run)] } }

theorem test_wit_PllsLockAndSwitch :
    (∃ b, b = pllBlk { busy := true } false none ∧ (st b).Up ∧ b.partOfPlate (1 / 2) = 0 ∧ (b.partPower 0).busy = true ∧
      (b.partPower 0).switched = false ∧ (b.partPower 0).retry = false ∧ mget none b.clk.switches 0 = none ∧
      (b.setClk { b.clk with plls := mset {} b.clk.plls 1 { mget ({} : Pll) b.clk.plls 1 with lock := true, ready := true } }).standbyReady 0
        (b.partPower 0).target = true) ∧
    (st {}).Up ∧ ({} : Block).partOfPlate (27 / 2) = 15 ∧
    (∀ ready run, ∃ b s', b = pllBlk { busy := decide (run = none) } ready run ∧
      s' = (st b).scheduled ((mget none b.clk.switches 0).map SwitchRun.tick) ∧
      (run ∈ [none, some ({ fstep := 0, tick := 1000, pf0 := true } : SwitchRun), some { fstep := 0, tick := 1000, pf0 := false }] →
        s'.Up ∧ mget none s'.blk.clk.switches 0 = run ∧
        (s'.blk.setClk { s'.blk.clk with switches := mset none s'.blk.clk.switches 0 none }).switchFault 0 0 = if ready then none else some 1)) ∧
    (∃ b s', b = pllBlk { busy := true, retry := true } true none ∧ s' = (st b).eventAt (some (st b).nextMs) ∧ s'.Up ∧
      (s'.blk.partPower 0).retry = true ∧ (s'.blk.partPower 0).busy = true ∧ (s'.blk.partPower 0).switched = false) ∧
    (({} : Block).partPower 0).retry = false ∧ (({} : Block).partPower 0).busy = false ∧ (dueState {} (some ((st {}).slot 1000))).Up ∧
    (∃ b s', b = pllBlk { busy := true, rising := true } true none ∧ s' = (st b).eventAt (some ((st b).slot 1000)) ∧ s'.Up ∧
      (s'.blk.partPower 0).busy = true ∧ (s'.blk.partPower 0).rising ≠ (s'.blk.partPower 0).switched ∧ s'.blk.platesOf 0 = [0]) := by
  refine ⟨⟨_, rfl, ?_⟩, ?_, ?_, fun ready run => ⟨_, _, rfl, rfl, fun h => ?_⟩, ⟨_, _, rfl, rfl, ?_⟩, ?_, ?_, ?_, ⟨_, _, rfl, rfl, ?_⟩⟩
  case refine_4 =>
    rcases List.mem_cons.1 h with rfl | h
    · cases ready <;> decide +kernel
    · rcases List.mem_cons.1 h with rfl | h
      · cases ready <;> decide +kernel
      · obtain rfl := List.mem_singleton.1 h
        cases ready <;> decide +kernel
  all_goals decide +kernel

theorem test_wit_DirectivesApply :
    (timBlk { tstate := 2 }).directiveFault (st (timBlk { tstate := 2 })).env pm 3 [50] = none ∧
    (timBlk { tstate := 2 }).directiveFault (st (timBlk { tstate := 2 })).env pm 3 [49] ≠ none ∧
    (timBlk { tstate := 2 }).directiveFault (st (timBlk { tstate := 2 })).env pm 2 [1, 1, 1, 1, 1, 1, 1, 1] = none ∧
    (timBlk { tstate := 2 }).directiveFault (st (timBlk { tstate := 2 })).env pm 5 [] = none ∧
    (timBlk { tstate := 2 }).directiveFault (st (timBlk { tstate := 2 })).env { pm with effect := 1 } 1 [0] = none ∧
    (st {}).Up ∧ ({} : Block).directiveFault (st {}).env pm 1 [0] ≠ none ∧
    pm.effect = 0 ∧ (st {}).time.now < ({ pm with effect := 1 } : PowerMsg).effect ∧
    ({ pm with effect := 1 } : PowerMsg).effect ≤ (stAt 1 {}).time.now ∧
    (∃ b s', b = timBlk { waiting := [{ type := 1, vals := [0], seq := 0, effect := 5, expire := 0 }] } ∧
      s' = (st b).scheduled b.tim.effectDue ∧ s'.Up ∧ (firstBy Setting.effect s'.blk.tim.waiting).isSome = true) ∧
    ((st {}).scheduled ({} : Block).tim.effectDue).blk.tim.waiting = [] ∧
    (∀ n ∈ [1, 2, 3, 4], ((st (timBlk { lapses := [{ type := n, vals := [0], seq := 0, effect := 0, expire := 5 }] })).scheduled
      (timBlk { lapses := [{ type := n, vals := [0], seq := 0, effect := 0, expire := 5 }] }).tim.expireDue).blk.tim.lapses.map Setting.type = [n]) ∧
    ((st {}).scheduled ({} : Block).tim.expireDue).blk.tim.lapses = [] ∧ (st live).HostUp := by
  refine ⟨?_, ?_, ?_, ?_, ?_, ?_, ?_, ?_, ?_, ?_, ⟨_, _, rfl, rfl, ?_⟩, ?_⟩ <;> decide +kernel

/-- Asker 0 of partition 0. -/
def ramBlk (m : Memory) : Block := { mem := m }

theorem test_wit_MemoryHoldsWhatIsWritten :
    (st (ramBlk ram)).Up ∧ (ramBlk ram).redirect (st (ramBlk ram)).env asker.req true 63 = .go 63 ∧
    (ramBlk ram).deadSlice 63 = none ∧ (ramBlk ram).accessFault asker.req true 63 = none ∧ (ramBlk ram).guardOf 63 = none ∧
    (∀ x ∈ (ramBlk ram).shc.adds, x.addr / 128 ≠ 63 / 128) ∧ ([1] : List Byte).length ≤ 64 - (63 : Fin (2 ^ 48)).val % 64 ∧
    mget false (ramBlk ram).mem.poison (63 / 64) = false ∧ mget false (ramBlk { ram with poison := [(0, true)] }).mem.poison (63 / 64) = true ∧
    ([1] : List Byte).length ≠ 64 ∧ (List.replicate 64 (1 : Byte)).length = 64 ∧ 64 ≤ 64 - (0 : Fin (2 ^ 48)).val % 64 ∧
    (ramBlk { ram with pranges := [] }).accessFault asker.req true 63 = some 1 ∧
    (ramBlk { ram with pranges := [] }).redirect (st (ramBlk { ram with pranges := [] })).env asker.req true 63 = .go 63 ∧
    (ramBlk { ram with pranges := [] }).deadSlice 63 = none ∧
    (ramBlk ram).redirect (st (ramBlk ram)).env asker.req false ((63 : Fin (2 ^ 48)).val / 64 * 64) = .go 0 ∧
    (ramBlk ram).accessFault asker.req false 0 = none ∧ (ramBlk { ram with pranges := [] }).accessFault asker.req false 0 = some 1 := by
  decide +kernel

/-- Channel 0 of stack 0 in service. -/
def chanBlk (c : MemChannel) (x : Stack) : Block := { boot := { stage := 6 }, mem := { hbm := [(0, x)], chans := [(0, c)] } }

theorem test_wit_ControllersCorrectAndWatch :
    (st (ramBlk ram)).Up ∧ ((ramBlk ram).place (ramBlk ram).mem.scrubAt).isSome = true ∧ ({} : Block).place 0 = none ∧
    mget 0 (ramBlk { ram with pendingWb := [(0, 2)] }).mem.pendingWb 0 = 2 ∧
    refreshState (({} : Block).stack 0).tstate 84 = (({} : Block).stack 0).tstate ∧
    refreshState (({} : Block).stack 0).tstate 85 ≠ (({} : Block).stack 0).tstate ∧
    (∃ b : Block, b = ({} : Block).setStack 0 { tstate := 2, lastThrottleEvt := 1 } ∧ refreshState (b.stack 0).tstate 93 = 2 ∧
      (b.stack 0).lastThrottleEvt = (st b).time.now / 1000000 + 1 ∧
      (b.stack 0).lastThrottleEvt ≠ (stAt 1000000 b).time.now / 1000000 + 1) ∧
    (dueState {} (some ((st {}).slot 1000))).Up ∧ (({} : Block).spanned.map (fun c => (({} : Block).memChan c).served)).sum = 0 ∧
    (dueState {} (some ((st {}).slot 1000000))).Up ∧ ({} : Block).mem.skewedMs < 500 ∧ 500 ≤ (ramBlk { skewedMs := 500 }).mem.skewedMs ∧
    bit (({} : Block).stack 0).insvc 0 = false ∧ bit ((chanBlk {} { insvc := 1 }).stack 0).insvc 0 = true ∧
    bit ((chanBlk {} { insvc := 1 }).stack 0).fenced 0 = false ∧ ((chanBlk {} { insvc := 1 }).stack 0).selfRefresh = false ∧
    ((chanBlk { fails := 1 } { insvc := 1 }).memChan 0).fails < 2 ∧ 2 ≤ ((chanBlk { fails := 2 } { insvc := 1 }).memChan 0).fails ∧
    ({} : Block).clk.pstate ≠ 2 ∧ ({} : Block).clk.ret = none ∧ (mget ({} : Dom) ({} : Block).clk.doms 48).state = 0 ∧
    (mget ({} : Dom) ({} : Block).clk.doms 64).state = 0 ∧ ({ clk := { pstate := 2 } } : Block).clk.pstate = 2 := by
  refine ⟨?_, ?_, ?_, ?_, ?_, ?_, ⟨_, rfl, ?_⟩, ?_⟩ <;> decide +kernel

theorem test_wit_MemoryIsTestedAndPartitioned :
    (st (chanBlk {} {})).HostUp ∧ ((chanBlk { tg := { busy := true } } {}).memChan 0).tg.busy = true ∧
    ((chanBlk {} {}).memChan 0).tg.busy = false ∧ ((chanBlk {} {}).memChan 0).tg.count = 0 ∧
    0 < ((chanBlk { tg := { count := 1 } } {}).memChan 0).tg.count ∧
    ((chanBlk { tg := { count := 25165824 } } {}).memChan 0).tg.count ≤ 25165824 ∧
    25165824 < ((chanBlk { tg := { count := 25165825 } } {}).memChan 0).tg.count ∧ (2 : Fin 4).val ≠ 3 ∧ (4 : Fin 8).val < 5 ∧
    ¬ (∃ p < 8, (chanBlk { tg := { count := 1 } } {}).holdsJob p = true) ∧
    (∃ p < 8, ((chanBlk { tg := { count := 1 } } {}).setGen 7 { regs := { state := 1 } }).holdsJob p = true) ∧
    ((chanBlk { tg := { count := 1 } } {}).setGen 7 { regs := { state := 1 } }).mem.affine = false ∧
    ((chanBlk { tg := { busy := true } } {}).memChan 0).tg.op = 0 ∧ ((chanBlk { tg := { busy := true, op := 1 } } {}).memChan 0).tg.op = 1 ∧
    (ramBlk ram).holdsJob (31 / 4) = false ∧
    ((1 : Fin 65536).val + (1 : Fin 65536).val) * 2 ^ 30 ≤ ((ramBlk ram).slots allStacks).length * (ramBlk ram).usable * 2048 ∧
    (∀ j < 32, j / 4 = 31 / 4 ∨ (mget ({} : PRange) (ramBlk ram).mem.pranges j).size = 0 ∨
      1 + 1 ≤ (mget ({} : PRange) (ramBlk ram).mem.pranges j).base ∨
      (mget ({} : PRange) (ramBlk ram).mem.pranges j).base + (mget ({} : PRange) (ramBlk ram).mem.pranges j).size ≤ 1) ∧
    (chanBlk {} {}).slots allStacks = [] := by
  decide +kernel

/-- A slice's block with a GV4ADD on its way. -/
def addBlk (poison : Bool) : Block := { mem := ram, shc := { adds := [{ addr := 64, operand := 0x3F800000, poison := poison }] } }

theorem test_wit_SlicesStoreAndReduce :
    (st (addBlk false)).Up ∧ Fmt.ofCode 0 = some .fp32 ∧ Fmt.ofCode 31 = none ∧ ({} : Block).shc.adds = [] ∧
    (addBlk false).shc.adds = [{ addr := 64, operand := 0x3F800000, poison := false }] ∧ (addBlk true).shc.adds ≠ [] ∧
    mget false (addBlk false).mem.poison (64 / 64) = false ∧
    (ramBlk ram).redirect (st (ramBlk ram)).env asker.req true 60 = .go 60 ∧ (ramBlk ram).accessFault asker.req true 60 = none ∧
    (ramBlk ram).deadSlice 60 = none ∧ (ramBlk ram).guardOf 60 = none ∧
    (∀ r ∈ [3, 11], ropTakes r .fp32 = true ∧ ropTarget r .fp32 = 4 ∧ 60 % 64 + ropTarget r .fp32 ≤ 64) ∧
    mget false (ramBlk ram).mem.poison (60 / 64) = false := by decide +kernel

theorem test_wit_ExactSumsIgnoreOrder :
    ([(Num.nan, 0, none), (Num.inf true, 0, none)] : List (Sys2Proof.Machine.Num × Int × Option Nat)).Perm [(Num.inf true, 0, none), (Num.nan, 0, none)] ∧
    (∀ r ∈ [0, 5], (acc96Of r).2 = .finite) := by
  exact ⟨List.Perm.swap _ _ _, by decide +kernel⟩

/-- Request (or answer) of requester 0 for partition 0. -/
def req0 : AllocReq := { id := 0, part := 0, forwarded := false }

def allocBlk (x : Allocator) : Block := ({ boot := { stage := 6 } } : Block).setAlloc 0 x

/-- Frame 0 in state `n`, of requester 1 and partition 0. -/
def frameBlk (n : Nat) : Block := { shc := { frames := [(0, { state := n, owner := 1, part := 0 })] } }

theorem test_wit_FramesAreGrantedAndReturned :
    (st (allocBlk {})).Up ∧ (allocBlk {}).chosen ((allocBlk {}).alloc 0) = none ∧
    (allocBlk { pending := [req0] }).chosen ((allocBlk { pending := [req0] }).alloc 0) = some req0 ∧
    (allocBlk { pointer := 1 }).mayGrant 0 (quotaIdx req0.part) = true ∧
    (allocBlk { pointer := 1, fresh := 32768 }).mayGrant 0 (quotaIdx req0.part) = false ∧
    (allocBlk { pending := [{ req0 with forwarded := true }], fresh := 32768 }).chosen
      ((allocBlk { pending := [{ req0 with forwarded := true }], fresh := 32768 }).alloc 0) = some { req0 with forwarded := true } ∧
    ((allocBlk {}).alloc 0).forwardedIn = [] ∧ ((allocBlk { forwardedIn := [req0] }).alloc 0).forwardedIn = [req0] ∧
    ((allocBlk {}).alloc 0).answers = [] ∧
    (∃ r : AllocAnswer, ((allocBlk { answers := [{ id := 0, part := 0, frame := none, stamp := 0 }] }).alloc 0).answers = [r] ∧
      (allocBlk {}).shc.credit ≤ r.stamp ∧ r.stamp < ({ shc := { credit := 1 } } : Block).shc.credit) ∧
    ((frameBlk 1).frame 0).state = 1 ∧ ((frameBlk 1).frame 0).owner = (1 : Fin 65536).val ∧ ((frameBlk 1).frame 0).part = (0 : Fin 16).val ∧
    ((frameBlk 1).frame 0).owner ≠ (2 : Fin 65536).val ∧ (1 : Fin 16).val ≠ (0 : Fin 16).val ∧ (1 : Fin 16).val ≠ 15 ∧
    ((frameBlk 2).frame 0).state = 2 ∧ ((frameBlk 2).frame 0).state ≠ 1 ∧ mget 0 ({} : Block).shc.reclaiming 0 = 0 ∧
    mget 0 ({ shc := { reclaiming := [(0, 3)] } } : Block).shc.reclaiming 0 = 2 + 1 ∧ (st live).HostUp ∧
    ({ live with shc := { live.shc with min := mset 0 live.shc.min 8 65536 } } : Block).quotaFits = true ∧
    ({ live with shc := { live.shc with min := mset 0 [(0, 1)] 8 65536 } } : Block).quotaFits = false := by
  refine ⟨?_, ?_, ?_, ?_, ?_, ?_, ?_, ?_, ?_, ⟨_, rfl, ?_⟩, ?_⟩ <;> decide +kernel

/-- Port 0 as `p`. -/
def portBlk (p : Port) : Block := ({ boot := { stage := 6 } } : Block).setPort 0 p

theorem test_wit_PortsTrain :
    (st (portBlk {})).HostUp ∧ ((portBlk { state := 5 }).port 0).active = true ∧ ((portBlk { state := 5 }).port 0).state = 5 ∧
    (portBlk {}).crosses 35 = true ∧ ((portBlk { state := 1 }).port 0).state = 1 ∧ 2 ≤ laneCount (3 : Fin 16) ∧
    ((portBlk { state := 2 }).port 0).state = 2 ∧ ((portBlk { state := 3 }).port 0).state = 3 ∧ ((portBlk { state := 7 }).port 0).state = 7 ∧
    ((portBlk { state := 2, passes := 1 }).port 0).passes < 2 ∧ 2 ≤ ((portBlk { state := 2, passes := 2 }).port 0).passes ∧
    ((portBlk { state := 8 }).port 0).state = 8 ∧ ((portBlk {}).port 0).upgradeDue = none ∧
    (∃ s', s' = dueState (portBlk { state := 6 }) ((portBlk { state := 6 }).port 0).upgradeDue ∧ s'.Up ∧ (s'.blk.port 0).upgradeDue ≠ none ∧
      s'.time.now = 60000000) ∧
    (∃ b s', b = ({ link := { downAt := [(5, 1)] } } : Block) ∧ s' = dueState b (b.link.lostDue 5) ∧ s'.Up ∧ s'.blk.link.lostDue 5 ≠ none ∧
      (dirPorts 5).any (fun n => (s'.blk.port n).active) = false ∧ s'.time.now = 1000) ∧
    (st {}).Up ∧ ({} : Block).link.lostDue 5 = none := by
  refine ⟨?_, ?_, ?_, ?_, ?_, ?_, ?_, ?_, ?_, ?_, ?_, ?_, ?_, ⟨_, rfl, ?_⟩, ⟨_, _, rfl, rfl, ?_⟩, ?_⟩ <;> decide +kernel

/-- An arriving flit of type `t` and number `seq` whose check is right. -/
def okFlit (t seq : Nat) : Arrival := { ar t with flit := { fl t with seq := seq, ack := 4095 }.sealed }

theorem test_wit_FlitsArriveInOrder :
    (st (portBlk { state := 5 })).Up ∧ ((portBlk { state := 3 }).port 0).state < 4 ∧ 6 < ((portBlk { state := 7 }).port 0).state ∧
    (ar 0).flit.ok = false ∧ ((portBlk { state := 5 }).arrive (st (portBlk { state := 5 })).env 0 (ar 0)).2 = false ∧
    ({ clk := { doms := [(80, { state := 1 })] } } : Block).crosses 0 = false ∧ (portBlk { state := 5 }).crosses 0 = true ∧
    (∃ r, r = (portBlk { state := 5 }).arrive (st (portBlk { state := 5 })).env 0 (okFlit 1 0) ∧ r.2 = true ∧
      (okFlit 1 0).flit.seq = (r.1.port 0).rxSeq ∧ (r.1.port 0).active = true ∧
      findIdxFrom (fun (f : TxFlit) => decide (f.flit.seq = leAt (okFlit 1 0).flit.payload 0 2 % 4096)) 0 (r.1.port 0).replay = none) ∧
    (∃ r, r = (portBlk { state := 5 }).arrive (st (portBlk { state := 5 })).env 0 (okFlit 1 4095) ∧ r.2 = true ∧
      (okFlit 1 4095).flit.seq ≠ (r.1.port 0).rxSeq) ∧
    (∃ r, r = (portBlk { state := 4 }).arrive (st (portBlk { state := 4 })).env 0 (okFlit 4 0) ∧ r.2 = true ∧ (r.1.port 0).state = 4 ∧
      (r.1.port 0).active = false) ∧
    (∀ n ∈ [7, 8], ∀ t ∈ [1, 2], ∃ b r, b = portBlk { state := 5, replay := [{ flit := { fl t with seq := 0 }, tries := n }] } ∧
      r = b.arrive (st b).env 0 (okFlit 3 0) ∧ (r.2 = true ∧ (r.1.port 0).active = true ∧
        ((r.1.port 0).replay.map (fun f => (f.flit.ftype, f.tries)) = [(t, n)] ∧
        findIdxFrom (fun (f : TxFlit) => decide (f.flit.seq = leAt (okFlit 3 0).flit.payload 0 2 % 4096)) 0 (r.1.port 0).replay = some 0))) ∧
    (∃ s', s' = dueState (portBlk { state := 5, nakOpen := true }) ((portBlk { state := 5, nakOpen := true }).port 0).nakDue ∧ s'.Up ∧
      (s'.blk.port 0).nakOpen = true ∧ (s'.blk.port 0).active = true ∧ s'.time.now = 2) ∧
    ((portBlk { state := 5 }).port 0).nakOpen = false := by
  refine ⟨?_, ?_, ?_, ?_, ?_, ?_, ?_, ⟨_, rfl, ?_⟩, ⟨_, rfl, ?_⟩, ⟨_, rfl, ?_⟩, ?_, ⟨_, rfl, ?_⟩, ?_⟩
  case refine_11 =>
    intro n hn t ht
    refine ⟨_, _, rfl, rfl, ?_⟩
    rcases List.mem_cons.1 hn with rfl | hn
    · rcases List.mem_cons.1 ht with rfl | ht
      · decide +kernel
      · obtain rfl := List.mem_singleton.1 ht; decide +kernel
    · obtain rfl := List.mem_singleton.1 hn
      rcases List.mem_cons.1 ht with rfl | ht
      · decide +kernel
      · obtain rfl := List.mem_singleton.1 ht; decide +kernel
  all_goals decide +kernel

/-- Partition 0 with a job, a generational region at 0 for 64 B, and memory. -/
def jobBlk : Block :=
  { mem := ram, gens := [(0, { regs := { state := 2, regions := [(0, { baseA := 0, baseB := 64, len := 64 })] }, job := { devices := [0, 1] } })] }

theorem test_wit_MessagesAreCheckedAndApplied :
    (st jobBlk).Up ∧ ({} : Block).msgCheck (mg 0) = some 1 ∧ jobBlk.msgCheck { mg 0 with epoch := 1 } = some 2 ∧
    jobBlk.msgCheck (mg 0) = none ∧ jobBlk.msgCheck { mg 0 with flags := 2 } = none ∧ ({ mg 0 with flags := 2 } : Msg).ordered = true ∧
    jobBlk.msgCheck (mg 1) = none ∧ (mg 0).ordered = false ∧ jobBlk.writeWaits (st jobBlk).env (portReq 0 0 2) 0 = true ∧
    jobBlk.msgCheck { mg 0 with addr := 128 } = none ∧ jobBlk.writeWaits (st jobBlk).env (portReq 0 0 2) 128 = false ∧
    jobBlk.crosses 36 = true ∧ ({ clk := { doms := [(80, { state := 1 })] } } : Block).crosses 0 = false ∧
    leAt (({ mg 5 with data := [(1, false), (3, false), (7, false), (0, false)] } : Msg).data.map Prod.fst) 0 1 = 1 ∧
    leAt (({ mg 5 with data := [(2, false)] } : Msg).data.map Prod.fst) 0 1 = 2 ∧ leAt ((mg 5).data.map Prod.fst) 0 1 ≠ 1 ∧
    ({ mg 0 with qseq := 1 } : Msg).qseq ≠ mget 0 ({} : Block).msgs.nextSeq ({ mg 0 with qseq := 1 } : Msg).seqKey := by decide +kernel

/-- Two devices on an X axis. -/
def pairTopo : Topology := { self := 0, sx := 2, coords := [(0, 1), (1, 2)] }

/-- A block of operation `op` over X: two FP32 elements. -/
def collBlk (op : Nat) : CollBlock :=
  { op := op, mode := 2, dims := [0, 3, 3], flags := 0, expSlot := 0, fmtIn := 0, fmtOut := 0, rop := 0, queue := 0, peer := 0, elems := 2, src := 0
    dst := 0, scratch := 0, signal := 0, signalEn := false, reserved := false, sig := 0 }

/-- Command 1 of queue 0 with that block; `queued` or else active on CE0 as COLL_SEQ 0. -/
def collState (op : Nat) (queued : Bool) : Block :=
  { jobBlk with
    topo := pairTopo
    coll := {
      cmds := [{ queue := 0, seq := 1, part := 0, block := collBlk op }]
      engines := [(0, if queued then { queued := [(0, [{ queue := 0, seq := 1 }])] }
        else { active := [(0, [{ queue := 0, seq := 1, num := some 0 }])] })] } }

theorem test_wit_CollectivesSplitAndStart :
    (st {}).Up ∧ ({} : Block).activeColl 0 = none ∧
    ((({} : Block).setQueue 0 (busyQueue 40 5 .executing)).activeColl 0).isSome = true ∧
    (({} : Block).setQueue 0 (busyQueue 40 5 .executing)).collCmd 0 1 = none ∧
    (((collState 1 true).setQueue 0 (busyQueue 40 5 .executing)).collCmd 0 1).isSome = true ∧
    mget [] (({} : Block).ce 0).queued 0 = [] ∧
    mget [] ((collState 1 true).ce 0).queued 0 = [{ queue := 0, seq := 1 }] ∧ mget [] ((collState 1 true).ce 0).active 0 = [] ∧
    ((collState 1 true).collCmd 0 1).map (fun c => c.block.fault (collState 1 true).topo ((collState 1 true).gen 0).job.devices) = some none ∧
    (({ collState 1 true with topo := { pairTopo with coords := [(0, 1), (2, 2)] } } : Block).collCmd 0 1).map (fun c =>
      c.block.fault { pairTopo with coords := [(0, 1), (2, 2)] } ((collState 1 true).gen 0).job.devices) = some (some 4) ∧
    ({ kind := 0, idx := 0, dim := 0, s := 2, c := 1, n := 1 } : CollStep).c < 2 := by decide +kernel

/-- A segment for COLL_SEQ `num`: its header and `n` data bytes. -/
def segMsg (mtype kind num seg n : Nat) : Msg :=
  { mg mtype with data := (leBytes 4 num ++ zeros 6 ++ [BitVec.ofNat 8 kind, 0] ++ leBytes 4 seg ++ zeros 4 ++ leBytes 4 (n / 4) ++ zeros 8
    ++ zeros n).map (fun x => (x, false)) }

theorem test_wit_CollectivesExchange :
    (st (collState 1 false)).Up ∧ ({} : Block).partsWithOp 0 0 5 = [] ∧
    (collState 5 false).partsWithOp 0 0 5 = [{ queue := 0, seq := 1, num := some 0 }] ∧
    ((collState 5 false).collCmd 0 1).map CollCmd.finished = some false ∧
    (collState 6 false).partsWithOp 0 0 6 = [{ queue := 0, seq := 1, num := some 0 }] ∧ ({} : Block).partsWithOp 0 0 6 = [] ∧
    rxAvail (mget [] (collState 6 false).msgs.queues 0) < (collBlk 6).fin.offsetOf (collBlk 6).elems ∧
    (collBlk 6).fin.offsetOf (collBlk 6).elems ≤ rxAvail [{ frames := [0], len := 8, taken := 0 }] ∧
    ({ collState 6 false with gens := [] } : Block).writeWaits (st {}).env (ceReq { collState 6 false with gens := [] } 0 0 0) 0 = false ∧
    ({} : Block).collStale (segMsg 3 0 0 1 4) = true ∧ (collState 1 false).collStale (segMsg 3 0 0 1 4) = false ∧
    (Segment.ofMsg (segMsg 3 0 0 1 4)).kind = 0 ∧ (Segment.ofMsg (segMsg 3 1 0 1 0)).kind = 1 ∧
    (collState 1 false).partByNum 0 0 (Segment.ofMsg (segMsg 3 0 5 1 4)).num = none ∧
    ((collState 1 false).partByNum 0 0 (Segment.ofMsg (segMsg 3 0 0 1 4)).num).isSome = true ∧
    (collBlk 1).sig = (Segment.ofMsg (segMsg 3 0 0 1 4)).sig ∧
    (collBlk 1).stepOf pairTopo 0 (Segment.ofMsg (segMsg 3 0 0 1 4)) true ≠ none ∧
    (collBlk 1).stepOf pairTopo 0 (Segment.ofMsg (segMsg 3 0 0 1 0)) true = none ∧
    ((collBlk 1).stepOf pairTopo 0 (Segment.ofMsg (segMsg 3 1 0 1 0)) false).map (fun x => x.2.kind) = some 1 ∧
    (collBlk 1).stepOf pairTopo 2 (Segment.ofMsg (segMsg 3 1 0 1 0)) false = none := by decide +kernel

/-- Queue 0 as `x` in a live block, with host memory `host` and partition 0 on plate 0. -/
def queueBlk (x : Queue) (host : SMap Byte) : Block :=
  ({ boot := { stage := 6 }, host := host, fe := { parts := [(0, { valid := true })] } } : Block).setQueue 0 x

theorem test_wit_QueuesAcceptAndBind :
    (st {}).Up ∧ ({} : Block).reachesQueue 0 0 = false ∧ (queueBlk {} []).reachesQueue 8 255 = false ∧
    (st (queueBlk {} [])).Up ∧ (queueBlk {} []).reachesQueue 0 255 = true ∧ (queueBlk { part := 7 } []).reachesQueue 8 0 = true ∧
    ((queueBlk { job := true } []).queue 0).job = true ∧ ((queueBlk {} []).queue 0).submitted ≤ (64 : Fin (2 ^ 64)).val ∧
    (64 : Fin (2 ^ 64)).val ≤ ((queueBlk {} []).queue 0).completed + 64 * 2 ^ ((queueBlk {} []).queue 0).size ∧
    ((queueBlk {} []).queue 0).completed + 64 * 2 ^ ((queueBlk {} []).queue 0).size < (65 : Fin (2 ^ 64)).val ∧
    (0 : Fin (2 ^ 64)).val < ((queueBlk { submitted := 1 } []).queue 0).submitted ∧ ((queueBlk {} []).queue 0).enable = false ∧
    (queueBlk {} []).mayBind ((queueBlk {} []).queue 0).engine ((queueBlk {} []).queue 0).part = false ∧
    (queueBlk { part := 0 } []).mayBind 0 0 = true ∧ ((queueBlk { enable := true, submitted := 1 } []).queue 0).enable = true ∧
    ((queueBlk { enable := true, submitted := 1 } []).queue 0).completed < ((queueBlk { enable := true, submitted := 1 } []).queue 0).submitted ∧
    ((queueBlk { enable := true } []).queue 0).submitted ≤ ((queueBlk { enable := true } []).queue 0).completed := by decide +kernel

/-- The block as CommandStart finds it once queue 0 has fetched. -/
def fetched (x : Queue) (host : SMap Byte) : Block :=
  ((queueBlk x host).wakeEngine (st (queueBlk x host)).env x.engine).fetchNext (st (queueBlk x host)).env 0

/-- A queue in host memory with one descriptor waiting. -/
def ringQueue : Queue := { enable := true, part := 0, engine := 8, submitted := 1, host := true }

/-- A queue whose command with descriptor `d` is at its edges. -/
def edgeQueue (d : Desc) (stepList : Bool) : Queue :=
  { enable := true, part := 0, engine := 8, submitted := 1
    running := [{ seq := 1, desc := d, phase := .edge, due := 0, lock := none, gens := [], part := 0, stepList := stepList }] }

/-- The first command of queue 0 that has not started. -/
def upOf (b : Block) : Option Running := nextUp (b.queue 0).running

/-- A command that depends on command 1 of queue 1. -/
def depQueue : Queue := edgeQueue { runDesc 0 with deps := [(1, 1)] } false

def depBlk (y : Queue) : Block := (fetched depQueue []).setQueue 1 y

theorem test_wit_CommandsStartInOrder :
    (st (queueBlk {} [])).Up ∧ ((queueBlk {} []).queue 0).enable = false ∧ upOf (fetched { enable := true, part := 0, engine := 8 } []) = none ∧
    ((queueBlk ringQueue []).queue 0).enable = true ∧ (queueBlk ringQueue []).clk.pstate ≠ 2 ∧ (queueBlk ringQueue []).clk.ret = none ∧
    mget none (queueBlk ringQueue []).clk.parts 0 = none ∧ (upOf (fetched ringQueue [])).isSome = true ∧
    ((upOf (fetched ringQueue [])).map (fun r => (fetched ringQueue []).gatePassed (st (queueBlk ringQueue [])).env ringQueue r)) = some true ∧
    ((upOf (fetched ringQueue [])).map (fun r => (fetched ringQueue []).cmdFault 0 ringQueue r)) = some none ∧
    ((upOf (fetched { edgeQueue (runDesc 0) true with gateAt := 9 } [])).map (fun r =>
      (fetched { edgeQueue (runDesc 0) true with gateAt := 9 } []).gatePassed (st {}).env { edgeQueue (runDesc 0) true with gateAt := 9 } r)) = some false ∧
    ((upOf (fetched (edgeQueue (runDesc 8) false) [])).map (fun r =>
      ((fetched (edgeQueue (runDesc 8) false) []).cmdFault 0 (edgeQueue (runDesc 8) false) r).isSome)) = some true ∧
    (∀ y ∈ [({ part := 0, enable := true } : Queue), { part := 0, enable := true, abndSeqs := [(1, 1)] }, { part := 0, enable := true, completed := 1 }],
      (upOf (depBlk y)).map (fun r => (depBlk y).cmdFault 0 depQueue r) = some none ∧
      (upOf (depBlk y)).map (fun r => (depBlk y).gatePassed (st {}).env depQueue r) = some true ∧
      ((depBlk y).queue 1).wasAbandoned 1 = decide (y.abndSeqs = [(1, 1)]) ∧
      ((depBlk y).queue 1).satisfies 1 = decide (y.completed = 1)) ∧
    (∃ d : Desc, d = { runDesc 0 with waitSo := 0x8000, waitVal := 1 } ∧ d.waitEn = true ∧ d.acq = false ∧
      (({} : Block).obj d.waitObj).val < d.waitVal ∧ d.waitVal ≤ ((({} : Block).setObj 0 { val := 1 }).obj d.waitObj).val) ∧
    (runDesc 0).waitEn = false ∧ (queueBlk ringQueue []).needsCopy (cmdRun 0 .edge) = false ∧
    ((queueBlk ringQueue []).engine ((queueBlk ringQueue []).queue 0).engine).serving = none ∧ (runDesc 0).opc ≠ 3 ∧
    ((queueBlk {} []).queue 0).submitted < ((queueBlk {} []).queue 0).completed + ((queueBlk {} []).queue 0).running.length + 1 ∧
    ringNext ((queueBlk ringQueue []).queue 0).running = true ∧ ((queueBlk ringQueue []).queue 0).host = true ∧
    ((queueBlk ringQueue []).queue 0).completed + ((queueBlk ringQueue []).queue 0).running.length < ((queueBlk ringQueue []).queue 0).submitted := by
  refine ⟨?_, ?_, ?_, ?_, ?_, ?_, ?_, ?_, ?_, ?_, ?_, ?_, ?_, ⟨_, rfl, ?_⟩, ?_⟩ <;> decide +kernel

/-- Queue 0 of engine `eng` with a command of code `opc` that executes. -/
def execBlk (eng opc : Nat) : Block := queueBlk (busyQueue eng opc .executing) []

theorem test_wit_CommandsRetireAndComplete :
    (st (execBlk 8 0)).Up ∧ ({} : Block).activeOpc 0 0 = none ∧ ((execBlk 8 0).activeOpc 0 0).isSome = true ∧
    ((execBlk 8 6).activeOpc 0 6).isSome = true ∧ ((execBlk 0 3).activeOpc 0 3).isSome = true ∧
    (((execBlk 0 3).setImage 0 { runCmd := some 0 }).image 0).runCmd ≠ none ∧ ((execBlk 0 3).image 0).loaded = false ∧
    (((execBlk 0 3).setImage 0 { loaded := true, commands := 1 }).image 0).runCmd = none ∧
    (runDesc 3).imm < (((execBlk 0 3).setImage 0 { loaded := true, commands := 1 }).image 0).commands ∧
    ({} : Block).completing 0 = none ∧ ((queueBlk (busyQueue 8 0 .retired) []).completing 0).isSome = true ∧
    (({} : Block).queue 0).running = [] ∧ ((queueBlk (busyQueue 8 0 .finished) []).queue 0).running = [cmdRun 0 .finished] ∧
    ((queueBlk (busyQueue 8 0 .abandoned) []).queue 0).running = [cmdRun 0 .abandoned] ∧ (cmdRun 0 .retired).phase ≠ .finished := by
  decide +kernel

/-- Queue 0 of a DMA engine that serves it, with a DMA block `bs` in host memory. -/
def dmaBlk (bs : List Byte) : Block :=
  ({ jobBlk with
    host := putBytes [] 0 bs
    fe := { parts := [(0, { valid := true })] } } : Block).setQueue 0
    { busyQueue 8 4 .executing with host := true } |>.setEngine 8 { serving := some 0 }

/-- A DMA block: kind, destination, length. -/
def dmaBytes (kind dst len : Nat) : List Byte := leBytes 8 kind ++ zeros 8 ++ leBytes 8 dst ++ leBytes 8 len ++ zeros 32

/-- What DMA finds of that block. -/
def dmaFound (bs : List Byte) : Option DmaBlock := ((dmaBlk bs).dmaOpen (st (dmaBlk bs)).env 0 (cmdRun 4 .executing)).2.map Prod.snd

theorem test_wit_DmaMovesBytes :
    (st (dmaBlk [])).Up ∧ ({} : Block).servedDma 0 = none ∧ (dmaBlk []).servedDma 0 = some (cmdRun 4 .executing) ∧ dmaFound [] = none ∧
    (dmaFound (dmaBytes 0 128 64)).map (fun k => k.kind) = some 0 ∧ (dmaFound (dmaBytes 1 128 64)).map (fun k => k.kind) = some 1 ∧
    (dmaFound (dmaBytes 1 128 64)).map (fun k => (dmaBlk (dmaBytes 1 128 64)).dmaWaits (st (dmaBlk [])).env 0 (cmdRun 4 .executing) k) = some false ∧
    (∃ b k, b = (dmaBlk (dmaBytes 1 0 64)).setQueue 0 { busyQueue 8 4 .executing with host := true, job := true } ∧
      ((b.dmaOpen (st b).env 0 (cmdRun 4 .executing)).2.map Prod.snd = some k ∧ k.kind = 1 ∧
        b.dmaWaits (st b).env 0 (cmdRun 4 .executing) { k with dstClass := 2 } = true)) ∧
    (dmaBlk []).printPart { DmaBlock.ofBytes (dmaBytes 2 128 64) with jobId := 0 } 0 = some 0 ∧
    2 < (DmaBlock.ofBytes (dmaBytes 3 0 1)).kind ∧ (DmaBlock.ofBytes (dmaBytes 0 0 0)).len = 0 ∧
    2 ^ 40 < (DmaBlock.ofBytes (dmaBytes 0 0 (2 ^ 40 + 1))).len := by
  refine ⟨?_, ?_, ?_, ?_, ?_, ?_, ?_, ⟨_, _, rfl, rfl, ?_⟩, ?_⟩ <;> decide +kernel

/-- A section entry: offset, length, count. -/
def secEntry (off len count : Nat) : List Byte := leBytes 4 off ++ leBytes 4 len ++ leBytes 4 count ++ zeros 4

/-- A program image of one fused command and no region. -/
def emptyImage : List Byte :=
  leBytes 4 0x50474D31 ++ [1, 0, 1, 0, 1, 0, 0, 0] ++ zeros 20 ++
    (([(256, 0), (256, 0), (256, 0), (256, 8), (320, 0), (320, 0), (320, 64), (384, 0), (384, 0)] : List (Nat × Nat)).flatMap
      (fun x => secEntry x.1 x.2 0)) ++ zeros 80 ++ zeros 128

/-- A job image for device `dev` (R317): that program image, one step list of one DMA descriptor marked GEN_DONE, and `relocs`. -/
def contBytes (dev crc : Nat) (relocs : List Nat) : List Byte :=
  leBytes 4 0x4A494D47 ++ [1, 0, 0, 0, 1, 0, 0, 0] ++ leBytes 4 (832 + 8 * relocs.length) ++ leBytes 4 crc ++ zeros 12 ++
    secEntry 256 2 1 ++ zeros 16 ++ secEntry 320 0 0 ++ zeros 16 ++ secEntry 320 0 0 ++ secEntry 320 0 0 ++ secEntry 320 384 0 ++
    secEntry 704 80 1 ++ secEntry 832 (8 * relocs.length) relocs.length ++ zeros 80 ++
    leBytes 2 dev ++ zeros 62 ++ emptyImage ++ [1, 8, 0, 0] ++ leBytes 4 1 ++ zeros 8 ++ ([4, 0x40] ++ zeros 62) ++ zeros 48
    ++ relocs.flatMap (leBytes 8)

/-- Bytes as a sparse map from address `a` on. -/
def hostOf (a : Nat) : List Byte → SMap Byte
  | [] => []
  | x :: xs => if x = 0 then hostOf (a + 1) xs else (a, x) :: hostOf (a + 1) xs

/-- One bit of CRC-32C, in the operations that the kernel evaluates fast. -/
def crcBitFast (c : Nat) : Nat := Nat.xor (Nat.shiftRight c 1) (Nat.mul 0x82F63B78 (Nat.mod c 2))

theorem crcBit_fast (c : Nat) : crcBit 0x82F63B78 c = crcBitFast c := by
  have h2 : ∀ a b : Nat, Nat.xor a b = a ^^^ b := fun _ _ => rfl
  have h3 : Nat.shiftRight c 1 = c >>> 1 := rfl
  unfold crcBit crcBitFast
  rw [h2, h3]
  show _ = c >>> 1 ^^^ 0x82F63B78 * (c % 2)
  rcases Nat.mod_two_eq_zero_or_one c with h | h <;> simp [h]

/-- CRC-32C's running value, forced at every byte. -/
def crcFast (s : Nat) : List Byte → Nat
  | [] => s
  | x :: xs =>
    match crcBitFast (crcBitFast (crcBitFast (crcBitFast (crcBitFast (crcBitFast (crcBitFast (crcBitFast (Nat.xor s x.toNat)))))))) with
    | 0 => crcFast 0 xs
    | n + 1 => crcFast (n + 1) xs

theorem crcFast_eq (s : Nat) (bs : List Byte) : bs.foldl (crcByte 0x82F63B78) s = crcFast s bs := by
  induction bs generalizing s with
  | nil => rfl
  | cons x xs ih =>
    have hx : crcByte 0x82F63B78 s x =
        crcBitFast (crcBitFast (crcBitFast (crcBitFast (crcBitFast (crcBitFast (crcBitFast (crcBitFast (Nat.xor s x.toNat)))))))) := by
      simp only [crcByte, crcBit_fast]; rfl
    rw [List.foldl_cons, ih, hx, crcFast]
    split
    · rename_i h; rw [h]
    · rename_i h; rw [h]

/-- A LOAD of `len` bytes at host address 64 into partition 0, its block at host address 0. -/
def loadBlk (image : List Byte) : Block :=
  (({ boot := { stage := 6 }, mem := { hbm := [(0, { insvc := 1 })], affine := true }, topo := pairTopo, fe := { parts := [(0, { valid := true })] }
      host := hostOf 0 (leBytes 7 64 ++ [0x80] ++ leBytes 4 image.length ++ zeros 52 ++ image) } : Block).setQueue 0
    { busyQueue 46 1 .executing with host := true }).setQueue 1 { part := 0, host := true }

/-- What LOAD reads: its block, and the container. -/
def loadArg (image : List Byte) : Block × LoadBlock :=
  let a := (loadBlk image).readArg (st (loadBlk image)).env (engineReq 46) ((loadBlk image).queue 0) (cmdRun 1 .executing) 64
  (a.1, LoadBlock.ofBytes a.2)

def loadRaw (image : List Byte) : Container :=
  { bytes := ((loadArg image).1.takeHost false (loadArg image).2.image (loadArg image).2.len).2.map Prod.fst }

/-- The block in which LOAD has placed the container. -/
def loadPlaced (image : List Byte) : Block :=
  (((loadArg image).1.takeHost false (loadArg image).2.image (loadArg image).2.len).1.releaseJob 0).writeMem (st (loadBlk image)).env
    { id := engineReq 46, part := 0, own := true } false 0 (clean ((loadRaw image).relocate (loadArg image).2).bytes)

/-- A container that loads, and one with a reserved bit in a relocation. -/
def goodImage : List Byte := contBytes 0 1246135095 []
def badReloc : List Byte := contBytes 0 3193717856 [2 ^ 33]

theorem crc32c_fast (bs : List Byte) : crc32c bs = Nat.xor (crcFast 0xFFFFFFFF bs) 0xFFFFFFFF := by
  unfold crc32c
  rw [crcFast_eq]; rfl

theorem headerFault_fast (c : Container) (r : Option Nat)
    (h : c.headerWith (Nat.xor (crcFast 0xFFFFFFFF (overlay c.bytes 16 (zeros 4))) 0xFFFFFFFF) = r) : c.headerFault = r := by
  unfold Container.headerFault
  rw [crc32c_fast, h]

theorem test_wit_load_header : (loadRaw goodImage).headerFault = none ∧ (loadRaw goodImage).relocsOk = true :=
  ⟨headerFault_fast _ _ (by decide +kernel), by decide +kernel⟩

theorem test_wit_load_relocs : (loadRaw badReloc).headerFault = none ∧ (loadRaw badReloc).relocsOk = false :=
  ⟨headerFault_fast _ _ (by decide +kernel), by decide +kernel⟩

theorem test_wit_load_accepted :
    (loadPlaced goodImage).containerFault 0 0 ((loadRaw goodImage).relocate (loadArg goodImage).2) = none := by decide +kernel

theorem test_wit_JobsAreLoadedAndUnloaded :
    (st (loadBlk [])).Up ∧ ({} : Block).activeOpc 0 1 = none ∧ (loadBlk []).activeOpc 0 1 = some (cmdRun 1 .executing) ∧
    (loadArg []).1.loadBlockFault (loadArg []).2 0 = some (7, 8) ∧
    (loadArg (zeros 256)).1.loadBlockFault (loadArg (zeros 256)).2 0 = none ∧ (loadRaw (zeros 256)).headerFault = some 0 ∧
    (({ loadBlk (zeros 256) with hostPoison := [(64, true)] } : Block).takeHost false 64 256).2.any Prod.snd = true ∧
    ((loadArg (zeros 256)).1.takeHost false 64 256).2.any Prod.snd = false ∧
    (loadArg goodImage).1.loadBlockFault (loadArg goodImage).2 0 = none ∧ (loadArg badReloc).1.loadBlockFault (loadArg badReloc).2 0 = none ∧
    (loadPlaced (contBytes 5 1441547980 [])).containerFault 0 0
      ((loadRaw (contBytes 5 1441547980 [])).relocate (loadArg (contBytes 5 1441547980 [])).2) = some (7, 256) ∧
    8 ≤ ({ (loadArg []).2 with part := 8 } : LoadBlock).part ∧ ({} : Block).activeOpc 0 2 = none ∧
    ((execBlk 46 2).activeOpc 0 2).isSome = true ∧ (∀ p < 8, ((execBlk 46 2).gen p).regs.state = 0) ∧
    (((execBlk 46 2).setGen 0 { regs := { state := 7 } }).gen 0).regs.state ≠ 0 ∧ (cmdRun 2 .executing).part = 0 := by
  refine ⟨?_, ?_, ?_, ?_, ?_, ?_, ?_, ?_, ?_, ?_, ?_, ?_⟩ <;> decide +kernel

/-- Queue 0 on the management engine, with a management block in host memory: operation, argument, lengths. -/
def mgmtBlk (op arg len dstLen : Nat) : Block :=
  ({ boot := { stage := 6, verified := [(0, some {})] }
     host := hostOf 0 ([BitVec.ofNat 8 op, BitVec.ofNat 8 arg] ++ zeros 14 ++ leBytes 4 len ++ leBytes 4 dstLen) } : Block).setQueue 0
    { busyQueue 47 7 .executing with host := true, part := 15 }

/-- The operation that a management command finds. -/
def mgmtFound (op arg len dstLen : Nat) : Option MgmtBlock :=
  ((mgmtBlk op arg len dstLen).mgmtOpen (st (mgmtBlk op arg len dstLen)).env 0 (cmdRun 7 .executing)).2

theorem test_wit_ManagementCommandsAct :
    (st (mgmtBlk 0 0 0 0)).Up ∧ ({} : Block).activeOpc 0 7 = none ∧ (mgmtBlk 0 0 0 0).activeOpc 0 7 = some (cmdRun 7 .executing) ∧
    mgmtFound 6 0 0 0 = none ∧ (mgmtFound 0 0 0 256).map MgmtBlock.op = some 0 ∧
    (mgmtFound 1 0xFF 0 0).map (fun k => (k.op, k.arg)) = some (1, 0xFF) ∧ (mgmtFound 1 0 0 0).map (fun k => (k.op, k.arg)) = some (1, 0) ∧
    (mgmtFound 2 4 0 0).map MgmtBlock.op = some 2 ∧ (mgmtFound 3 0 0 0).map MgmtBlock.op = some 3 ∧
    (mgmtFound 5 2 48 0).map MgmtBlock.op = some 5 ∧
    5 < ({ MgmtBlock.ofBytes [] with op := 6 } : MgmtBlock).op ∧
    (match (({} : Block).boot.flash.take 1 []) with | .error _ => true | .ok _ => false) = true := by
  decide +kernel

/-- MEASURE: its operation is found whenever the destination holds the measurements, whose length the spec leaves to DSP0274. -/
theorem test_wit_MeasureIsFound (k : MgmtBlock) (b : Block) (h : (b.mgmtOutput (st b).env k).length ≤ k.dstLen) (hk : k.op = 4) (ha : k.arg = 0)
    (hl : k.low = 0) (h1 : k.srcHigh = 0) (h2 : k.dstHigh = 0) (hn : k.len ≤ 2 ^ 24) : b.mgmtFault (st b).env 0 1 k = none := by
  unfold Block.mgmtFault MgmtBlock.argOk
  simp [hk, ha, hl, h1, h2, Nat.not_lt.2 h] <;> exact hn

/-- Queue 0 of engine 8 with a command due at `due`. -/
def dueBlk (due : Nat) : Block := ({} : Block).setQueue 0 { busyQueue 8 4 .executing with running := [{ cmdRun 4 .executing with due := due }] }

/-- Engine `en` serving queue 0, with queue 1 beside it, up to `t`. -/
def servedBlk (en t : Nat) (x y : Queue) : Block :=
  ((({ fe := { parts := [(0, { valid := true })] } } : Block).setQueue 0 x).setQueue 1 y).setEngine en { serving := some 0, sliceEnd := t }

theorem test_wit_DeadlinesAndSlices :
    ((st {}).scheduled (({} : Block).deadlineDue 0)).Up ∧ (({} : Block).queue 0).firstDue = none ∧
    (∃ s' r, s' = (st (dueBlk 5)).scheduled ((dueBlk 5).deadlineDue 0) ∧ (s'.blk.queue 0).firstDue = some r ∧
      (s'.Up ∧ s'.blk.deadlinesRun (s'.blk.queue 0) = true ∧ r.due ≤ s'.time.now)) ∧
    (∃ s', s' = (st ({ dueBlk 5 with clk := { pstate := 2 } } : Block)).scheduled (({ dueBlk 5 with clk := { pstate := 2 } } : Block).deadlineDue 0) ∧
      s'.Up ∧ s'.blk.deadlinesRun (s'.blk.queue 0) = false) ∧
    ((st {}).eventAt (({} : Block).hangDue 0)).Up ∧ ({} : Block).hangDue 0 = none ∧
    (∃ b s', b = ({ clk := { parts := [(0, some { trigger := 3, since := 0 })] } } : Block) ∧ s' = (st b).eventAt (b.hangDue 0) ∧
      s'.Up ∧ s'.blk.hangDue 0 = some 10000 ∧ 10000 ≤ s'.time.now) ∧
    (∃ b s', b = servedBlk 8 7 (busyQueue 8 4 .executing) {} ∧ s' = (st b).scheduled (b.sliceDue 8) ∧ s'.Up ∧
      ((s'.blk.wakeEngine s'.env 8).engine 8).serving = some 0 ∧ ((s'.blk.wakeEngine s'.env 8).engine 8).sliceOver = false ∧
      ((s'.blk.wakeEngine s'.env 8).engine 8).sliceEnd ≤ s'.time.now ∧ (s'.blk.wakeEngine s'.env 8).nextServed 8 0 = none) ∧
    (∃ b s', b = servedBlk 8 7 (busyQueue 8 4 .executing) (busyQueue 8 4 .executing) ∧ s' = (st b).scheduled (b.sliceDue 8) ∧ s'.Up ∧
      ((s'.blk.wakeEngine s'.env 8).engine 8).serving = some 0 ∧ (s'.blk.wakeEngine s'.env 8).nextServed 8 0 = some 1) ∧
    (∃ b s', b = servedBlk 0 7 (busyQueue 0 3 .executing) {} ∧ s' = (st b).scheduled (b.sliceDue 0) ∧ s'.Up ∧
      ((s'.blk.wakeEngine s'.env 0).engine 0).serving = some 0 ∧ (s'.blk.wakeEngine s'.env 0).rivals 0 0 = []) ∧
    (∃ b s', b = servedBlk 0 7 (busyQueue 0 3 .executing) { busyQueue 0 3 .edge with state := 5 } ∧ s' = (st b).scheduled (b.sliceDue 0) ∧ s'.Up ∧
      (s'.blk.wakeEngine s'.env 0).rivals 0 0 ≠ [] ∧ ((s'.blk.wakeEngine s'.env 0).engine 0).suspended = none ∧
      ((s'.blk.wakeEngine s'.env 0).queue 0).part < 8) := by
  refine ⟨?_, ?_, ⟨_, _, rfl, rfl, ?_⟩, ⟨_, rfl, ?_⟩, ?_, ?_, ⟨_, _, rfl, rfl, ?_⟩, ⟨_, _, rfl, rfl, ?_⟩, ⟨_, _, rfl, rfl, ?_⟩, ⟨_, _, rfl, rfl, ?_⟩,
    ⟨_, _, rfl, rfl, ?_⟩⟩ <;> decide +kernel

/-- Sync object 8191 as `o`. -/
def objBlk (o : SyncObj) : Block := live.setObj 8191 o

theorem test_wit_SyncObjectsUpdate :
    (st live).HostUp ∧ ((objBlk {}).obj 8191).reach (funcPart 8) = false ∧ ((objBlk {}).obj 8191).reach (funcPart 0) = true ∧
    ((objBlk { part := 7 }).obj 8191).reach (funcPart 8) = true ∧ ((objBlk {}).obj 8191).mode = 0 ∧
    ((objBlk { mode := 1, state := 1, holder := funcReq 0, holderPart := funcPart 0 }).obj 8191).holder = funcReq 0 ∧
    ((objBlk { mode := 1, state := 1, holder := funcReq 0, holderPart := funcPart 0 }).obj 8191).holderPart = funcPart 0 ∧
    ((objBlk { mode := 1, state := 0 }).obj 8191).state ≠ 1 ∧ ((objBlk { mode := 1, state := 2 }).obj 8191).state = 2 ∧
    ((objBlk { mode := 2 }).setObj 8191 { mode := 2 }).slotOf 8191 = none ∧
    (({ objBlk { mode := 2 } with syn := { (objBlk { mode := 2 }).syn with slots := [(63, { valid := true, obj := 8191, len := 1 })] } } : Block).slotOf 8191)
      = some 63 ∧
    (3 : Fin 4).val = 3 ∧ (0 : Fin 4).val = ((objBlk {}).obj 8191).mode ∧ (1 : Fin 4).val ≠ ((objBlk {}).obj 8191).mode ∧
    ((objBlk { mode := 1, state := 1 }).obj 8191).state ≠ 0 ∧ (live.slot 63).part ≠ funcPart 8 ∧
    live.slotOk (funcPart 0) 63 { base := 0, part := 15, len := 1, valid := true, obj := 0 } = true ∧
    live.slotOk (funcPart 0) 63 { base := 0, part := 15, len := 65, valid := true, obj := 0 } = false ∧
    live.slotOk (funcPart 0) 63 { base := 0, part := 15, len := 64, valid := true, obj := 0 } = true := by decide +kernel

/-- Ring 0 as `r`. -/
def ringBlk (r : Ring) : Block := live.setRing 0 r

theorem test_wit_EventRingsTurn :
    (st (ringBlk {})).Up ∧ (ringBlk {}).reachesRing 1 0 = false ∧ (ringBlk {}).reachesRing 0 35 = true ∧ (ringBlk {}).reachesRing 8 35 = true ∧
    (5 + 2 ^ 32 - 3) % 2 ^ 32 ≤ (((mget ({} : Ring) (ringBlk { prod := 5 }).evt.rings 0).prod) + 2 ^ 32 - 0) % 2 ^ 32 ∧
    ((mget ({} : Ring) (ringBlk {}).evt.rings 0).prod + 2 ^ 32 - 0) % 2 ^ 32 < ((mget ({} : Ring) (ringBlk {}).evt.rings 0).prod + 2 ^ 32 - 1) % 2 ^ 32 ∧
    (mget ({} : Ring) (ringBlk { prod := 5, gapCount := 1 }).evt.rings 0).gapCount ≠ 0 ∧
    (5 + 2 ^ 32 - 3) % 2 ^ 32 ≠ (mget ({} : Ring) (ringBlk { prod := 5, gapCount := 1 }).evt.rings 0).cap ∧
    (mget ({} : Ring) (ringBlk { enable := true }).evt.rings 0).enable = true ∧ (mget ({} : Ring) (ringBlk {}).evt.rings 0).enable = false ∧
    (ringBlk {}).evt.pf0Enabled = false ∧ (live.setRing 1 { enable := true }).evt.pf0Enabled = true ∧
    ((st (ringBlk {})).eventAt ((ringBlk {}).modDue 0)).Up ∧ (mget ({} : Ring) (ringBlk {}).evt.rings 0).firePending = false ∧
    (∃ s', s' = (st (ringBlk { firePending := true, fireAt := 9 })).eventAt ((ringBlk { firePending := true, fireAt := 9 }).modDue 0) ∧ s'.Up ∧
      (mget ({} : Ring) s'.blk.evt.rings 0).firePending = true ∧ (mget ({} : Ring) s'.blk.evt.rings 0).fireAt ≤ s'.time.now) ∧
    (mget ({} : Msix) ({} : Block).evt.msix (msixKey (0 / 4) 0)).masked = true := by
  refine ⟨?_, ?_, ?_, ?_, ?_, ?_, ?_, ?_, ?_, ?_, ?_, ?_, ?_, ?_, ⟨_, rfl, ?_⟩, ?_⟩ <;> decide +kernel

theorem test_wit_HostReachesMemory :
    (st {}).Up ∧ ({} : Block).barUp = false ∧ live.barUp = true ∧ (8 : Fin 9).val ≠ 0 ∧
    (live.setGen 0 { regs := { state := 1 } }).holdsJob 0 = true ∧ live.holdsJob 0 = false ∧ live.commandActive 0 = false ∧
    live.partOverlaps 0 { valid := true, first := 0, size := 3 } = false ∧ (0 : Fin 16).val % 2 ^ (3 : Fin 4).val = 0 ∧
    (0 : Fin 16).val + 2 ^ (3 : Fin 4).val ≤ 8 ∧ (1 : Fin 16).val % 2 ^ (1 : Fin 4).val ≠ 0 ∧ 8 < (8 : Fin 16).val + 2 ^ (0 : Fin 4).val ∧
    mget ({} : Part) live.fe.parts 0 = { valid := false, first := 0, size := 0 } ∧
    mget ({} : Part) live.fe.parts 0 ≠ { valid := true, first := 0, size := 3 } ∧
    ({ clk := { ret := some { trigger := 0, since := 0 } } } : Block).clk.ret ≠ none ∧ live.clk.ret = none ∧ ({} : Block).boot.stage ≠ 6 ∧
    live.apertureAddr 0 0 = some 0 ∧ live.apertureAddr 0 (2 ^ 36) = none ∧
    (({ live with mem := ram } : Block).readMem (st live).env { id := funcReq 0, part := funcPart 0 } 0 4).2.any Prod.snd = false ∧
    (({ live with mem := { ram with poison := [(0, true)] } } : Block).readMem (st live).env { id := funcReq 0, part := funcPart 0 } 0 4).2.any Prod.snd = true ∧
    (({} : Block).queue 0).active = none ∧ ((execBlk 8 4).queue 0).active = some (cmdRun 4 .executing) := by decide +kernel

/-- Domain `d` as `x`. -/
def domBlk (d : Nat) (x : Dom) : Block := ({} : Block).setDom d x

theorem test_wit_DomainsGateAndReset :
    (st {}).Up ∧ ({} : Block).gateCode 0 = 0 ∧ ({} : Block).gateCode 100 = 6 ∧ ({} : Block).gateCode 99 = 4 ∧ ({} : Block).gateCode 4 = 1 ∧
    (domBlk 0 { state := 2 }).gateCode 0 = 7 ∧ (({} : Block).setPort 0 { state := 5 }).gateCode 80 = 3 ∧
    (domBlk 0 { state := 1 }).ungateCode 0 = 5 ∧
    ((domBlk 0 { state := 1 }).setPll 0 { ready := true }).ungateCode 0 = 0 ∧ ((domBlk 0 { state := 1 }).setDom 4 { state := 1 }).ungateCode 0 = 2 ∧
    ({} : Block).drstCode 0 = 0 ∧ ({} : Block).drstCode 95 = 3 ∧ ({} : Block).drstCode 48 = 3 ∧ ({} : Block).drstCode 91 = 3 ∧
    hostDom 47 = true ∧ hostDom 48 = false ∧ hostDom 80 = true ∧ hostDom 87 = true ∧ ({} : Block).domBusy 0 = false ∧
    ({} : Block).domRuns (domParent 0) = true ∧ ({} : Block).domSource 0 = some 0 ∧ ({} : Block).sourceReady 0 = false ∧
    (∃ b, b = (domBlk 0 { state := 4, dropsNew := 1 }).setPll 0 { ready := true } ∧ b.clk.ret = none ∧ b.domRuns (domParent 0) = true ∧
      (b.domSource 0).map b.sourceReady = some true ∧ (b.dom 0).state = 4 ∧ (b.dom 0).dropsNew ≠ 0) ∧
    (∃ b, b = (domBlk 0 { state := 2, since := 1 }).setPll 0 { ready := true } ∧ b.domRuns (domParent 0) = true ∧
      (b.domSource 0).map b.sourceReady = some true ∧ (b.dom 0).state = 2 ∧ 0 < (b.dom 0).since ∧ (b.dom 0).dropsNew = 0 ∧ (b.dom 0).synthNew = 0) ∧
    (∃ c < 100, domParent c = 4 ∧ (({} : Block).dom c).state = 0) ∧ (∀ c < 100, domParent c = 0 → (({} : Block).dom c).state ≠ 0) := by
  refine ⟨?_, ?_, ?_, ?_, ?_, ?_, ?_, ?_, ?_, ?_, ?_, ?_, ?_, ?_, ?_, ?_, ?_, ?_, ?_, ?_, ?_, ?_, ⟨_, rfl, ?_⟩, ⟨_, rfl, ?_⟩, ?_⟩ <;> decide +kernel

/-- A power state with a transition running or none. -/
def pstateBlk (n : Nat) (m : Option PstateRun) : Block := { clk := { pstate := n, moving := m } }

theorem test_wit_PowerStatesChange :
    (st {}).Up ∧ ({} : Block).pstateCode 1 = 0 ∧ ({} : Block).pstateCode 0 = 2 ∧ (pstateBlk 0 (some { target := 1, slLs := false })).pstateCode 1 = 3 ∧
    ({ clk := { ret := some { trigger := 0, since := 0 } } } : Block).pstateCode 1 = 4 ∧
    (({} : Block).setGen 7 { regs := { state := 2 } }).pstateCode 1 = 1 ∧ (({} : Block).setGen 7 { regs := { state := 1 } }).pstateCode 3 = 1 ∧
    (({} : Block).setGen 7 { regs := { state := 1 } }).pstateCode 2 = 0 ∧ ({} : Block).clk.moving = none ∧
    (∀ n ∈ [0, 1, 2, 3], (pstateBlk 0 (some { target := n, slLs := false })).clk.moving = some { target := n, slLs := false }) ∧
    (pstateBlk 2 (some { target := 1, slLs := false })).clk.pstate = 2 ∧ (pstateBlk 0 (some { target := 1, slLs := false })).clk.pstate ≠ 2 ∧
    18 ≤ (18 : Fin 32).val ∧ (17 : Fin 32).val < 18 ∧ ({} : Block).platesOf 0 = [] ∧ (pllBlk {} false none).platesOf 0 ≠ [] ∧
    ((pllBlk {} false none).setGen 0 { regs := { state := 1 } }).holdsJob 0 = true ∧ (pllBlk {} false none).holdsJob 0 = false ∧
    (∃ k ∈ ((pllBlk {} false none).setDom 0 { state := 1 }).platesOf 0, ∃ d ∈ plateDoms k, (((pllBlk {} false none).setDom 0 { state := 1 }).dom d).state ≠ 0) ∧
    (∀ k ∈ (pllBlk {} false none).platesOf 0, ∀ d ∈ plateDoms k, ((pllBlk {} false none).dom d).state = 0) ∧
    mget none (pllBlk {} false none).clk.switches 0 = none ∧
    mget none (pllBlk {} false (some { fstep := 0, tick := 0, pf0 := true })).clk.switches 0 ≠ none := by decide +kernel

theorem test_wit_ClocksFailAndRecover :
    (st {}).Up ∧ ({} : Block).standby (1 / 2) = 1 ∧ ({} : Block).standby (0 / 2) ≠ 0 ∧ ({} : Block).clk.mgmtH1 = false ∧
    ({ clk := { mgmtH1 := true } } : Block).clk.mgmtH1 = true ∧ (24 : Fin 33).val = 24 ∧ 16 ≤ (16 : Fin 33).val ∧ (32 : Fin 33).val ∉ ({} : Block).clk.lost ∧
    (32 : Fin 33).val ∈ ({ clk := { lost := [32] } } : Block).clk.lost ∧ (pllBlk {} false none).partOfPlate (0 / 2) < 8 ∧
    (pllBlk {} false none).recoveryOf 0 = 2 ∧ ({} : Block).recoveryOf 24 = 3 ∧ ({} : Block).recoveryOf 31 = 1 := by decide +kernel

/-- What a cold start finds: nothing wrong but the flash regions `bad`. -/
def finds (bad : List Nat) : BootFinds := { sel := 0, bad := bad, retries := 0, channels := [], proofs := [], ms := 9 }

theorem test_wit_ColdStartRuns :
    (st { module := { powered := false } }).blk.module.powered = false ∧ (st { module := { therm := true } }).blk.module.therm = true ∧
    (st {}).blk.module.powered = true ∧ (st {}).blk.module.therm = false ∧
    ({} : Block).boot.flash.choice (fun n => (finds [0, 1]).bad.contains n) = none ∧
    ({} : Block).boot.flash.choice (fun n => (finds []).bad.contains n) = some (0, 0) ∧
    ({} : Block).boot.flash.choice (fun n => (finds [2]).bad.contains n) = some (0, 1) ∧
    (({} : Flash).header (fun _ => false) 0).ok = true ∧ (({} : Flash).header (fun _ => true) 0).ok = false ∧
    ({} : Flash).ruling (fun _ => false) = some 0 ∧ ({} : Flash).runs (fun _ => false) 0 = true ∧ ({} : Flash).runs (fun _ => true) 0 = false := by
  decide +kernel

theorem test_wit_RetainedResetsMerge :
    (st live).Up ∧ live.boot.stage = 6 ∧ ({} : Block).boot.stage ≠ 6 ∧ live.clk.ret = none ∧
    ({ clk := { ret := some { trigger := 0, since := 0 } } } : Block).clk.ret = some { trigger := 0, since := 0 } ∧
    holdsRetained { clk := { ret := some { trigger := 0, since := 0 } } } = false ∧
    holdsRetained { clk := { ret := some { trigger := 0, since := 0 }, lost := [24] } } = true ∧
    ({ clk := { mgmtH1 := true } } : Block).clk.mgmtH1 = true ∧ live.clk.mgmtH1 = false ∧ live.boot.pinSel = (0 : Fin 4).val ∧
    live.boot.pinSel ≠ (3 : Fin 4).val := by decide +kernel

theorem test_wit_EndpointServesItsProtocols :
    (st {}).Up ∧ ({} : Block).boot.recovery = false ∧ ({} : Block).boot.stage < 3 ∧ 3 ≤ ({ boot := { stage := 3 } } : Block).boot.stage ∧
    ({ boot := { recovery := true } } : Block).boot.recovery = true ∧ ({} : Block).boot.update = none ∧
    ({ boot := { update := some { target := 0, queue := 0, seq := 0 } } } : Block).boot.update ≠ none ∧
    ({ module := { temps := [(256 * 1 + 15, some 40)] } } : Block).module.temp 1 15 = some 40 := by decide +kernel

theorem test_wit_SpdmFollowsItsOrder :
    (st live).Up ∧ ({} : Block).boot.stage < 3 ∧ live.boot.recovery = false ∧ 3 ≤ live.boot.stage ∧ live.boot.endpoint.spdm < 1 ∧
    3 ≤ ({ boot := { stage := 6, endpoint := { spdm := 3 } } } : Block).boot.endpoint.spdm ∧ (0 : Fin 256).val = 0 ∧ (255 : Fin 256).val = 255 ∧
    (254 : Fin 256).val ≠ 0 ∧ (254 : Fin 256).val ≠ 255 := by decide +kernel

/-- A bracket record, compared with another cell or not yet. -/
def brkBlk (part : Nat) (other : Option (Nat × Nat)) : Block :=
  { int := { brackets := [(4, some { part := part, x := 0, y := 0, other := other, frames := [3] })] } }

theorem test_wit_FogIsFoundAndCharged :
    (st {}).Up ∧ mget none ({} : Block).int.brackets 4 = none ∧
    (∃ r, mget none (brkBlk 7 none).int.brackets 4 = some r ∧ r.other = none ∧ r.part < 8) ∧
    (∃ r, mget none (brkBlk 8 (some (1, 2))).int.brackets 4 = some r ∧ r.other = some (1, 2) ∧ 8 ≤ r.part) ∧
    mget false ({} : Block).int.proofTry 0 = false ∧ mget false ({ int := { proofTry := [(0, true)] } } : Block).int.proofTry 0 = true ∧
    ({} : Block).logicalRow 0 257 = none ∧ ({} : Block).logicalRow 0 255 = some 255 ∧ ({} : Block).partOfPlate 0 = 15 ∧
    (({} : Block).rowHealth 0 0).state < 2 ∧ ({} : Block).int.fogLimit ≤ ({ fog := 1 } : RowHealth).fog + 1 ∧ ({} : Block).int.fogLimit ≤ 255 ∧
    ({ state := 2 } : RowHealth).state = 2 ∧ ({} : RowHealth).fog + 1 < ({} : Block).int.fogLimit ∧
    ({ int := { rows := [(rowKey 0 0, { state := 1, fog := 1 })] } } : Block).rowHealth 0 0 = { state := 1, fog := 1 } := by
  refine ⟨?_, ?_, ⟨_, rfl, ?_⟩, ⟨_, rfl, ?_⟩, ?_⟩ <;> decide +kernel

/-- A sheet asked for by a host or an expired deadline. -/
def sheetReq (trigger : Nat) (stop : Bool) : SheetReq := { trigger := trigger, scope := 1, stop := stop, tick := 0, queue := 0, seq := 0 }

theorem test_wit_ObservationActs :
    (st {}).blk.boot.stage ≠ 6 ∧ (st live).Up ∧ live.boot.stage = 6 ∧ live.obs.snap = none ∧
    ({ live with obs := { snap := some { tick := 5, plates := 0, cells := false, hub := true } } } : Block).obs.snap ≠ none ∧
    (st live).time.now < ({ live with obs := { snapTick := 1 } } : Block).obs.snapTick ∧ live.obs.snapTick ≤ (st live).time.now ∧
    (∃ b s', b = ({ obs := { snap := some { tick := 5, plates := 0, cells := false, hub := true } } } : Block) ∧ s' = (st b).eventAt (some 5) ∧ s'.Up ∧
      s'.blk.obs.snap = some { tick := 5, plates := 0, cells := false, hub := true } ∧ s'.time.now = 5) ∧
    live.obs.sheet = none ∧
    (∀ t ∈ [0, 1], ({ obs := { sheet := some (sheetReq t true) } } : Block).obs.sheet = some (sheetReq t true)) ∧
    bit (sheetReq 1 true).scope 8 = false ∧ bit ({ sheetReq 1 true with scope := 256 } : SheetReq).scope 8 = true ∧ bit (256 : Fin 512) 8 = true ∧
    (1 : Fin 512).val % 256 &&& (sheetReq 1 true).scope % 256 = (1 : Fin 512).val % 256 ∧
    (2 : Fin 512).val % 256 &&& (sheetReq 1 true).scope % 256 ≠ (2 : Fin 512).val % 256 ∧
    ({} : Block).obs.freeSlot = some 0 ∧ ({ obs := { keep := 255 } } : Block).obs.freeSlot = none ∧ ({} : Block).obs.waiting = [] ∧
    ({ obs := { waiting := [sheetReq 1 false] } } : Block).obs.waiting = [sheetReq 1 false] ∧
    live.armRefusal { part := 8 } = 3 ∧ live.armRefusal {} = 2 ∧
    (live.setGen 0 { job := { devices := [0, 1] } }).armRefusal {} = 1 ∧
    (queueBlk {} []).armRefusal { cluster := 639 } = 0 ∧ (queueBlk {} []).armRefusal { cluster := 640 } = 2 ∧
    (∀ k < 16, ¬((live.bp k).part = 7 ∧ (live.bp k).state = 3)) ∧ mget 0 live.obs.bpFrom 7 = 0 ∧
    (live.engine (mget ({} : Part) live.fe.parts 7).first).sliceOver = false ∧ live.obs.bpFrom = mset 0 live.obs.bpFrom 7 0 := by
  refine ⟨?_, ?_, ?_, ?_, ?_, ?_, ?_, ⟨_, _, rfl, rfl, ?_⟩, ?_⟩ <;> decide +kernel

/-- A module with sensor 0 of class 0 at `t`. -/
def modBlk (m : Module) : Block := { module := m }

theorem test_wit_ModuleIsSuppliedAndCooled :
    (st {}).Up ∧ tripAt 0 = some 115 ∧ (0 : Nat) ∉ ({} : Block).module.warm ∧
    (0 : Nat) ∈ (({} : Block).takeReading (st {}).env { cls := 0, index := 0, temp := 95 }).module.warm ∧
    (0 : Nat) ∉ (({} : Block).takeReading (st {}).env { cls := 0, index := 0, temp := 94 }).module.warm ∧
    ((st (modBlk { powered := false })).eventAt (some ((st {}).slot 100))).blk.module.powered = false ∧
    (modBlk { tripRuns := [(0, 3)] }).module.tripRuns.find? (fun x => decide (3 ≤ x.2)) = some (0, 3) ∧ ({} : Block).module.up = true ∧
    ({} : Block).module.therm = false ∧ ({} : Block).module.tripRuns.find? (fun x => decide (3 ≤ x.2)) = none ∧
    (modBlk { heldReset := true, therm := true }).module.cool = true ∧ ((st {}).eventAt (some ((st {}).slot 100000))).Up ∧
    (modBlk { temps := [(0, some 105)] }).module.throttling = true ∧
    (modBlk { temps := [(0, some 105)] }).module.temps.find? (fun x => match x.2, throttleAt (x.1 / 256) with
      | some t, some l => decide (l ≤ t) | _, _ => false) = some (0, some 105) ∧
    (modBlk { tlimit := 6899 }).module.throttling = false ∧ (modBlk { tlimit := 6899 }).module.wellBelow = true ∧
    (modBlk { tlimit := 6899 }).module.tlimit < 6900 ∧ min 6900 ((modBlk { tlimit := 6899 }).module.tlimit + 5 * 500) = 6900 ∧
    min 6900 ((modBlk { tlimit := 1500 }).module.tlimit + 5 * 500) < 6900 ∧ (modBlk { throttled := true, tlimit := 6899 }).module.throttled = true ∧
    (modBlk { temps := [(0, some 102)] }).module.wellBelow = false ∧ 6900 ≤ ({} : Block).module.tlimit ∧
    (modBlk { therm := true, temps := [(0, some 95)] }).module.cool = false ∧
    4200 ≤ (timBlk { samples := [(4200, 0)] }).tim.vin ∧ (timBlk { samples := [(4799, 0)] }).tim.vin < 4800 ∧
    4200 ≤ (timBlk { samples := [(4799, 0)] }).tim.vin ∧ ({} : Block).module.lowAt ≠ (st {}).time.now / 1000000 + 1 ∧
    (modBlk { lowAt := 1 }).module.lowAt = (st {}).time.now / 1000000 + 1 ∧ 6200 < (timBlk { samples := [(6201, 0)] }).tim.vin ∧
    (timBlk { samples := [(6200, 0)] }).tim.vin ≤ 6200 := by decide +kernel

theorem test_wit_RegistersAreWrittenAndRead :
    (st {}).Up ∧ ({} : Block).barUp = false ∧ ({} : Block).boot.stage ≠ 6 ∧ (st live).HostUp ∧ live.pair (st live).env 0x1000008 = none ∧
    live.pair (st live).env 0x500000 = some 0 ∧ live.reachesPair 0 0x500000 = true ∧ live.pair (st live).env 0x300008 = some 0 ∧
    live.reachesPair 0 0x300008 = false ∧ mget 0 live.loWrites 0x500000 = 0 ∧
    mget 0 ({ live with loWrites := [(0x500000, 8)] } : Block).loWrites 0x500000 ≠ 0 ∧ bit (2 ^ 31) 31 = true ∧ bit 0 31 = false ∧
    0x100000 / 0x100000 = 1 ∧ live.boot.recovery = false ∧ mget 0 live.latches 0x500000 = 0 ∧
    mget 0 ({ live with latches := [(0x500000, 8)] } : Block).latches 0x500000 ≠ 0 ∧
    mget none live.clk.parts 0 = none ∧
    (∃ b, b = ({ fe := { parts := [(0, { valid := true })] }, clk := { parts := [(0, some { trigger := 8, since := 0 })], lost := [0] } } : Block) ∧
      mget none b.clk.parts 0 = some { trigger := 8, since := 0 } ∧ 0 ∈ b.platesOf 0 ∧ 0 ∈ b.clk.lost ∧ b.standby 0 ≠ 0) ∧
    (∃ b, b = ({ fe := { parts := [(0, { valid := true })] }, clk := { parts := [(0, some { trigger := 8, since := 0 })], lost := [1] } } : Block) ∧
      mget none b.clk.parts 0 = some { trigger := 8, since := 0 } ∧
      (∀ k ∈ b.platesOf 0, ∀ n ∈ b.clk.lost, n / 2 = k → n < 16 → b.standby k = n)) ∧
    (live.gen 0).regs.state ≠ 5 := by
  refine ⟨?_, ?_, ?_, ?_, ?_, ?_, ?_, ?_, ?_, ?_, ?_, ?_, ?_, ?_, ?_, ?_, ?_, ?_, ⟨_, rfl, ?_⟩, ⟨_, rfl, ?_⟩, ?_⟩ <;> decide +kernel

theorem test_wit_BindingsFollowTheTable :
    (st (queueBlk {} [])).Up ∧ (queueBlk {} []).reachesQueue 0 0 = true ∧ (queueBlk { part := 7 } []).reachesQueue 8 0 = true ∧
    (mget ({} : Part) (queueBlk {} []).fe.parts 0).valid = true ∧ (mget ({} : Part) (queueBlk {} []).fe.parts 0).first = (0 : Fin 64).val ∧
    (mget ({} : Part) (queueBlk {} []).fe.parts 7).valid = false ∧ 8 ≤ (8 : Fin 64).val ∧ (46 : Fin 64).val ≤ 46 ∧ (47 : Fin 64).val = 47 ∧
    ((queueBlk { enable := true, part := 0, engine := 8 } []).queue 0).enable = true ∧
    (9 : Fin 64).val ≠ ((queueBlk { enable := true, part := 0, engine := 8 } []).queue 0).engine := by decide +kernel

theorem test_wit_PackedElementsAreInPlace :
    (-128 : Int) ≤ -128 ∧ (127 : Int) ≤ 127 ∧ (255 : Int) ≤ 255 ∧ (-8 : Int) ≤ -8 ∧ (7 : Int) ≤ 7 ∧ (3 : Nat) < 4 ∧ 4 < ([1, 2, 3, 4, 63] : List Nat).length ∧
    elemRaw .mx6e2m3 (packRaw .mx6e2m3 [1, 2, 3, 4, 63]) 4 = 63 := by decide +kernel

theorem test_wit_StepTakesTheFront : (st {}).pending = [] ∧ (st {}).blk.module.up = true ∧ (modBlk { up := false }).module.up = false := by
  decide +kernel

theorem test_wit_OperationWordsRoundTrip :
    (SeqOp.wait (2 ^ 24 - 1)).wf = true ∧ (SeqOp.strm 3 15 14).wf = true ∧ (0x31F0000000000000 : Nat) < 2 ^ 64 ∧
    SeqOp.decode 0x31F0000000000000 = some (.walk 15) := by decide +kernel

theorem test_wit_EveryStepKeepsOrder :
    State.reset.Sound ∧ step { State.reset with pending := [.modulePowerUp] } = .next State.reset ∧ ¬StartsTime .modulePowerUp ∧
    ¬AdvancesGeneration .modulePowerUp ∧ exec (.powerSample 7201 0) State.reset = .fault .absoluteMaximum :=
  ⟨⟨by decide +kernel, fun p => by simp [State.reset, mget], by decide +kernel, by simp [State.reset]⟩, rfl, id, id, rfl⟩

/-! ## Single steps -/

theorem test_nop_advances_pc : (match exec (.nop rid) (st (reg { runs with pc := 2 })) with
    | .next t => (t.blk.region rid).pc | _ => 0) = 3 := by decide +kernel

theorem test_loop_counts_down : (match exec (.loop rid 7 1) (st (reg { runs with ctrs := [(7, 1)] })) with
    | .next t => ((t.blk.region rid).pc, mget 0 (t.blk.region rid).ctrs 7) | _ => (0, 9)) = (1, 0) := by decide +kernel

theorem test_addi_wraps : (match exec (.addi rid 1 (2 ^ 40 - 1)) (st ((reg runs).setCluster 0 0 { areg := [(1, 1)] })) with
    | .next t => mget 0 (t.blk.cluster 0 0).areg 1 | _ => 9) = 0 := by decide +kernel

theorem test_add_wraps : (match exec (.add 0 8191 2) (st (objBlk { val := 2 ^ 64 - 1 })) with
    | .next t => (t.blk.obj 8191).val | _ => 9) = 1 := by decide +kernel

theorem test_acquire_takes_lock : (match exec (.acquire 0 8191) (st (objBlk { mode := 1 })) with
    | .next t => (t.blk.obj 8191).state | _ => 9) = 1 := by decide +kernel

theorem test_doorbell_range : (match exec (.doorbell 0 0 65) (st (queueBlk {} [])) with
    | .next t => ((t.blk.queue 0).submitted, mget 0 t.blk.fe.counters 0x820) | _ => (9, 9)) = (0, 1) := by decide +kernel

theorem test_mem_write_lands : (match exec (.memWrite asker 63 [7] false false false) (st (ramBlk ram)) with
    | .next t => mget 0 t.blk.mem.bytes 63 | _ => 0) = 7 := by decide +kernel

theorem test_power_sample_fault : exec (.powerSample 0 20001) (st {}) = .fault .absoluteMaximum := rfl

theorem test_gate_parent_refused : (match exec (.gate 5) (st {}) with
    | .next t => (t.blk.dom 5).state | _ => 9) = 0 := by decide +kernel

theorem test_ptp_never_back : (match exec (.ptpSync 5 0) (stAt 9 {}) with | .next t => t.time.now | _ => 0) = 9 := by decide +kernel

theorem test_idle_tick : (match step (stAt 9 {}) with | .next t => t.time.now | _ => 0) = 10 := by decide +kernel

theorem test_bypass_sets_tap : (match exec .bypass (st (modBlk { tap := 2 })) with | .next t => t.blk.module.tap | _ => 9) = 0 := by decide +kernel

end Sys2Proof.Tests
end

section
/-! PROOFS. Registers: words, pairs and their latches, the end of a partition reset, PCIe links (R5 to R7, R299, R367). -/
namespace Sys2Proof.Machine

/-! ## The commands on a running module -/

theorem exec_registerWrite_up {s : State} (hup : s.Up) (f : Fin 9) (obs : Bool) (off : Fin (2 ^ 26)) (v : Fin (2 ^ 32)) :
    exec (.registerWrite f obs off v) s = .next { s with blk := s.blk.doRegWrite s.env f obs off v } :=
  congrArg Host.Outcome.next (s.onBlock_up _ hup)

theorem exec_registerPairRead_up {s : State} (hup : s.Up) (f : Fin 9) (obs : Bool) (off : Fin (2 ^ 26)) :
    exec (.registerPairRead f obs off) s = .next { s with blk := s.blk.doPairRead s.env f obs off } :=
  congrArg Host.Outcome.next (s.onBlock_up _ hup)

theorem exec_partitionResetDone_up {s : State} (hup : s.Up) (p : Fin 8) :
    exec (.partitionResetDone p) s = .next { s with
      blk := ((s.blk.endPartReset s.env p).progressRewound s.env p).1
      cur := mset 0 s.cur p ((s.blk.endPartReset s.env p).progressRewound s.env p).2 } :=
  congrArg Host.Outcome.next (s.onPart_up _ _ hup)

theorem exec_pcieLinkUp_up {s : State} (hup : s.Up) (portB : Bool) :
    exec (.pcieLinkUp portB) s = .next { s with blk := s.blk.setPcie portB true } :=
  congrArg Host.Outcome.next (s.onBlock_up _ hup)

/-! ## Word offsets -/

theorem wordOffset_mod_bar0 (off : Fin (2 ^ 26)) : off.val / 4 * 4 % 0x4000000 = off.val / 4 * 4 := by omega

theorem wordOffset_pairBase {o a lo : Nat} (ha : a = o / 4 * 4) (hlo : lo = o / 8 * 8) : a / 8 * 8 = lo := by omega

theorem isLo_iff {a lo : Nat} (hlo : a / 8 * 8 = lo) : a % 8 = 0 ↔ a = lo := by omega

/-! ## Latches of BAR0 -/

/-- BAR0 is path 0, whose latch of a pair stands at the pair's own offset. -/
theorem Block.setLatch_bar0 (b : Block) (lo v : Nat) : b.setLatch 0 lo v = { b with latches := mset 0 b.latches lo v } := by
  simp [Block.setLatch, latchKey]

theorem latchKey_bar0 (lo : Nat) : latchKey 0 lo = lo := by simp [latchKey]

/-! ## Writes of a word -/

section Write
variable {b : Block} {e : Env} {f a old : Nat} (v : Nat)

theorem Block.doRegWrite_barDown (o : Nat) (h : b.barUp = false) : b.doRegWrite e f false o v = b := by
  simp [Block.doRegWrite, Block.writeBar0, h]

/-- The observation path is PF0's alone, and answers from step 6 on (R339, R400). -/
theorem Block.doRegWrite_obs_dropped (o : Nat) (h : f ≠ 0 ∨ b.boot.stage ≠ 6) : b.doRegWrite e f true o v = b := by
  have hn : ¬(f = 0 ∧ b.boot.stage = 6) := fun hb => h.elim (· hb.1) (· hb.2)
  simp [Block.doRegWrite, hn]

theorem Block.doRegWrite_pf0 (off : Fin (2 ^ 26)) (w : Fin (2 ^ 32)) (h : b.barUp = true) :
    b.doRegWrite e 0 false off w = b.writeWord e 0 (off.val / 4 * 4) w := by
  show b.writeBar0 e 0 (off.val / 4 * 4 % 0x4000000) (w.val % 2 ^ 32) = _
  rw [wordOffset_mod_bar0, Nat.mod_eq_of_lt w.isLt]
  simp [Block.writeBar0, h]

theorem Block.reachesPair_latches (b : Block) (f a : Nat) (l : SMap Nat) :
    ({ b with latches := l } : Block).reachesPair f a = b.reachesPair f a := rfl

variable {lo : Nat} (hlo : a / 8 * 8 = lo)
include hlo

theorem Block.writeWord_solo (hp : b.pair e lo = none) : b.writeWord e f a v = b.writeSolo e f a v := by
  simp [Block.writeWord, hlo, hp]

theorem Block.writeWord_unreached (hp : b.pair e lo = some old) (hr : b.reachesPair f lo = false) :
    b.writeWord e f a v = { b with latches := mset 0 b.latches lo 0 } := by
  simp [Block.writeWord, hlo, hp, Block.setLatch_bar0, Block.reachesPair_latches, hr]

theorem Block.writeWord_lo (hp : b.pair e lo = some old) (hr : b.reachesPair f lo = true) (ha : a = lo) :
    b.writeWord e f a v = { b with latches := mset 0 b.latches lo 0, loWrites := mset 0 b.loWrites lo (v + 1) } := by
  have h8 : a % 8 = 0 := (isLo_iff hlo).mpr ha
  simp [Block.writeWord, hlo, hp, Block.setLatch_bar0, Block.reachesPair_latches, hr, h8]

theorem Block.writeWord_hi (hp : b.pair e lo = some old) (hr : b.reachesPair f lo = true) (ha : a ≠ lo) :
    b.writeWord e f a v =
      ({ b with latches := mset 0 b.latches lo 0, loWrites := mset 0 b.loWrites lo 0 } : Block).writePair e f lo
        (v * 2 ^ 32 + if mget 0 b.loWrites lo = 0 then old % 2 ^ 32 else mget 0 b.loWrites lo - 1) := by
  have h8 : a % 8 ≠ 0 := mt (isLo_iff hlo).mp ha
  simp [Block.writeWord, hlo, hp, Block.setLatch_bar0, Block.reachesPair_latches, hr, h8, low32]

end Write

/-! ## Words of no pair (R7) -/

section Solo
variable (b : Block) (e : Env) (v : Nat)

theorem Block.writeSolo_proofPeriod :
    b.writeSolo e 0 0x1000008 v = { b with int := { b.int with proofPeriod := max 10 (min 86400 v) } } := rfl

theorem Block.writeSolo_fogWindow :
    b.writeSolo e 0 0x100000C v = { b with int := { b.int with fogWindow := max 1 (min 168 (v % 256)) } } := rfl

theorem Block.writeSolo_holdLimit :
    b.writeSolo e 0 0x30001C v = { b with tim := { b.tim with holdLimit := max 1 (min 3600 v) } } := rfl

theorem Block.writeSolo_scrubPeriod :
    b.writeSolo e 0 0xA0002C v = { b with mem := { b.mem with scrubPeriod := max 1 (min 168 (v % 256)) } } := rfl

theorem Block.writeSolo_peerHold :
    b.writeSolo e 0 0xC02008 v = { b with link := { b.link with peerHold := max 1 (min 10000 (v % 65536)) } } := rfl

/-- GLB_TRIP: VALID is W1C (R435). -/
theorem Block.writeSolo_trip :
    b.writeSolo e 0 0x114 v =
      if bit v 31 then { b with module := { b.module with trip := b.module.trip.map (fun t => { t with valid := false }) } } else b :=
  rfl

theorem Block.writeSolo_cfg {a : Nat} (ha : a / 0x100000 = 1) : b.writeSolo e 0 a v = b := by
  simp [Block.writeSolo, ha]

/-- Outside FE, SYN and EVT a VF writes nothing. -/
theorem Block.writeSolo_vf {f a : Nat} (hf : f ≠ 0) (hfe : a / 0x100000 ≠ 4) (hsyn : a / 0x100000 ≠ 5) (hevt : a / 0x100000 ≠ 6) :
    b.writeSolo e f a v = b := by
  simp [Block.writeSolo, hf]

end Solo

/-! ## Reads of a pair through BAR0 (R5) -/

section Read
variable {b : Block} {e : Env} {a v : Nat}

theorem Block.doPairRead_pf0 (off : Fin (2 ^ 26)) (hr : b.boot.recovery = false) (hu : b.barUp = true) :
    b.doPairRead e 0 false off =
      (b.readWord e 0 (off.val / 4 * 4)).1.emit (.completion 0 (leBytes 4 (b.readWord e 0 (off.val / 4 * 4)).2) false) := by
  simp [Block.doPairRead, Block.readBar0, Block.answerRead, hr, hu, wordOffset_mod_bar0]

/-- While the registers do not answer, a read returns all ones (R299). -/
theorem Block.doPairRead_barDown (f o : Nat) (hr : b.boot.recovery = false) (hu : b.barUp = false) :
    b.doPairRead e f false o = b.emit (.completion f (leBytes 4 (2 ^ 32 - 1)) false) := by
  simp [Block.doPairRead, Block.readBar0, Block.answerRead, hr, hu]

variable {lo : Nat} (hlo : a / 8 * 8 = lo) (hp : b.pair e lo = some v)
include hlo hp

theorem Block.readWord_lo (ha : a = lo) (ht : lo ≠ 0x300008) :
    b.readWord e 0 a = ({ b with latches := mset 0 b.latches lo (v / 2 ^ 32 % 2 ^ 32 + 1) }, v % 2 ^ 32) := by
  have h8 : a % 8 = 0 := (isLo_iff hlo).mpr ha
  simp [Block.readWord, hlo, hp, h8, timNow, ht, Block.setLatch_bar0, low32, high32]

/-- A read of TIM_NOW_LO latches TIM_NOW_FRAC as well (R203). -/
theorem Block.readWord_timNow (ha : a = lo) (ht : lo = 0x300008) :
    b.readWord e 0 a = ({ b with
      latches := mset 0 (mset 0 b.latches lo (v / 2 ^ 32 % 2 ^ 32 + 1)) 0x300010 (e.clk.frac % 65536 + 1) }, v % 2 ^ 32) := by
  have h8 : a % 8 = 0 := (isLo_iff hlo).mpr ha
  have htn : lo = timNow := ht
  simp only [Block.readWord, hlo, hp, h8, htn.symm, if_true, Block.setLatch_bar0, low32, high32, timFrac]

theorem Block.readWord_hi (ha : a ≠ lo) :
    b.readWord e 0 a = ({ b with latches := mset 0 b.latches lo 0 },
      if mget 0 b.latches lo = 0 then v / 2 ^ 32 % 2 ^ 32 else mget 0 b.latches lo - 1) := by
  have h8 : a % 8 ≠ 0 := mt (isLo_iff hlo).mp ha
  simp [Block.readWord, hlo, hp, h8, Block.setLatch_bar0, latchKey_bar0, high32]

end Read

/-! ## The end of a partition reset (R367) -/

section PartReset
variable {b : Block} {e : Env} {p : Nat} {run : ResetRun}

theorem Block.endPartReset_none (h : mget none b.clk.parts p = none) : b.endPartReset e p = b := by
  simp [Block.endPartReset, h]

/-- The test that keeps a partition in reset: a lost source of one of its plates is no standby (R364). -/
theorem Block.any_plateClockLost_iff : (b.platesOf p).any (fun k => b.clk.lost.any (fun n =>
      decide (n / 2 = k) && decide (n < 16) && decide (b.standby k ≠ n))) = true ↔
    ∃ k n, k ∈ b.platesOf p ∧ n ∈ b.clk.lost ∧ n / 2 = k ∧ n < 16 ∧ b.standby k ≠ n := by
  simp only [List.any_eq_true, Bool.and_eq_true, decide_eq_true_eq, and_assoc, exists_and_left]

theorem Block.endPartReset_clockLost (h : mget none b.clk.parts p = some run)
    (hs : ∃ k n, k ∈ b.platesOf p ∧ n ∈ b.clk.lost ∧ n / 2 = k ∧ n < 16 ∧ b.standby k ≠ n) : b.endPartReset e p = b := by
  simp only [Block.endPartReset, h]
  exact if_pos (Block.any_plateClockLost_iff.mpr hs)

theorem Block.endPartReset_clocked (h : mget none b.clk.parts p = some run)
    (hs : ¬∃ k n, k ∈ b.platesOf p ∧ n ∈ b.clk.lost ∧ n / 2 = k ∧ n < 16 ∧ b.standby k ≠ n) :
    b.endPartReset e p =
      ((b.setClk { b.clk with parts := mset none b.clk.parts p none }).setDoms ((b.platesOf p).flatMap plateDoms) 2 0).clkEvent
        e 5 0 p 0xFF 2 0xFFFF [(28, 4, e.clk.now - run.since)] := by
  simp only [Block.endPartReset, h]
  exact if_neg (mt Block.any_plateClockLost_iff.mp hs)

/-- A device that does not rewind sends no REWOUND, and its generation stands. -/
theorem Block.progressRewound_notRewinding (h : (b.gen p).regs.state ≠ 5) : b.progressRewound e p = (b, e.curGen p) := by
  simp [Block.progressRewound, h]

end PartReset

end Sys2Proof.Machine

namespace Sys2Proof
open Machine

/-- Settles O54: each clause is the running module's command (`exec_…_up`) followed by the case of the register access or of the
partition reset that its hypotheses select. -/
theorem registersAreWrittenAndRead : Obligations.RegistersAreWrittenAndRead := by
  refine ⟨?dropped, ?written, ?solo, ?read, ?allOnes, ?partReset, ?link⟩
  case dropped =>
    intro s f off v hup
    refine ⟨fun hbar => ?_, fun hobs => ?_⟩
    · rw [exec_registerWrite_up hup, Block.doRegWrite_barDown _ _ hbar]
    · rw [exec_registerWrite_up hup, Block.doRegWrite_obs_dropped _ _ (hobs.imp_left (fun h h0 => h (Fin.ext h0)))]
  case written =>
    rintro s off v a lo ⟨hup, hbar⟩ ha hlo
    have hpair : a / 8 * 8 = lo := wordOffset_pairBase ha hlo
    have hexec := exec_registerWrite_up hup 0 false off v
    rw [Fin.val_zero, Block.doRegWrite_pf0 off v hbar, ← ha] at hexec
    rw [hexec]
    refine ⟨fun hp => ?_, fun old b hp hb => ⟨fun hr => ?_, fun hr => ⟨fun hLo => ?_, fun hHi l hlive hkept => ?_⟩⟩⟩
    · rw [Block.writeWord_solo _ hpair hp]
    · rw [Block.writeWord_unreached _ hpair hp hr, hb]
    · rw [Block.writeWord_lo _ hpair hp hr hLo, hb]
    · rw [Block.writeWord_hi _ hpair hp hr hHi, hb]
      by_cases hstaged : mget 0 s.blk.loWrites lo = 0
      · rw [if_pos hstaged, hlive hstaged]
      · rw [if_neg hstaged, hkept hstaged]
  case solo =>
    intro b e v
    refine ⟨b.writeSolo_proofPeriod e v, b.writeSolo_fogWindow e v, b.writeSolo_holdLimit e v, b.writeSolo_scrubPeriod e v,
      b.writeSolo_peerHold e v, fun h => ?_, fun h => ?_, fun a => b.writeSolo_cfg e v, fun f a => b.writeSolo_vf e v⟩
    · rw [b.writeSolo_trip, if_pos h]
    · rw [b.writeSolo_trip, if_neg (by simp [h])]
  case read =>
    rintro s off a lo ⟨hup, hbar⟩ hrec ha hlo v b hp
    have hpair : a / 8 * 8 = lo := wordOffset_pairBase ha hlo
    have hexec := exec_registerPairRead_up hup 0 false off
    rw [Fin.val_zero, Block.doPairRead_pf0 off hrec hbar, ← ha] at hexec
    rw [hexec]
    refine ⟨fun hLo hb => ⟨fun ht => ?_, fun ht => ?_⟩, fun hHi hb => ⟨fun hempty => ?_, fun hfull => ?_⟩⟩
    · rw [Block.readWord_lo hpair hp hLo ht, hb]
    · rw [Block.readWord_timNow hpair hp hLo ht, hb]; rfl
    · rw [Block.readWord_hi hpair hp hHi, if_pos hempty, hb]
    · rw [Block.readWord_hi hpair hp hHi, if_neg hfull, hb]
  case allOnes =>
    intro s f off hup hrec hbar
    rw [exec_registerPairRead_up hup, Block.doPairRead_barDown _ _ hrec hbar]
  case partReset =>
    intro s p b hup hidle hrun
    have hb : s.blk.endPartReset s.env p = b := by
      cases hparts : mget none s.blk.clk.parts p with
      | none => rw [Block.endPartReset_none hparts, hidle hparts]
      | some run =>
        obtain ⟨hlost, hclocked⟩ := hrun run hparts
        by_cases hs : ∃ k n, k ∈ s.blk.platesOf p ∧ n ∈ s.blk.clk.lost ∧ n / 2 = k ∧ n < 16 ∧ s.blk.standby k ≠ n
        · rw [Block.endPartReset_clockLost hparts hs, hlost hs]
        · rw [Block.endPartReset_clocked hparts hs, hclocked (by simpa only [not_exists, not_and, Classical.not_not] using hs)]
          rfl
    have hexec := exec_partitionResetDone_up hup p
    rw [hb] at hexec
    exact ⟨hexec, fun hstate => by rw [hexec, Block.progressRewound_notRewinding hstate]⟩
  case link => exact fun s hup => ⟨exec_pcieLinkUp_up hup false, exec_pcieLinkUp_up hup true⟩

end Sys2Proof
end

section
/-! PROOFS. What every step keeps of campus time, of the current generations and of the queue (R19, R25, R169, R179, R182, R338). -/
namespace Sys2Proof.Machine

/-! ## Maps of generations -/

/-- From `c` to `d` no generation became newer, and a canonical map stayed canonical. -/
structure Retreats (c d : SMap Nat) : Prop where
  canonical : mwf 0 c = true → mwf 0 d = true
  notNewer : ∀ p, mget 0 d p ≤ mget 0 c p

theorem Retreats.refl (c : SMap Nat) : Retreats c c := ⟨id, fun _ => Nat.le_refl _⟩

theorem Retreats.nil (c : SMap Nat) : Retreats c [] := ⟨fun _ => rfl, fun _ => Nat.zero_le _⟩

theorem Retreats.trans {c d f : SMap Nat} (h : Retreats c d) (k : Retreats d f) : Retreats c f :=
  ⟨k.canonical ∘ h.canonical, fun p => Nat.le_trans (k.notNewer p) (h.notNewer p)⟩

theorem Retreats.mset {c d : SMap Nat} (h : Retreats c d) {p x : Nat} (hx : x ≤ mget 0 c p) : Retreats c (mset 0 d p x) where
  canonical hc := mwf_mset _ _ _ _ (h.canonical hc)
  notNewer q := by
    rw [mget_mset]
    split
    case isTrue hq => exact hq ▸ hx
    case isFalse => exact h.notNewer q

/-- A fold over blocks and maps in which every round takes the map back takes it back as a whole. -/
theorem Retreats.foldl {α : Type} {c : SMap Nat} {f : Block × SMap Nat → α → Block × SMap Nat}
    (hf : ∀ a x, Retreats c a.2 → Retreats c (f a x).2) (l : List α) {a : Block × SMap Nat} (ha : Retreats c a.2) :
    Retreats c (l.foldl f a).2 := by
  induction l generalizing a with
  | nil => exact ha
  | cons x l ih => exact ih (hf a x ha)

/-- `d` is `c`, but for one partition at most, which holds a 48-bit generation. -/
def SetsOne (c d : SMap Nat) : Prop := d = c ∨ ∃ p g, g < 2 ^ 48 ∧ d = mset 0 c p g

theorem SetsOne.canonical {c d : SMap Nat} (h : SetsOne c d) (hc : mwf 0 c = true) : mwf 0 d = true := by
  obtain rfl | ⟨p, g, _, rfl⟩ := h
  · exact hc
  · exact mwf_mset _ _ _ _ hc

theorem SetsOne.bounded {c d : SMap Nat} (h : SetsOne c d) (hc : ∀ p, mget 0 c p < 2 ^ 48) (q : Nat) : mget 0 d q < 2 ^ 48 := by
  obtain rfl | ⟨p, g, hg, rfl⟩ := h
  · exact hc q
  · rw [mget_mset]
    split
    case isTrue => exact hg
    case isFalse => exact hc q

/-! ## The generation unit chooses no newer generation -/

section Unit
variable (b : Block) (e : Env) (p : Nat)

theorem Block.onRestart_notNewer (target gate : Nat) (stop : Bool) : (b.onRestart e p target gate stop).2 ≤ e.curGen p := by
  cases stop with
  | true => exact Nat.le_refl _
  | false => exact Nat.min_le_right _ _

theorem Block.progressRewound_notNewer : (b.progressRewound e p).2 ≤ e.curGen p := by
  unfold Block.progressRewound
  extract_lets
  split
  case isTrue => exact Nat.le_refl _
  case isFalse =>
    split
    case isTrue => exact Block.onRestart_notNewer _ _ _ _ _ _
    case isFalse => exact Nat.le_refl _

theorem Block.progressLoaded_notNewer : (b.progressLoaded e p).2 ≤ e.curGen p := by
  unfold Block.progressLoaded
  extract_lets
  split
  case isTrue => exact Nat.le_refl _
  case isFalse =>
    split
    case isTrue =>
      split
      case isTrue => exact Nat.le_refl _
      case isFalse => exact Block.onRestart_notNewer _ _ _ _ _ _
    case isFalse => exact Nat.le_refl _

theorem Block.onLoaded_notNewer (m : GenMsg) : (b.onLoaded e p m).2 ≤ e.curGen p := by
  unfold Block.onLoaded
  extract_lets
  split
  case isTrue => exact Nat.le_refl _
  case isFalse => exact Block.progressLoaded_notNewer _ _ _

theorem Block.wakeJob_notNewer : (b.wakeJob e p).2 ≤ e.curGen p := by
  unfold Block.wakeJob
  extract_lets
  split
  case isTrue => exact Nat.le_refl _
  case isFalse =>
    split
    case h_1 =>
      split
      case isTrue => exact Nat.le_refl _
      case isFalse => exact Block.progressLoaded_notNewer _ _ _
    case h_2 => exact Block.progressRewound_notNewer _ _ _
    case h_3 => exact Nat.le_refl _

end Unit

/-! ## Effects on the map of current generations -/

section Cur
variable (b : Block) (e : Env)

theorem Block.controlCur_retreats {f : Block → Nat → Block × Nat} (hf : ∀ b p, (f b p).2 ≤ e.curGen p) (part ctype : Nat)
    (m : GenMsg) : Retreats e.cur (b.controlCur e part ctype m f).2 := by
  unfold Block.controlCur
  extract_lets
  split
  case h_1 p _ => exact (Retreats.refl _).mset (hf _ p)
  case h_2 => exact .refl _

theorem Block.doRewound_retreats (part : Nat) (m : GenMsg) : Retreats e.cur (b.doRewound e part m).2 := by
  refine Block.controlCur_retreats b e (fun b p => ?_) part 8 m
  split
  case isTrue => exact Block.progressRewound_notNewer _ _ _
  case isFalse => exact Nat.le_refl _

theorem Block.doRestart_retreats (part : Nat) (m : GenMsg) : Retreats e.cur (b.doRestart e part m).2 := by
  refine Block.controlCur_retreats b e (fun b p => ?_) part 9 m
  extract_lets
  split
  case isTrue => exact Block.onRestart_notNewer _ _ _ _ _ _
  case isFalse => exact Nat.le_refl _

theorem Block.doLoaded_retreats (part : Nat) (m : GenMsg) : Retreats e.cur (b.doLoaded e part m).2 := by
  refine Block.controlCur_retreats b e (fun b p => ?_) part 10 m
  split
  case isTrue => exact Block.onLoaded_notNewer _ _ _ _
  case isFalse => exact Nat.le_refl _

theorem Block.doPartResetDone_notNewer (p : Nat) : (b.doPartResetDone e p).2 ≤ e.curGen p :=
  Block.progressRewound_notNewer _ _ _

theorem Block.wake_retreats (was : Nat) : Retreats e.cur (b.wake e was).2 := by
  unfold Block.wake
  split
  case isTrue => exact .refl _
  case isFalse =>
    refine Retreats.foldl (fun a p ha => ?_) _ (.refl _)
    exact ha.mset (Nat.le_trans (Block.wakeJob_notNewer ..) (ha.notNewer p))

theorem Block.doRetainedSequence_retreats : Retreats e.cur (b.doRetainedSequence e).2 := by
  unfold Block.doRetainedSequence
  split
  case h_1 => exact .refl _
  case h_2 =>
    split
    case isTrue => exact .refl _
    case isFalse =>
      refine Retreats.foldl (fun a p ha => ?_) _ (.refl _)
      split
      case isTrue => exact ha.mset (Block.progressRewound_notNewer _ _ p)
      case isFalse => exact ha

/-- FIX_TICK leaves the current generations, or makes the next one current in its own partition. -/
theorem Block.doFixTick_cur (p : Nat) :
    (b.doFixTick e p).2 = e.cur ∨ (b.doFixTick e p).2 = mset 0 e.cur p ((e.curGen p + 1) % 2 ^ 48) := by
  unfold Block.doFixTick
  extract_lets
  split
  case h_1 => exact .inl rfl
  case h_2 =>
    split
    case isTrue => exact .inl rfl
    case isFalse => exact .inr rfl

/-! ## LOAD -/

theorem leNat_lt (bs : List Byte) : leNat bs < 256 ^ bs.length := by
  induction bs with
  | nil => exact Nat.one_pos
  | cons x bs ih =>
    have hx : x.toNat < 256 := x.isLt
    rw [leNat, List.length_cons, Nat.pow_succ]
    omega

theorem leAt_lt (bs : List Byte) (off n : Nat) : leAt bs off n < 256 ^ n :=
  Nat.lt_of_lt_of_le (leNat_lt _) (Nat.pow_le_pow_right (by decide) (List.length_take_le _ _))

/-- The start generation of a load block is its 48-bit field (R319). -/
theorem LoadBlock.ofBytes_g0_lt (bs : List Byte) : (LoadBlock.ofBytes bs).g0 < 2 ^ 48 := leAt_lt bs 16 6

/-- An accepted load takes its partition to the start generation, or behind it. -/
theorem Block.acceptLoad_retreats (q : Nat) (r : Running) (k : LoadBlock) (base : Nat) (c : Container) :
    Retreats (mset 0 e.cur k.part k.g0) (b.acceptLoad e q r k base c).2 := by
  unfold Block.acceptLoad
  extract_lets p _ _ _ _ _ _ _ _ _ _ b' e' o
  have hnotNewer : o.2 ≤ e'.curGen p := b'.progressLoaded_notNewer e' p
  clear_value o
  exact (Retreats.refl e'.cur).mset hnotNewer

/-- LOAD takes one partition at most to a 48-bit start generation at most. -/
theorem Block.doLoad_retreats (q : Nat) : ∃ d, SetsOne e.cur d ∧ Retreats d (b.doLoad e q).2 := by
  have kept : ∀ c : Block, ∃ d, SetsOne e.cur d ∧ Retreats d (c, e.cur).2 := fun _ => ⟨_, .inl rfl, .refl _⟩
  unfold Block.doLoad
  split
  case h_1 => exact kept _
  case h_2 =>
    extract_lets
    split
    case h_1 => exact kept _
    case h_2 =>
      split
      case isTrue => exact kept _
      case isFalse =>
        split
        case h_1 => exact kept _
        case h_2 =>
          split
          case isTrue => exact kept _
          case isFalse =>
            split
            case h_1 => exact kept _
            case h_2 => exact ⟨_, .inr ⟨_, _, LoadBlock.ofBytes_g0_lt _, rfl⟩, Block.acceptLoad_retreats ..⟩

end Cur

/-! ## What a command does to the state -/

/-- From `s` to `t` the queue stands, campus time has not run back, and no generation became newer. -/
structure Follows (s t : State) : Prop where
  pending : t.pending = s.pending
  now : NotBefore s t
  frac : s.time.frac < 65536 → t.time.frac < 65536
  cur : Retreats s.cur t.cur

theorem Follows.refl (s : State) : Follows s s := ⟨rfl, Nat.le_refl _, id, .refl _⟩

theorem Follows.trans {s t u : State} (h : Follows s t) (k : Follows t u) : Follows s u where
  pending := k.pending.trans h.pending
  now := Nat.le_trans h.now k.now
  frac := k.frac ∘ h.frac
  cur := h.cur.trans k.cur

/-- Where campus time stands, it is enough to know the queue and the generations. -/
theorem Follows.atOnce {s t : State} (hp : t.pending = s.pending) (ht : t.time = s.time) (hc : Retreats s.cur t.cur) :
    Follows s t where
  pending := hp
  now := Nat.le_of_eq (congrArg Clock.now ht.symm)
  frac := by rw [ht]; exact id
  cur := hc

section Moves
variable (s : State)

theorem Follows.always (f : Block → Block) : Follows s (s.always f) := .atOnce rfl rfl (.refl _)

theorem Follows.onBlock (f : Env → Block → Block) : Follows s (s.onBlock f) :=
  .atOnce (s.onBlock_pending f) (s.onBlock_time f) (s.onBlock_cur f ▸ .refl _)

theorem Follows.onTap (f : Block → Block) : Follows s (s.onTap f) :=
  .atOnce (s.onTap_pending f) (s.onTap_time f) (s.onTap_cur f ▸ .refl _)

theorem Follows.onCur {f : Env → Block → Block × SMap Nat} (hf : Retreats s.env.cur (f s.env s.blk).2) :
    Follows s (s.onCur f) := by
  refine .atOnce (s.onCur_pending f) (s.onCur_time f) ?_
  unfold State.onCur
  split
  case isTrue => exact hf
  case isFalse => exact .refl _

theorem Follows.onPart {f : Env → Block → Block × Nat} {p : Nat} (hf : (f s.env s.blk).2 ≤ s.env.curGen p) :
    Follows s (s.onPart p f) :=
  .onCur s ((Retreats.refl _).mset hf)

theorem Follows.woken (was : Nat) : Follows s (s.woken was) := .onCur s (Block.wake_retreats _ _ was)

theorem State.advanceTo_frac (t : Nat) : s.time.frac < 65536 → (s.advanceTo t).time.frac < 65536 := by
  unfold State.advanceTo
  split
  case isTrue => exact fun _ => (by decide : 0 < 65536)
  case isFalse => exact id

theorem Follows.advanceTo (t : Nat) : Follows s (s.advanceTo t) where
  pending := s.advanceTo_pending t
  now := by rw [NotBefore, State.advanceTo_now]; exact Nat.le_max_left _ _
  frac := s.advanceTo_frac t
  cur := s.advanceTo_cur t ▸ .refl _

theorem Follows.eventAt (due : Option Nat) : Follows s (s.eventAt due) := by
  cases due with
  | none => exact .refl s
  | some t => exact .advanceTo s t

theorem Follows.scheduled (due : Option Nat) : Follows s (s.scheduled due) := by
  cases due with
  | none => exact .refl s
  | some t =>
    unfold State.scheduled
    dsimp only
    split
    case isTrue => exact .onBlock s _
    case isFalse => exact .advanceTo s t

/-- An effect on the block at a timed event. -/
theorem Follows.onEvent (due : Option Nat) (f : Env → Block → Block) : Follows s ((s.eventAt due).onBlock f) :=
  (Follows.eventAt s due).trans (.onBlock _ f)

/-- An effect on the block at a scheduled tick. -/
theorem Follows.onTick (due : Option Nat) (f : Env → Block → Block) : Follows s ((s.scheduled due).onBlock f) :=
  (Follows.scheduled s due).trans (.onBlock _ f)

/-- A Sync message that steps the count steps it forward (R182). -/
theorem Block.now_le_of_syncSteps {b : Block} {c : Clock} {us frac : Nat} (hf : frac < 65536) (h : b.syncSteps c us frac = true) :
    c.now ≤ us := by
  have hforward : fixedTime c.now c.frac < fixedTime us frac := of_decide_eq_true (Bool.and_eq_true_iff.mp h).2
  unfold fixedTime at hforward
  omega

theorem Follows.ptpSync (us : Nat) {frac : Nat} (hf : frac < 65536) : Follows s (s.ptpSync us frac) := by
  refine Follows.trans ?_ (.woken _ _)
  refine (Follows.onBlock s (fun e b => b.doPtpSync e us frac)).trans ?_
  split
  case isTrue h =>
    obtain ⟨_, hsteps⟩ := Bool.and_eq_true_iff.mp h
    refine ⟨rfl, ?_, fun _ => hf, .refl _⟩
    rw [NotBefore, State.onBlock_time]
    exact Block.now_le_of_syncSteps hf hsteps
  case isFalse => exact .refl _

theorem Follows.ctMsEdge (dev dis : Int) : Follows s (s.ctMsEdge dev dis) := (Follows.onEvent s _ _).trans (.woken _ _)

theorem Follows.thermalSample (readings : List Reading) : Follows s (s.thermalSample readings) := by
  refine (Follows.eventAt s (some (s.slot 100))).trans ?_
  unfold State.thermalSample
  extract_lets
  split
  case isTrue => exact .atOnce rfl rfl (.refl _)
  case isFalse => exact .refl _

end Moves

/-! ## The commands -/

section Commands
variable (s : State)

/-- Where a command may start from in `s`: `s` itself, but for the time that COLD_RESET starts anew and the generation that FIX_TICK
or LOAD makes current. -/
structure Origin (c : Instr) (s u : State) : Prop where
  pending : u.pending = s.pending
  time : u.time = s.time ∨ (StartsTime c ∧ u.time.frac = 0)
  cur : SetsOne s.cur u.cur
  curKept : ¬AdvancesGeneration c → u.cur = s.cur

theorem Origin.refl (c : Instr) (s : State) : Origin c s s := ⟨rfl, .inl rfl, .inl rfl, fun _ => rfl⟩

/-- FIX_TICK leaves the current generations, or makes the next one current in its own partition. -/
theorem exec_fixTick_cur (p : Fin 8) : ∃ t, exec (.fixTick p) s = .next t ∧ Follows { s with cur := t.cur } t ∧
    (t.cur = s.cur ∨ t.cur = mset 0 s.cur p ((mget 0 s.cur p + 1) % 2 ^ 48)) := by
  have hreach : Follows s (s.scheduled (s.blk.fixDue p)) := .scheduled s _
  refine ⟨_, rfl, ⟨?_, ?_, ?_, .refl _⟩, ?_⟩
  · exact (State.onCur_pending _ _).trans hreach.pending
  · rw [NotBefore, State.onCur_time]; exact hreach.now
  · rw [State.onCur_time]; exact hreach.frac
  · rw [← s.scheduled_cur (s.blk.fixDue p)]
    unfold State.onCur
    split
    case isTrue => exact Block.doFixTick_cur _ _ p
    case isFalse => exact .inl rfl

theorem exec_fixTick_origin (p : Fin 8) : ∃ t u, exec (.fixTick p) s = .next t ∧ Origin (.fixTick p) s u ∧ Follows u t := by
  obtain ⟨t, ht, hfollows, hcur⟩ := exec_fixTick_cur s p
  have hset : SetsOne s.cur t.cur := hcur.imp id fun h => ⟨p, _, Nat.mod_lt _ (by decide), h⟩
  exact ⟨t, { s with cur := t.cur }, ht, ⟨rfl, .inl rfl, hset, fun hkept => absurd trivial hkept⟩, hfollows⟩

theorem exec_load_origin (q : Fin 256) : ∃ t u, exec (.load q) s = .next t ∧ Origin (.load q) s u ∧ Follows u t := by
  by_cases hup : s.Up
  · obtain ⟨d, hset, hretreats⟩ := Block.doLoad_retreats s.blk s.env q
    exact ⟨_, { s with cur := d }, congrArg Host.Outcome.next (s.onCur_up _ hup),
      ⟨rfl, .inl rfl, hset, fun hkept => absurd trivial hkept⟩, .atOnce rfl rfl hretreats⟩
  · exact ⟨s, s, congrArg Host.Outcome.next (if_neg hup), .refl _ s, .refl s⟩

/-- COLD_RESET starts time anew with no generation; where the module may not start, it raises the pin alone. -/
theorem exec_coldReset_origin (f : BootFinds) :
    ∃ t u, exec (.coldReset f) s = .next t ∧ Origin (.coldReset f) s u ∧ Follows u t := by
  by_cases hstart : s.blk.mayStart = true
  · exact ⟨_, { s with time := { now := 1000 * f.ms } }, congrArg Host.Outcome.next (if_pos hstart),
      ⟨rfl, .inr ⟨trivial, rfl⟩, .inl rfl, fun _ => rfl⟩, .atOnce rfl rfl (.nil _)⟩
  · exact ⟨_, s, congrArg Host.Outcome.next (if_neg hstart), .refl _ s, .always s _⟩

/-- What a command answers follows from where it starts; a sample beyond the ratings faults. The split is by how a command reaches
the block; every command that no case names acts on the powered block at once. -/
theorem exec_answers (c : Instr) : (∃ t u, exec c s = .next t ∧ Origin c s u ∧ Follows u t) ∨
    (∃ v i, c = .powerSample v i ∧ (7200 < v.val ∨ 20000 < i.val) ∧ exec c s = .fault .absoluteMaximum) := by
  cases c
  case coldReset f => exact .inl (exec_coldReset_origin s f)
  case fixTick p => exact .inl (exec_fixTick_origin s p)
  case load q => exact .inl (exec_load_origin s q)
  case powerSample v i =>
    by_cases hbeyond : (7200 < v.val || 20000 < i.val) = true
    · exact .inr ⟨v, i, rfl, by simpa using hbeyond, if_pos hbeyond⟩
    · exact .inl ⟨_, s, if_neg hbeyond, .refl _ s, .onEvent ..⟩
  case rewound p m => exact .inl ⟨_, s, rfl, .refl _ s, .onCur s (Block.doRewound_retreats _ _ p m)⟩
  case restart p m => exact .inl ⟨_, s, rfl, .refl _ s, .onCur s (Block.doRestart_retreats _ _ p m)⟩
  case loaded p m => exact .inl ⟨_, s, rfl, .refl _ s, .onCur s (Block.doLoaded_retreats _ _ p m)⟩
  case retainedResetSequence => exact .inl ⟨_, s, rfl, .refl _ s, .onCur s (Block.doRetainedSequence_retreats _ _)⟩
  case partitionResetDone p => exact .inl ⟨_, s, rfl, .refl _ s, .onPart s (Block.doPartResetDone_notNewer _ _ p)⟩
  case ptpSync us f => exact .inl ⟨_, s, rfl, .refl _ s, .ptpSync s us f.isLt⟩
  case ctMsEdge dev dis => exact .inl ⟨_, s, rfl, .refl _ s, .ctMsEdge s dev dis⟩
  case thermalSample readings => exact .inl ⟨_, s, rfl, .refl _ s, .thermalSample s readings⟩
  case modulePowerUp | powerFail | resetNAssertion => exact .inl ⟨_, s, rfl, .refl _ s, .always s _⟩
  case bypass | idcode | sample | extest => exact .inl ⟨_, s, rfl, .refl _ s, .onTap s _⟩
  case restartGate | deadlineExpiry | timeSliceEnd | swallowStart | pllSwitch | directiveEffect | directiveExpire | stepGate =>
    exact .inl ⟨_, s, rfl, .refl _ s, .onTick s _ _⟩
  case loadedRepeat | orderTimeout | exposeTimeout | rejoinTimeout | hangEscalation | msixModerationExpiry | snapshotTick
      | tlimitUpdate | nakRetryTimeout | upgradeAttempt | directionLost | skewMillisecond | skewedSecond | holdoverLimit | gridLost
      | generatedMainsCycle | estimateScale | budgetDivision | flatFieldOffer | levelChange | pllSwitchRetry | voltageStep
      | curtailMiss =>
    exact .inl ⟨_, s, rfl, .refl _ s, .onEvent s _ _⟩
  all_goals exact .inl ⟨_, s, rfl, .refl _ s, .onBlock s _⟩

/-- A command that answers a next state took it from where it started. -/
theorem exec_next_origin {c : Instr} {t : State} (h : exec c s = .next t) : ∃ u, Origin c s u ∧ Follows u t := by
  obtain ⟨t', u, ht, horigin, hfollows⟩ | ⟨_, _, _, _, hfault⟩ := exec_answers s c
  · obtain rfl : t' = t := Host.Outcome.next.inj (ht.symm.trans h)
    exact ⟨u, horigin, hfollows⟩
  · cases hfault.symm.trans h

end Commands

/-! ## The invariant -/

theorem Origin.sound {c : Instr} {s u : State} (h : Origin c s u) (hs : s.Sound) : u.Sound := by
  obtain ⟨hmwf, hgen, hfrac, hwf⟩ := hs
  refine ⟨h.cur.canonical hmwf, h.cur.bounded hgen, ?_, h.pending ▸ hwf⟩
  obtain htime | ⟨_, hzero⟩ := h.time
  · exact htime ▸ hfrac
  · exact hzero ▸ (by decide : 0 < 65536)

theorem Follows.sound {s t : State} (h : Follows s t) (hs : s.Sound) : t.Sound := by
  obtain ⟨hmwf, hgen, hfrac, hwf⟩ := hs
  exact ⟨h.cur.canonical hmwf, fun p => Nat.lt_of_le_of_lt (h.cur.notNewer p) (hgen p), h.frac hfrac, h.pending ▸ hwf⟩

theorem exec_sound {c : Instr} {s t : State} (hs : s.Sound) (h : exec c s = .next t) : t.Sound := by
  obtain ⟨u, horigin, hfollows⟩ := exec_next_origin s h
  exact hfollows.sound (horigin.sound hs)

theorem step_sound {s t : State} (hs : s.Sound) (h : step s = .next t) : t.Sound := by
  unfold step at h
  split at h
  case h_1 => exact Host.Outcome.next.inj h ▸ (Follows.advanceTo s _).sound hs
  case h_2 i rest hpending =>
    obtain ⟨hmwf, hgen, hfrac, hwf⟩ := hs
    have hrest : ({ s with pending := rest } : State).Sound :=
      ⟨hmwf, hgen, hfrac, fun j hj => hwf j (hpending.symm ▸ List.mem_cons_of_mem i hj)⟩
    exact exec_sound hrest h

end Sys2Proof.Machine

namespace Sys2Proof
open Machine

/-- Settles O60: every command starts from the state it finds, but for the time of COLD_RESET and the generation of FIX_TICK and
LOAD (`Origin`), and goes on from there with the queue kept, time not back and no generation newer (`Follows`). -/
theorem everyStepKeepsOrder : Obligations.EveryStepKeepsOrder := by
  unfold Obligations.EveryStepKeepsOrder
  refine ⟨fun s t hs h => step_sound hs h, fun c s => ?_, fun c s t h => ?_, fun p s t q h => ?_⟩
  case refine_1 => exact (exec_answers s c).imp (fun ⟨t, _, ht, _⟩ => ⟨t, ht⟩) id
  case refine_2 =>
    obtain ⟨u, horigin, hfollows⟩ := exec_next_origin s h
    refine ⟨hfollows.pending.trans horigin.pending, fun hstart => ?_, fun hadvance p => ?_⟩
    · have htime : u.time = s.time := horigin.time.resolve_right fun hr => hstart hr.1
      rw [NotBefore, ← htime]
      exact hfollows.now
    · exact horigin.curKept hadvance ▸ hfollows.cur.notNewer p
  case refine_3 =>
    obtain ⟨t', ht, _, hcur⟩ := exec_fixTick_cur s p
    obtain rfl : t' = t := Host.Outcome.next.inj (ht.symm.trans h)
    obtain hcur | hcur := hcur
    · exact .inl (congrArg (mget 0 · q) hcur)
    · rw [hcur, mget_mset]
      split
      case isTrue hq => exact .inr ⟨hq.symm, rfl⟩
      case isFalse => exact .inl rfl

end Sys2Proof
end

section
/-! PROOFS. The fix, the gates and the timeouts of the generation unit (R15, R19, R149, R164, R165, R167, R170, R171, R183). -/
namespace Sys2Proof.Machine

/-! ## The commands on a running module -/

section Commands
variable {s s' : State} (p : Fin 8)

theorem exec_fixTick_up (hs : s' = s.scheduled (s.blk.fixDue p)) (hup : s'.Up) :
    exec (.fixTick p) s = .next { s' with blk := (s'.blk.doFixTick s'.env p).1, cur := (s'.blk.doFixTick s'.env p).2 } := by
  subst hs; exact congrArg Host.Outcome.next (State.onCur_up _ _ hup)

theorem exec_stepGate_up (hs : s' = s.scheduled (s.blk.gateDue p)) (hup : s'.Up) :
    exec (.stepGate p) s = .next { s' with blk := s'.blk.doStepGate s'.env p } := by
  subst hs; exact congrArg Host.Outcome.next (State.onBlock_up _ _ hup)

theorem exec_restartGate_up (hs : s' = s.scheduled (s.blk.gateDue p)) (hup : s'.Up) :
    exec (.restartGate p) s = .next { s' with blk := s'.blk.doRestartGate s'.env p } := by
  subst hs; exact congrArg Host.Outcome.next (State.onBlock_up _ _ hup)

theorem exec_loadedRepeat_up (hs : s' = s.eventAt (s.blk.loadedDue p)) (hup : s'.Up) :
    exec (.loadedRepeat p) s = .next { s' with blk := s'.blk.doLoadedRepeat s'.env p } := by
  subst hs; exact congrArg Host.Outcome.next (State.onBlock_up _ _ hup)

theorem exec_orderTimeout_up (hs : s' = s.eventAt (s.blk.orderDue p)) (hup : s'.Up) :
    exec (.orderTimeout p) s = .next { s' with blk := s'.blk.doOrderTimeout s'.env p } := by
  subst hs; exact congrArg Host.Outcome.next (State.onBlock_up _ _ hup)

theorem exec_exposeTimeout_up (hs : s' = s.eventAt (s.blk.exposeDue p)) (hup : s'.Up) :
    exec (.exposeTimeout p) s = .next { s' with blk := s'.blk.doExposeTimeout s'.env p } := by
  subst hs; exact congrArg Host.Outcome.next (State.onBlock_up _ _ hup)

theorem exec_rejoinTimeout_up (hs : s' = s.eventAt (s.blk.rejoinDue p)) (hup : s'.Up) :
    exec (.rejoinTimeout p) s = .next { s' with blk := s'.blk.doRejoinTimeout s'.env p } := by
  subst hs; exact congrArg Host.Outcome.next (State.onBlock_up _ _ hup)

end Commands

/-! ## The fix -/

section Fix
variable (b : Block) (e : Env) (p : Nat)

/-- The fix touches the integrity unit and this generation unit; the latter is in state 4, unconfirmed, its ORDER taken. -/
theorem Block.fixNow_gen (o : Order) : (b.fixNow e p o).gen p = { b.gen p with
    regs := { (b.gen p).regs with
      state := 4, prevIntact := !mget false b.int.currentPoison p, orddep := (b.gen p).regs.orddep || o.orddep, fixTick := e.clk.now }
    proto := { (b.gen p).proto with order := none }
    aux := { (b.gen p).aux with
      confirmed := false, gateTick := o.gate, fixAt := mset 0 (b.gen p).aux.fixAt (e.bank p) e.clk.now
      ordAt := mset false (b.gen p).aux.ordAt (e.bank p) ((b.gen p).regs.orddep || o.orddep) } } := by
  simp [Block.fixNow, Block.modGen, Block.setGen, Block.gen]

variable {b e p} {o : Order}

theorem Block.doFixTick_due (horder : (b.gen p).proto.order = some o) (hstate : (b.gen p).regs.state = 3)
    (hagree : b.mayAgree e p = true) (hdue : o.tick ≤ e.clk.now) {e' : Env}
    (he : e' = { e with cur := mset 0 e.cur p ((e.curGen p + 1) % 2 ^ 48) }) :
    (b.doFixTick e p).1 =
      (((b.fixNow e' p o).genEvent e' p 1 0 (e'.curGen p) [(32, 8, e.clk.now)]).appendLists p o.gate).progressFixed e' p ∧
    (b.doFixTick e p).2 = e'.cur := by
  subst he
  simp [Block.doFixTick, horder, hstate, hagree, Nat.not_lt.mpr hdue]

end Fix

/-! ## The gates -/

section Gates
variable {b : Block} {e : Env} {p : Nat} (hopens : b.gateOpens e p = true)
include hopens

theorem Block.doStepGate_opens (hrestart : (b.gen p).proto.restart = none)
    (hstate : (b.gen p).regs.state = 2 ∨ (b.gen p).regs.state = 4) : b.doStepGate e p = b.openGate e p := by
  obtain hstate | hstate := hstate <;> simp [Block.doStepGate, hopens, hrestart, hstate]

/-- RESTART_GATE confirms the target on this device and opens the gate. -/
theorem Block.doRestartGate_opens (hrestart : (b.gen p).proto.restart ≠ none)
    (hstate : (b.gen p).regs.state = 1 ∨ (b.gen p).regs.state = 5) :
    b.doRestartGate e p = (b.modGen p (fun g => { g with
      regs := { g.regs with state := 2, visible := e.curGen p }
      proto := { g.proto with restart := none, fixedGot := [], sentFixed := false }
      aux := { g.aux with confirmed := true, waitFrom := none } })).openGate e p := by
  obtain hstate | hstate := hstate <;> simp [Block.doRestartGate, hopens, hrestart, hstate]

end Gates

/-! ## The timeouts -/

section Timeouts
variable {b : Block} {e : Env} {p t : Nat} (hdue : t ≤ e.clk.now)
include hdue

theorem Block.doLoadedRepeat_due (ht : b.loadedDue p = some t) (hpower : b.clk.pstate ≠ 2) (hagree : b.mayAgree e p = true) :
    b.doLoadedRepeat e p = (b.modAux p (fun a => { a with loadedAt := e.clk.now })).sendGen e p 10 (b.parent p).toList
      { GenMsg.blank with
        gen := (b.gen p).job.g0
        flags := 8 * b2n ((b.gen p).proto.loaded.all (fun r => decide (r.2.1 = (b.gen p).job.g0) && r.2.2)) } := by
  simp [Block.doLoadedRepeat, ht, hpower, hagree, Nat.not_lt.mpr hdue]

theorem Block.doOrderTimeout_due (ht : b.orderDue p = some t) : b.doOrderTimeout e p = b.jobFault e p 7 := by
  simp [Block.doOrderTimeout, ht, hdue]

theorem Block.doExposeTimeout_due (ht : b.exposeDue p = some t) : b.doExposeTimeout e p = b.jobFault e p 7 := by
  simp [Block.doExposeTimeout, ht, hdue]

theorem Block.doRejoinTimeout_due (ht : b.rejoinDue p = some t) (hstate : (b.gen p).regs.state = 1 ∨ (b.gen p).regs.state = 5)
    (hrestart : (b.gen p).proto.restart = none) : b.doRejoinTimeout e p = b.stopJob e p 0 true := by
  simp [Block.doRejoinTimeout, ht, hdue, hstate, hrestart]

end Timeouts

end Sys2Proof.Machine

namespace Sys2Proof
open Machine

/-- Settles O16: each clause is the command on the module brought to its tick (`exec_…_up`), where the effect on the block is the
one of an event that is due (`…_due`, `…_opens`); the unit after the fix is read off `Block.fixNow_gen`. -/
theorem fixAndGatesHappen : Obligations.FixAndGatesHappen := by
  unfold Obligations.FixAndGatesHappen
  intro s p
  refine ⟨?fix, ?gates, ?loaded, ?order, ?expose, ?rejoin⟩
  case fix =>
    intro s' o hs hup horder hstate hagree hdue b e he hb
    have hgen := s'.blk.fixNow_gen e p o
    rw [← hb] at hgen
    refine ⟨?_, ?_, ?_, ?_, ?_⟩
    · obtain ⟨hblk, hcur⟩ := Block.doFixTick_due horder hstate hagree hdue he
      rw [exec_fixTick_up p hs hup, hblk, hcur, ← hb, he]
      rfl
    · rw [hgen, he]; rfl
    all_goals rw [hgen]
  case gates =>
    intro s' hs hup hopens
    refine ⟨fun hrestart hstate => ?_, fun hrestart hstate => ?_⟩
    · rw [exec_stepGate_up p hs hup, Block.doStepGate_opens hopens hrestart hstate]
    · rw [exec_restartGate_up p hs hup, Block.doRestartGate_opens hopens hrestart hstate]; rfl
  case loaded =>
    intro s' t hs hup ht hdue hpower hagree
    rw [exec_loadedRepeat_up p hs hup, Block.doLoadedRepeat_due hdue ht hpower hagree]; rfl
  case order =>
    intro s' t hs hup ht hdue
    rw [exec_orderTimeout_up p hs hup, Block.doOrderTimeout_due hdue ht]
  case expose =>
    intro s' t hs hup ht hdue
    rw [exec_exposeTimeout_up p hs hup, Block.doExposeTimeout_due hdue ht]
  case rejoin =>
    intro s' t hs hup ht hdue hstate hrestart
    rw [exec_rejoinTimeout_up p hs hup, Block.doRejoinTimeout_due hdue ht hstate hrestart]

end Sys2Proof
end

section
/-! PROOFS. Two's complement, and packed elements in their bytes (R36). -/
namespace Sys2Proof.Machine

/-! ## Two's complement -/

section TwosComplement
variable {w : Nat} (hw : 0 < w)

theorem twos_cast (w : Nat) (i : Int) : (twos w i : Int) = i % ((2 ^ w : Nat) : Int) := by
  have hpos : 0 < 2 ^ w := Nat.two_pow_pos w
  exact Int.toNat_of_nonneg (Int.emod_nonneg _ (by omega))

include hw

theorem two_pow_eq_double : 2 ^ w = 2 * 2 ^ (w - 1) := by
  rw [← Nat.pow_succ', Nat.succ_eq_add_one, Nat.sub_add_cancel hw]

/-- Two's complement is the balanced residue modulo 2^w. -/
theorem sext_eq_bmod (v : Nat) : sext w v = Int.bmod v (2 ^ w) := by
  have hspan := two_pow_eq_double hw
  rw [Int.bmod_def, ← Int.natCast_emod]
  simp only [sext]
  generalize v % 2 ^ w = u
  generalize 2 ^ w = m at hspan ⊢
  generalize 2 ^ (w - 1) = h at hspan ⊢
  refine ite_congr (propext ?_) (fun _ => rfl) (fun _ => rfl)
  omega

theorem sext_range (v : Nat) : -((2 ^ (w - 1) : Nat) : Int) ≤ sext w v ∧ sext w v < ((2 ^ (w - 1) : Nat) : Int) := by
  have hspan := two_pow_eq_double hw
  have hlo := Int.le_bmod (x := v) (Nat.two_pow_pos w)
  have hhi := Int.bmod_lt (x := v) (Nat.two_pow_pos w)
  rw [← sext_eq_bmod hw, hspan] at hlo hhi
  omega

/-- The two's-complement reading of a number's low bits is the number's balanced residue. -/
theorem sext_twos_eq_bmod (i : Int) : sext w (twos w i) = i.bmod (2 ^ w) := by
  rw [sext_eq_bmod hw, twos_cast, Int.emod_bmod]

theorem sext_twos_emod (i : Int) : sext w (twos w i) % ((2 ^ w : Nat) : Int) = i % ((2 ^ w : Nat) : Int) := by
  rw [sext_twos_eq_bmod hw, Int.bmod_emod]

/-- A number of the range is the value of its code. -/
theorem sext_twos {i : Int} (hlo : -((2 ^ (w - 1) : Nat) : Int) ≤ i) (hhi : i < ((2 ^ (w - 1) : Nat) : Int)) :
    sext w (twos w i) = i := by
  have hspan := two_pow_eq_double hw
  rw [sext_twos_eq_bmod hw]
  exact Int.bmod_eq_of_le (by omega) (by omega)

end TwosComplement

/-! ## Bytes of a byte string -/

theorem leNat_drop (bs : List Byte) (k : Nat) : leNat (bs.drop k) = leNat bs / 2 ^ (8 * k) := by
  induction k generalizing bs with
  | zero => simp
  | succ k ih =>
    cases bs with
    | nil => simp [leNat]
    | cons b bs =>
      have hb : b.toNat < 256 := b.isLt
      rw [List.drop_succ_cons, ih, leNat, Nat.mul_succ, Nat.pow_add, Nat.mul_comm (2 ^ (8 * k)), ← Nat.div_div_eq_div_mul]
      congr 1
      omega

theorem leNat_take (bs : List Byte) (n : Nat) : leNat (bs.take n) = leNat bs % 2 ^ (8 * n) := by
  induction n generalizing bs with
  | zero => simp [leNat, Nat.mod_one]
  | succ n ih =>
    cases bs with
    | nil => simp [leNat]
    | cons b bs =>
      have hb : b.toNat < 256 := b.isLt
      rw [List.take_succ_cons, leNat, leNat, ih, Nat.mul_succ, Nat.pow_add, Nat.mul_comm (2 ^ (8 * n)), Nat.mod_mul]
      have hlow : (b.toNat + 256 * leNat bs) % 2 ^ 8 = b.toNat := by omega
      have hhigh : (b.toNat + 256 * leNat bs) / 2 ^ 8 = leNat bs := by omega
      rw [hlow, hhigh]

/-- Bits of a run of bytes are bits of the whole string. -/
theorem bits_leAt (bs : List Byte) {off n hi lo : Nat} (hlo : lo ≤ hi) (hhi : hi < 8 * n) :
    bits (leAt bs off n) hi lo = bits (leNat bs) (8 * off + hi) (8 * off + lo) := by
  have hdvd : 2 ^ (hi + 1 - lo) ∣ 2 ^ (8 * n - lo) := Nat.pow_dvd_pow 2 (by omega)
  have hsplit : 2 ^ (8 * n) = 2 ^ lo * 2 ^ (8 * n - lo) := by rw [← Nat.pow_add]; congr 1; omega
  have hwidth : 8 * off + hi + 1 - (8 * off + lo) = hi + 1 - lo := by omega
  rw [leAt, leNat_take, leNat_drop, bits, bits, Nat.shiftRight_eq_div_pow, Nat.shiftRight_eq_div_pow, hsplit,
    Nat.mod_mul_right_div_self, Nat.mod_mod_of_dvd _ hdvd, Nat.div_div_eq_div_mul, ← Nat.pow_add, hwidth]

theorem leAt_succ (bs : List Byte) (off n : Nat) :
    leAt bs off (n + 1) = (bs.getD off 0).toNat + 256 * leAt bs (off + 1) n := by
  obtain hlt | hge := Nat.lt_or_ge off bs.length
  · have hbyte : bs.getD off 0 = bs[off] := by rw [List.getD_eq_getElem?_getD, List.getElem?_eq_getElem hlt, Option.getD_some]
    rw [hbyte, leAt, List.drop_eq_getElem_cons hlt]
    rfl
  · have hbyte : bs.getD off 0 = 0 := by rw [List.getD_eq_getElem?_getD, List.getElem?_eq_none hge, Option.getD_none]
    rw [hbyte, leAt, leAt, List.drop_eq_nil_of_le hge, List.drop_eq_nil_of_le (Nat.le_succ_of_le hge), List.take_nil, List.take_nil]
    rfl

theorem leAt_one (bs : List Byte) (off : Nat) : leAt bs off 1 = (bs.getD off 0).toNat := leAt_succ bs off 0

theorem leAt_three (bs : List Byte) (off : Nat) : leAt bs off 3 =
    (bs.getD off 0).toNat + 256 * (bs.getD (off + 1) 0).toNat + 65536 * (bs.getD (off + 2) 0).toNat := by
  have hnext : off + 1 + 1 = off + 2 := rfl
  rw [leAt_succ, leAt_succ, leAt_one, hnext]
  omega

/-! ## Elements of less than a byte (R36) -/

section Small
variable {f : Fmt} (bs : List Byte)

theorem elemRaw_nibble (hf : f.elemBits = 4) (i : Nat) :
    elemRaw f bs i = bits (leAt bs (i / 2) 1) (4 * (i % 2) + 3) (4 * (i % 2)) := by
  simp [elemRaw, hf]

theorem elemRaw_sextet (hf : f.elemBits = 6) (i : Nat) :
    elemRaw f bs i = bits (leAt bs (3 * (i / 4)) 3) (6 * (i % 4) + 5) (6 * (i % 4)) := by
  simp [elemRaw, hf]

theorem elemRaw_nibble_even (hf : f.elemBits = 4) (i : Nat) : elemRaw f bs (2 * i) = (bs.getD i 0).toNat % 16 := by
  have hbyte : 2 * i / 2 = i := by omega
  have hplace : 2 * i % 2 = 0 := by omega
  rw [elemRaw_nibble bs hf, hbyte, hplace, leAt_one]
  rfl

theorem elemRaw_nibble_odd (hf : f.elemBits = 4) (i : Nat) : elemRaw f bs (2 * i + 1) = (bs.getD i 0).toNat / 16 := by
  have hbyte : (2 * i + 1) / 2 = i := by omega
  have hplace : (2 * i + 1) % 2 = 1 := by omega
  have hlt : (bs.getD i 0).toNat < 256 := (bs.getD i 0).isLt
  rw [elemRaw_nibble bs hf, hbyte, hplace, leAt_one, bits, Nat.shiftRight_eq_div_pow]
  omega

theorem elemRaw_sextet_at (hf : f.elemBits = 6) (i : Nat) {j : Nat} (hj : j < 4) : elemRaw f bs (4 * i + j) =
    ((bs.getD (3 * i) 0).toNat + 256 * (bs.getD (3 * i + 1) 0).toNat + 65536 * (bs.getD (3 * i + 2) 0).toNat)
      / 2 ^ (6 * j) % 64 := by
  have hsize : 2 ^ 6 = 64 := rfl
  have hword : (4 * i + j) / 4 = i := by omega
  have hplace : (4 * i + j) % 4 = j := by omega
  have hwidth : 6 * j + 5 + 1 - 6 * j = 6 := by omega
  rw [elemRaw_sextet bs hf, hword, hplace, leAt_three, bits, hwidth, Nat.shiftRight_eq_div_pow, hsize]

/-- Elements of 4 and 6 bits follow each other without a gap in the number that the bytes spell. -/
theorem elemRaw_eq_bits (hf : f.elemBits = 4 ∨ f.elemBits = 6) (i : Nat) :
    elemRaw f bs i = leNat bs / 2 ^ (f.elemBits * i) % 2 ^ f.elemBits := by
  obtain hf | hf := hf
  · have hplace : 8 * (i / 2) + 4 * (i % 2) = 4 * i := by omega
    have hwidth : 8 * (i / 2) + (4 * (i % 2) + 3) + 1 - 4 * i = 4 := by omega
    rw [elemRaw_nibble bs hf, bits_leAt bs (by omega) (by omega), bits, hplace, hwidth, Nat.shiftRight_eq_div_pow, hf]
  · have hplace : 8 * (3 * (i / 4)) + 6 * (i % 4) = 6 * i := by omega
    have hwidth : 8 * (3 * (i / 4)) + (6 * (i % 4) + 5) + 1 - 6 * i = 6 := by omega
    rw [elemRaw_sextet bs hf, bits_leAt bs (by omega) (by omega), bits, hplace, hwidth, Nat.shiftRight_eq_div_pow, hf]

end Small

/-! ## Packing -/

/-- Values of `w` bits as one number, the first lowest. -/
def packNat (w : Nat) (xs : List Nat) : Nat := xs.foldr (fun x acc => x % 2 ^ w + 2 ^ w * acc) 0

theorem packNat_lt (w : Nat) (xs : List Nat) : packNat w xs < 2 ^ (xs.length * w) := by
  induction xs with
  | nil => simp [packNat]
  | cons x xs ih =>
    have hx : x % 2 ^ w < 2 ^ w := Nat.mod_lt _ (Nat.two_pow_pos w)
    have hrest : 2 ^ w * (packNat w xs + 1) ≤ 2 ^ w * 2 ^ (xs.length * w) := Nat.mul_le_mul_left _ ih
    rw [List.length_cons, Nat.succ_mul, Nat.add_comm, Nat.pow_add]
    show x % 2 ^ w + 2 ^ w * packNat w xs < _
    rw [Nat.mul_succ] at hrest
    omega

theorem packNat_digit (w : Nat) (xs : List Nat) (i : Nat) : packNat w xs / 2 ^ (w * i) % 2 ^ w = xs.getD i 0 % 2 ^ w := by
  induction xs generalizing i with
  | nil => simp [packNat]
  | cons x xs ih =>
    have hpos : 0 < 2 ^ w := Nat.two_pow_pos w
    show (x % 2 ^ w + 2 ^ w * packNat w xs) / 2 ^ (w * i) % 2 ^ w = _
    cases i with
    | zero => simp
    | succ i =>
      rw [Nat.mul_succ, Nat.add_comm (w * i), Nat.pow_add, ← Nat.div_div_eq_div_mul, Nat.add_mul_div_left _ _ hpos,
        Nat.div_eq_of_lt (Nat.mod_lt _ hpos), Nat.zero_add, ih, List.getD_cons_succ]

/-- The packed bytes spell the whole number: they have room for every bit (R36). -/
theorem leNat_packRaw (f : Fmt) (xs : List Nat) : leNat (packRaw f xs) = packNat f.elemBits xs := by
  have hroom : xs.length * f.elemBits ≤ 8 * f.packed xs.length := by
    simp only [Fmt.packed, ceilDiv]
    omega
  exact leNat_leBytes_of_lt _ _ (Nat.lt_of_lt_of_le (packNat_lt _ xs) (Nat.pow_le_pow_right (by decide) hroom))

theorem elemRaw_packRaw {f : Fmt} (hf : f.elemBits = 4 ∨ f.elemBits = 6) (xs : List Nat) (i : Nat) :
    elemRaw f (packRaw f xs) i = xs.getD i 0 % 2 ^ f.elemBits := by
  rw [elemRaw_eq_bits _ hf, leNat_packRaw, packNat_digit]

/-! ## The integer formats (R36) -/

section Integers
variable (sc : Nat) (i : Int)

theorem elemValue_int8_code (hlo : -128 ≤ i) (hhi : i ≤ 127) : elemValue .int8 sc (i % 256).toNat = (.ofInt i, false) :=
  congrArg (fun v => (Num.ofInt v, false)) (sext_twos (w := 8) (by decide) (by omega) (by omega))

theorem elemValue_int4_code (hlo : -8 ≤ i) (hhi : i ≤ 7) : elemValue .int4 sc (i % 16).toNat = (.ofInt i, false) :=
  congrArg (fun v => (Num.ofInt v, false)) (sext_twos (w := 4) (by decide) (by omega) (by omega))

theorem elemValue_uint8_code (hlo : 0 ≤ i) (hhi : i ≤ 255) : elemValue .uint8 sc i.toNat = (.ofInt i, false) := by
  have hcode : ((i.toNat % 256 : Nat) : Int) = i := by omega
  rw [elemValue, hcode]

variable (raw : Nat)

theorem elemValue_int8_range : ∃ i : Int, -128 ≤ i ∧ i ≤ 127 ∧ elemValue .int8 sc raw = (.ofInt i, false) := by
  obtain ⟨hlo, hhi⟩ := sext_range (w := 8) (by decide) raw
  exact ⟨sext 8 raw, hlo, Int.le_of_lt_add_one hhi, rfl⟩

theorem elemValue_int4_range : ∃ i : Int, -8 ≤ i ∧ i ≤ 7 ∧ elemValue .int4 sc raw = (.ofInt i, false) := by
  obtain ⟨hlo, hhi⟩ := sext_range (w := 4) (by decide) raw
  exact ⟨sext 4 raw, hlo, Int.le_of_lt_add_one hhi, rfl⟩

theorem elemValue_uint8_range : ∃ i : Int, 0 ≤ i ∧ i ≤ 255 ∧ elemValue .uint8 sc raw = (.ofInt i, false) :=
  ⟨(raw % 256 : Nat), by omega, by omega, rfl⟩

end Integers

theorem elemBits_of_mem_nibbles {f : Fmt} (h : f ∈ [Fmt.int4, .mx4]) : f.elemBits = 4 := by
  revert f; decide

theorem elemBits_of_mem_sextets {f : Fmt} (h : f ∈ [Fmt.mx6e2m3, .mx6e3m2]) : f.elemBits = 6 := by
  revert f; decide

theorem elemBits_of_mem_small {f : Fmt} (h : f ∈ [Fmt.int4, .mx4, .mx6e2m3, .mx6e3m2]) : f.elemBits = 4 ∨ f.elemBits = 6 := by
  revert f; decide

end Sys2Proof.Machine

namespace Sys2Proof
open Machine

/-- Settles O56: the integer formats are `sext` of their codes, and the packed elements are the digits of the number that the bytes
spell (`elemRaw_eq_bits`, `packNat_digit`). -/
theorem packedElementsAreInPlace : Obligations.PackedElementsAreInPlace := by
  unfold Obligations.PackedElementsAreInPlace
  refine ⟨fun i sc => ⟨elemValue_int8_code sc i, elemValue_uint8_code sc i, elemValue_int4_code sc i⟩,
    fun raw sc => ⟨elemValue_int8_range sc raw, elemValue_uint8_range sc raw, elemValue_int4_range sc raw⟩,
    fun f hf bs i => ?nibbles, fun f hf bs i j hj => ?sextets, fun f hf xs i _ => ?packed⟩
  case nibbles =>
    exact ⟨elemRaw_nibble_even bs (elemBits_of_mem_nibbles hf) i, elemRaw_nibble_odd bs (elemBits_of_mem_nibbles hf) i⟩
  case sextets => exact elemRaw_sextet_at bs (elemBits_of_mem_sextets hf) i hj
  case packed => exact elemRaw_packRaw (elemBits_of_mem_small hf) xs i

end Sys2Proof
end

section
/-! PROOFS. What a matrix pass leaves in the accumulator entries (R52, R70, R74, R76, R77). -/
namespace Sys2Proof.Machine

/-! ## The entries of a pass -/

theorem mem_tilePairs {mc : Nat} {p : Nat × Nat} : p ∈ tilePairs mc ↔ p.1 < mc ∧ p.2 < 8 := by
  simp only [tilePairs, List.mem_flatMap, List.mem_map, List.mem_range]
  constructor
  · rintro ⟨i, hi, j, hj, rfl⟩
    exact ⟨hi, hj⟩
  · exact fun ⟨hi, hj⟩ => ⟨p.1, hi, p.2, hj, rfl⟩

/-- A pass touches its entries in rising order, each once: rows are 8 entries apart and a tile has 8 columns. -/
theorem nodup_tileEntries (base mc : Nat) : ((tilePairs mc).map (fun p => base + 8 * p.1 + p.2)).Nodup := by
  refine List.pairwise_map.mpr (List.pairwise_flatMap.mpr ⟨fun i _ => ?column, ?rows⟩)
  case column =>
    exact List.pairwise_map.mpr (List.pairwise_lt_range.imp fun {j k} (hjk : j < k) => by omega)
  case rows =>
    refine List.pairwise_lt_range.imp fun {i i'} (hrow : i < i') p hp q hq => ?_
    obtain ⟨j, hj, rfl⟩ := List.mem_map.mp hp
    obtain ⟨k, _, rfl⟩ := List.mem_map.mp hq
    have hcol : j < 8 := List.mem_range.mp hj
    show base + 8 * i + j ≠ base + 8 * i' + k
    omega

/-- Emptying `n` entries from `base` on empties these and no other. -/
theorem accAt_clear (c : Cell) (base n m : Nat) : ((List.range n).foldl (fun c k => c.setAcc (base + k) {}) c).accAt m =
    if base ≤ m ∧ m < base + n then {} else c.accAt m := by
  induction n with
  | zero => rw [if_neg (by omega)]; rfl
  | succ n ih =>
    rw [List.range_succ, List.foldl_append, List.foldl_cons, List.foldl_nil, accAt_setAcc, ih]
    by_cases hlast : base + n = m
    · rw [if_pos hlast, if_pos (by omega)]
    · rw [if_neg hlast]
      exact ite_congr (propext (by omega)) (fun _ => rfl) (fun _ => rfl)

/-! ## Where a pass starts -/

/-- The accumulators that the products of a pass are added to: a first pass of a group with ACC_INIT = 0 empties its entries. -/
def Cell.passStart (c : Cell) (o : OpEntry) (first : Bool) : Cell :=
  if first && !o.accInit then (List.range (8 * o.mc)).foldl (fun c m => c.setAcc (o.accBase + m) {}) c else c

/-- The products of a pass, each added to the entry of its row and column (R52, R70). -/
def CellRun.addTile (r : CellRun) (g : Group) (x : CellCtx) (o : OpEntry) (rows cols : List (List Elem)) : CellRun :=
  (tilePairs o.mc).foldl (fun r p =>
    let d := dot (x.exposure + 8 * g.raised) (rows.getD p.1 []) (cols.getD p.2 [])
    r.add g x.exposure (o.accBase + 8 * p.1 + p.2) d.1 d.2.1 d.2.2) r

section Pass
variable (c : Cell) (x : CellCtx) (o : OpEntry) (n : Nat) (rows cols : List (List Elem)) (bs : List Byte)

theorem Cell.openGroup_first_passes : (c.openGroup o n true).passes = 0 := by
  unfold Cell.openGroup
  split
  case h_1 g _ =>
    by_cases hp : g.passes = 0 <;> simp [hp]
  case h_2 => rfl

theorem Cell.passStart_later : c.passStart o false = c := rfl

theorem Cell.passStart_first (hinit : o.accInit = false) (m : Nat) :
    (c.passStart o true).accAt m = if o.accBase ≤ m ∧ m < o.accBase + 8 * o.mc then {} else c.accAt m := by
  rw [Cell.passStart, hinit]
  exact accAt_clear c o.accBase (8 * o.mc) m

/-- Without a spill, a pass leaves in the accumulators what its products add to where it starts. -/
theorem Cell.mmaElems_accAt (first : Bool)
    (hspill : (c.openGroup o n first).passes = 0 ∨ (c.openGroup o n first).passes % o.spillEvery ≠ 0) (m : Nat) :
    (c.mmaElems x o n first rows cols bs).cell.accAt m =
      (CellRun.addTile { cell := c.passStart o first } (c.openGroup o n first) x o rows cols).cell.accAt m := by
  have hno : (decide ((c.openGroup o n first).passes ≠ 0) && decide ((c.openGroup o n first).passes % o.spillEvery = 0)) = false := by
    obtain h | h := hspill <;> simp [h]
  simp only [Cell.mmaElems, hno]
  rfl

variable {x o rows cols} {r : CellRun} {g : Group}

/-- Each entry of the pass takes its own sum of products, in 64 bits. -/
theorem CellRun.addTile_val {i j : Nat} (hi : i < o.mc) (hj : j < 8) :
    ((r.addTile g x o rows cols).cell.accAt (o.accBase + 8 * i + j)).val = sext 64 (twos 64
      ((r.cell.accAt (o.accBase + 8 * i + j)).val + (dot (x.exposure + 8 * g.raised) (rows.getD i []) (cols.getD j [])).1)) :=
  (add_foldl_val g x.exposure _ _ _ _ (tilePairs o.mc) (nodup_tileEntries o.accBase o.mc) r _).1 (i, j)
    (mem_tilePairs.mpr ⟨hi, hj⟩) rfl

theorem CellRun.addTile_val_other {m : Nat} (hm : m < o.accBase ∨ o.accBase + 8 * o.mc ≤ m) :
    ((r.addTile g x o rows cols).cell.accAt m).val = (r.cell.accAt m).val := by
  refine (add_foldl_val g x.exposure _ _ _ _ (tilePairs o.mc) (nodup_tileEntries o.accBase o.mc) r m).2 fun p hp => ?_
  obtain ⟨hi, hj⟩ := mem_tilePairs.mp hp
  omega

end Pass

end Sys2Proof.Machine

namespace Sys2Proof
open Machine

/-- Settles O8: without a spill a pass is `CellRun.addTile` on where it starts (`Cell.mmaElems_accAt`), and the entries of the tile
are all different, so each takes its own sum of products and no other changes. -/
theorem matrixPassAddsProducts : Obligations.MatrixPassAddsProducts := by
  unfold Obligations.MatrixPassAddsProducts
  intro c x o n rows cols bs
  refine ⟨fun hinit => ?first, fun hspill => ?later⟩
  case first =>
    have hspill : (c.openGroup o n true).passes = 0 ∨ (c.openGroup o n true).passes % o.spillEvery ≠ 0 :=
      .inl (c.openGroup_first_passes o n)
    refine ⟨fun i j hi hj => ?_, fun m hm => ?_⟩
    · have hin : o.accBase ≤ o.accBase + 8 * i + j ∧ o.accBase + 8 * i + j < o.accBase + 8 * o.mc := by omega
      rw [c.mmaElems_accAt x o n rows cols bs true hspill, CellRun.addTile_val hi hj, c.passStart_first o hinit, if_pos hin,
        Int.zero_add]
    · have hout : ¬(o.accBase ≤ m ∧ m < o.accBase + 8 * o.mc) := by omega
      rw [c.mmaElems_accAt x o n rows cols bs true hspill, CellRun.addTile_val_other hm, c.passStart_first o hinit, if_neg hout]
  case later =>
    refine ⟨fun i j hi hj => ?_, fun m hm => ?_⟩
    · rw [c.mmaElems_accAt x o n rows cols bs false hspill, CellRun.addTile_val hi hj, c.passStart_later]
    · rw [c.mmaElems_accAt x o n rows cols bs false hspill, CellRun.addTile_val_other hm, c.passStart_later]

end Sys2Proof
end

section
/-! PROOFS. The collective operations, the segments that arrive, and the sums of elements (R52, R285 to R288, R292 to R294). -/
namespace Sys2Proof.Machine

/-! ## The commands on a running module -/

section Commands
variable {s : State} (hup : s.Up) (x : Fin 6) (p : Fin 8) (m : Msg)
include hup

/-- The five operations over rings and chains are one command with the operation's code (R285, R286). -/
theorem exec_collOp_up {op : Nat} {i : Instr}
    (hi : (op, i) ∈ [(0, Instr.reduceScatter x p), (1, .allGather x p), (2, .allReduce x p), (3, .broadcast x p), (4, .allToAll x p)]) :
    exec i s = .next { s with blk := s.blk.doCollOp s.env x p op } := by
  have hexec : exec i s = .next (s.onBlock (fun e b => b.doCollOp e x p op)) := by
    simp only [List.mem_cons, Prod.mk.injEq, List.not_mem_nil, or_false] at hi
    obtain ⟨rfl, rfl⟩ | ⟨rfl, rfl⟩ | ⟨rfl, rfl⟩ | ⟨rfl, rfl⟩ | ⟨rfl, rfl⟩ := hi <;> rfl
  exact hexec.trans (congrArg Host.Outcome.next (s.onBlock_up _ hup))

theorem exec_send_up : exec (.send x p) s = .next { s with blk := s.blk.doSend s.env x p } :=
  congrArg Host.Outcome.next (s.onBlock_up _ hup)

theorem exec_recv_up : exec (.recv x p) s = .next { s with blk := s.blk.doRecv s.env x p } :=
  congrArg Host.Outcome.next (s.onBlock_up _ hup)

theorem exec_collectiveData_up : exec (.collectiveData x m) s = .next { s with blk := s.blk.doCollData s.env x m } :=
  congrArg Host.Outcome.next (s.onBlock_up _ hup)

theorem exec_collectiveCredit_up : exec (.collectiveCredit x m) s = .next { s with blk := s.blk.doCollCredit s.env x m } :=
  congrArg Host.Outcome.next (s.onBlock_up _ hup)

end Commands

/-! ## SEND and RECV (R286) -/

/-- One ORDERED PUT of a SEND: it takes the next QSEQ of its queue at PEER and is counted; `g` are the generation registers that
name the job and its epoch. -/
def Block.sendPut (b : Block) (e : Env) (x p : Nat) (k : CollBlock) (g : GenRegs) (d : List (Byte × Bool)) : Block :=
  let key := ((k.peer * 16 + p) * 64 + k.queue) * 16 + p
  let n := mget 0 b.msgs.sendSeq key
  let b : Block := { b with msgs := { b.msgs with sendSeq := mset 0 b.msgs.sendSeq key ((n + 1) % 65536) } }
  (b.bumpCe x 0x108 d.length).sendMsg e
    { mtype := 0, flags := 2 + b2n k.cmpr, src := 0, dst := k.peer, parts := 17 * p, rop := 0, job := g.jobId
      epoch := g.epoch, mid := 0, length := d.length, addr := k.queue, signal := 0, expfmt := 0, qseq := n, data := d }

section Parts
variable {b : Block} {e : Env} {x p : Nat} {c : CollPart} {cmd : CollCmd}

theorem Block.doSend_idle (h : b.partsWithOp x p 5 = []) : b.doSend e x p = b := by
  rw [Block.doSend, h]; rfl

theorem Block.doRecv_idle (h : b.partsWithOp x p 6 = []) : b.doRecv e x p = b := by
  rw [Block.doRecv, h]; rfl

/-- The elements leave in PUTs of at most 1 MiB, and the command is finished. -/
theorem Block.doSend_sends (hpart : b.partsWithOp x p 5 = [c]) (hcmd : b.collCmd c.queue c.seq = some cmd)
    (hopen : cmd.finished = false) {r : Block × List (Byte × Bool)}
    (hr : r = b.readMem e (ceReq b x p cmd.block.srcClass) cmd.block.src (cmd.block.fin.offsetOf cmd.block.elems)) :
    b.doSend e x p = (((chunksOf 0x100000 r.2).foldl (fun b d => b.sendPut e x p cmd.block (r.1.gen p).regs d) r.1).setCmd
      { cmd with finished := true }).advanceColl e c.queue c.seq := by
  subst hr
  simp only [Block.doSend, hpart, List.foldl_cons, List.foldl_nil, hcmd, hopen, Bool.false_eq_true, if_false, Block.sendPut]

variable (hpart : b.partsWithOp x p 6 = [c]) (hcmd : b.collCmd c.queue c.seq = some cmd) (hopen : cmd.finished = false)
  {q : Req} {n : Nat} (hq : q = ceReq b x p cmd.block.dstClass) (hn : n = cmd.block.fin.offsetOf cmd.block.elems)
include hpart hcmd hopen hq hn

theorem Block.doRecv_waits (hwait : rxAvail (mget [] b.msgs.queues (64 * p + cmd.block.queue)) < n ∨
      b.writeWaits e q cmd.block.dst = true) :
    b.doRecv e x p = (b.noteWait e q cmd.block.dst).advanceColl e c.queue c.seq := by
  subst hq hn
  simp [Block.doRecv, hpart, hcmd, hopen, hwait]

theorem Block.doRecv_takes (hcame : n ≤ rxAvail (mget [] b.msgs.queues (64 * p + cmd.block.queue)))
    (hfree : b.writeWaits e q cmd.block.dst = false) {r : Block × List (Byte × Bool)}
    (hr : r = Block.rxTakeN e q 0 (64 * p + cmd.block.queue) n b []) :
    b.doRecv e x p = (((r.1.bumpCe x 0x110 n).deliver e x p cmd.block cmd.exposure cmd.block.fin 0 r.2).setCmd
      { cmd with finished := true }).advanceColl e c.queue c.seq := by
  subst hq hn hr
  simp [Block.doRecv, hpart, hcmd, hopen, Nat.not_lt.mpr hcame, hfree]

end Parts

/-! ## Segments (R287, R288, R292, R293) -/

section Segments
variable {b₀ b : Block} {e : Env} {x : Nat} {m : Msg} {g : Segment} (hb : b = b₀.consume m) (hg : g = Segment.ofMsg m)
include hb

theorem Block.doCollData_stale (hstale : b.collStale m = true) : b₀.doCollData e x m = b.bumpCe x 0x140 1 := by
  subst hb; simp [Block.doCollData, hstale]

theorem Block.doCollCredit_stale (hstale : b.collStale m = true) : b₀.doCollCredit e x m = b.bumpCe x 0x140 1 := by
  subst hb; simp [Block.doCollCredit, hstale]

include hg
variable (hlive : b.collStale m = false)
include hlive

theorem Block.doCollData_wrongKind (hkind : g.kind ≠ 0) : b₀.doCollData e x m = b.collMismatch e x m g := by
  subst hb hg; simp [Block.doCollData, hlive, hkind]

theorem Block.doCollCredit_wrongKind (hkind : g.kind ≠ 1) : b₀.doCollCredit e x m = b.collMismatch e x m g := by
  subst hb hg; simp [Block.doCollCredit, hlive, hkind]

theorem Block.doCollData_noPart (hpart : b.partByNum x m.dpart g.num = none) :
    b₀.doCollData e x m = b.collMismatch e x m g := by
  subst hb hg; simp [Block.doCollData, hlive, hpart]

theorem Block.doCollCredit_noPart (hpart : b.partByNum x m.dpart g.num = none) :
    b₀.doCollCredit e x m = b.collMismatch e x m g := by
  subst hb hg; simp [Block.doCollCredit, hlive, hpart]

variable {n : Nat} {c : CollPart} {cmd : CollCmd} (hpart : b.partByNum x m.dpart g.num = some (n, c))
  (hcmd : b.collCmd c.queue c.seq = some cmd)
include hpart hcmd

theorem Block.doCollData_misfit (hkind : g.kind = 0) (hmis : cmd.block.sig ≠ g.sig ∨ cmd.block.stepOf b.topo x g true = none) :
    b₀.doCollData e x m = b.collMismatch e x m g := by
  subst hb hg; simp [Block.doCollData, hlive, hkind, hpart, hcmd, hmis]

theorem Block.doCollData_fits (hkind : g.kind = 0) (hsig : cmd.block.sig = g.sig) (hstep : cmd.block.stepOf b.topo x g true ≠ none) :
    b₀.doCollData e x m =
      ((b.bumpCe x 0x110 g.data.length).setCollPart x m.dpart n { c with stage := c.stage ++ [g] }).advanceColl e c.queue c.seq := by
  subst hb hg; simp [Block.doCollData, hlive, hkind, hpart, hcmd, hsig, hstep]

theorem Block.doCollCredit_misfit (hkind : g.kind = 1) (hmis : cmd.block.stepOf b.topo x g false = none) :
    b₀.doCollCredit e x m = b.collMismatch e x m g := by
  subst hb hg; simp [Block.doCollCredit, hlive, hkind, hpart, hcmd, hmis]

/-- Outside an all-to-all a credit names its chain by its segment. -/
theorem Block.doCollCredit_fits (hkind : g.kind = 1) {i : Nat} {st : CollStep}
    (hstep : cmd.block.stepOf b.topo x g false = some (i, st)) (hring : st.kind ≠ 3) :
    b₀.doCollCredit e x m = (b.setCollPart x m.dpart n { c with
      credits := mmod 0 c.credits (chainKey i g.half g.seg) (· + g.credits) }).advanceColl e c.queue c.seq := by
  subst hb hg; simp [Block.doCollCredit, hlive, hkind, hpart, hcmd, hstep, hring]

end Segments

/-! ## Sums (R52, R294) -/

theorem Side.merge_comm (x y : Side) : x.merge y = y.merge x := by
  cases x <;> cases y <;> rfl

section Sums
variable (x y : CollElem)

theorem addElem_val_emod : ((addElem x y).1.val - (x.val + y.val)) % 2 ^ 96 = 0 :=
  Int.emod_eq_emod_iff_emod_sub_eq_zero.mp (sext_twos_emod (w := 96) (by decide) (x.val + y.val))

theorem addElem_val_range : -2 ^ 95 ≤ (addElem x y).1.val ∧ (addElem x y).1.val < 2 ^ 95 :=
  sext_range (w := 96) (by decide) _

theorem addElem_overflow_iff (hx : x.side = .finite) (hy : y.side = .finite) :
    (addElem x y).2 = true ↔ x.val + y.val ≤ -2 ^ 95 ∨ 2 ^ 95 ≤ x.val + y.val := by
  simp only [addElem, hx, hy, overflow96, decide_true, Bool.true_and, decide_eq_true_eq]
  omega

theorem addElem_comm : addElem x y = addElem y x := by
  simp only [addElem, Int.add_comm x.val, Side.merge_comm x.side, Bool.or_comm x.poison, Bool.and_comm (decide (x.side = .finite))]

end Sums

end Sys2Proof.Machine

namespace Sys2Proof
open Machine

/-- Settles O33: each clause is the running module's command (`exec_…_up`) followed by the case of SEND, RECV or of the arriving
segment that its hypotheses select; the sums are the two's-complement reading of the exact sum (`sext_twos_emod`, `sext_range`). -/
theorem collectivesExchange : Obligations.CollectivesExchange := by
  unfold Obligations.CollectivesExchange
  refine ⟨fun s x p hup => ?operations, fun s x m b g hup hb hg => ?segments, fun x y => ?sums⟩
  case operations =>
    refine ⟨fun op i hi => exec_collOp_up hup x p hi, fun hidle => ?_, fun hidle => ?_, fun c cmd r hpart hcmd hopen hr => ?_,
      fun c cmd q n hpart hcmd hopen hq hn => ⟨fun hwait => ?_, fun hcame hfree => ?_⟩⟩
    · rw [exec_send_up hup, Block.doSend_idle hidle]
    · rw [exec_recv_up hup, Block.doRecv_idle hidle]
    · refine ⟨_, rfl, ?_⟩
      rw [exec_send_up hup, Block.doSend_sends hpart hcmd hopen hr]
      rfl
    · rw [exec_recv_up hup, Block.doRecv_waits hpart hcmd hopen hq hn hwait]
    · refine ⟨_, rfl, ?_⟩
      rw [exec_recv_up hup, Block.doRecv_takes hpart hcmd hopen hq hn hcame hfree rfl]
  case segments =>
    have hdata := exec_collectiveData_up hup x m
    have hcredit := exec_collectiveCredit_up hup x m
    refine ⟨fun hstale => ?_, fun hlive => ⟨fun hkind => ?_, fun hkind => ?_, fun hpart => ?_, fun n c cmd hpart hcmd =>
      ⟨fun hkind hmis => ?_, fun hkind hsig hstep => ?_, fun hkind hmis => ?_, fun hkind i st hstep hring => ?_⟩⟩⟩
    · simp only [List.forall_mem_cons, List.not_mem_nil, false_imp_iff, implies_true, and_true]
      exact ⟨by rw [hdata, Block.doCollData_stale hb hstale], by rw [hcredit, Block.doCollCredit_stale hb hstale]⟩
    · rw [hdata, Block.doCollData_wrongKind hb hg hlive hkind]
    · rw [hcredit, Block.doCollCredit_wrongKind hb hg hlive hkind]
    · simp only [List.forall_mem_cons, List.not_mem_nil, false_imp_iff, implies_true, and_true]
      exact ⟨by rw [hdata, Block.doCollData_noPart hb hg hlive hpart], by rw [hcredit, Block.doCollCredit_noPart hb hg hlive hpart]⟩
    · rw [hdata, Block.doCollData_misfit hb hg hlive hpart hcmd hkind hmis]
    · rw [hdata, Block.doCollData_fits hb hg hlive hpart hcmd hkind hsig hstep]
    · rw [hcredit, Block.doCollCredit_misfit hb hg hlive hpart hcmd hkind hmis]
    · rw [hcredit, Block.doCollCredit_fits hb hg hlive hpart hcmd hkind hstep hring]
  case sums =>
    obtain ⟨hlo, hhi⟩ := addElem_val_range x y
    exact ⟨addElem_val_emod x y, hlo, hhi, addElem_overflow_iff x y, addElem_comm x y⟩

end Sys2Proof
end

section
/-! PROOFS. The vector operations that reduce, move and convert (R52, R67, R75, R83, R85, R437). -/
namespace Sys2Proof.Machine

/-! ## The commands on a running module -/

section Commands
variable {s : State} (hup : s.Up) (x : Fin 640) (y : Fin 512)
include hup

theorem exec_vmaxr_up : exec (.vmaxr x y) s = .next { s with blk := s.blk.doVmaxr s.env x y } :=
  congrArg Host.Outcome.next (s.onBlock_up _ hup)

theorem exec_vacc_up : exec (.vacc x y) s = .next { s with blk := s.blk.doVacc s.env x y } :=
  congrArg Host.Outcome.next (s.onBlock_up _ hup)

theorem exec_vsumw_up : exec (.vsumw x y) s = .next { s with blk := s.blk.doVsumw s.env x y } :=
  congrArg Host.Outcome.next (s.onBlock_up _ hup)

theorem exec_vld_up (crowded : Bool) : exec (.vld x y crowded) s = .next { s with blk := s.blk.doVld s.env x y crowded } :=
  congrArg Host.Outcome.next (s.onBlock_up _ hup)

theorem exec_vst_up (crowded : Bool) : exec (.vst x y crowded) s = .next { s with blk := s.blk.doVst s.env x y crowded } :=
  congrArg Host.Outcome.next (s.onBlock_up _ hup)

theorem exec_vcvt_up : exec (.vcvt x y) s = .next { s with blk := s.blk.doVcvt s.env x y } :=
  congrArg Host.Outcome.next (s.onBlock_up _ hup)

end Commands

/-! ## An operation and its issue -/

section Issued
variable {b : Block} {e : Env} {x y opc : Nat} {f : Issue → OpEntry → CellCtx → Cell → CellRun}

theorem Block.cellOp_idle (h : b.issued x y opc = none) : b.cellOp e x y opc f = b := by
  simp only [Block.cellOp, h]

theorem Block.cellOp_issued {i : Issue} {o : OpEntry} (h : b.issued x y opc = some (i, o)) :
    b.cellOp e x y opc f = b.finishOp e x y (f i o (b.cellCtx e x y o) (b.cell x y)) := by
  simp only [Block.cellOp, h]

/-- An operation that adds nothing to the window leaves its cell, and a poisoned source is consumed. -/
theorem Block.finishOp_noAdds {r : CellRun} (hreplay : r.replay = false) (hovers : r.overs = 0) :
    b.finishOp e x y r = if r.poisoned then (b.setCell x y { r.cell with issue := none }).consumePoison e x y
      else b.setCell x y { r.cell with issue := none } := by
  simp only [Block.finishOp, Block.overflowEvent, hreplay, hovers, if_true, Bool.false_eq_true, if_false]

end Issued

/-! ## One register's lanes -/

/-- Writing all 16 lanes of one register sets these lanes and leaves every other register. -/
theorem setLanes_sets (c : Cell) (vd : Nat) (f : Nat → Nat) (p : Nat → Bool) :
    LanesSet c { setLanes c vd f p 16 with issue := none } vd f := by
  refine ⟨fun l hl => ?_, fun r l hl hr => ?_, ?_⟩
  · exact (lane_setLanes c vd f p 16 vd l (Nat.le_refl _) hl).trans (if_pos ⟨rfl, hl⟩)
  · exact (lane_setLanes c vd f p 16 r l (Nat.le_refl _) hl).trans (if_neg fun h => hr h.1.symm)
  · exact congrArg (fun k : Cell => { k with issue := none }) (setLanes_rest c vd f p 16)

section Reduce
variable (c : Cell) (x : CellCtx) (o : OpEntry)

/-- The largest lane of a register, by the order of R437; the last maximum makes a single NaN canonical. -/
def Cell.largestLane (r : Nat) : Nat :=
  fmaxCode fp32Fmt ((lanes.map (c.lane r)).foldl (fmaxCode fp32Fmt) (c.lane r 0))
    ((lanes.map (c.lane r)).foldl (fmaxCode fp32Fmt) (c.lane r 0))

theorem Cell.vmaxr_cell : (c.vmaxr o).cell = setLanes c o.vd (fun l => if l = 0 then c.largestLane o.va else 0)
    (fun l => decide (l = 0) && lanes.any (c.lanePoison o.va)) 16 := rfl

/-- The exposure of the group at an entry: what its operation names, raised by its replays (R72, R77). -/
def Cell.groupExposure (base : Nat) : Int := x.exposure + 8 * (((c.group base).map (fun g => g.raised)).getD 0 : Nat)

/-- The value of an accumulator entry as a lane takes it: the side state first, then an overflow (R67). -/
def Cell.entryFp32 (e : Int) (m : Nat) : Nat :=
  toFp32 ((c.accAt m).side.onto (match (c.accAt m).ovfl with
    | some n => .inf n
    | none => ofWindow e (c.accAt m).val))

theorem Cell.vacc_cell : (c.vacc x o).cell =
    setLanes c o.vd (fun l => c.entryFp32 (c.groupExposure x o.accBase) ((o.accBase + l) % 512))
      (fun l => (c.accAt ((o.accBase + l) % 512)).poison) 16 := by
  simp only [Cell.vacc, zip_map_self, List.foldl_map]
  rfl

theorem Cell.vacc_poisoned : (c.vacc x o).poisoned = lanes.any (fun l => (c.accAt ((o.accBase + l) % 512)).poison) := by
  simp only [Cell.vacc, List.any_map, Function.comp_def]

end Reduce

/-! ## Lanes into the window (R52, R75) -/

section Sum
variable (c : Cell) (x : CellCtx) (o : OpEntry)

/-- The entries that the lanes are added to are all different: 16 lanes into 512 entries. -/
theorem nodup_laneEntries (base : Nat) : (lanes.map (fun l => (base + l) % 512)).Nodup := by
  refine List.pairwise_map.mpr (List.Pairwise.imp_of_mem (fun {i j} _ hj hij => ?_) List.pairwise_lt_range)
  have hj : j < 16 := List.mem_range.mp hj
  omega

/-- A lane in the window at exposure `e`; a non-finite lane adds nothing to the value. -/
def Cell.windowLane (e : Int) (r l : Nat) : Int :=
  if (fp32 (c.lane r l)).isFinite then toWindow e (fp32 (c.lane r l)) else 0

/-- The adds of VSUMW, lane 0 first, into a group `g`. -/
def Cell.sumLanes (g : Group) : CellRun :=
  lanes.foldl (fun r l => r.add g x.exposure ((o.accBase + l) % 512) (c.windowLane (x.exposure + 8 * g.raised) o.va l)
    (Side.ofNum (fp32 (c.lane o.va l))) (c.lanePoison o.va l)) { cell := c }

theorem Cell.setGroup_accAt (base : Nat) (g : Option Group) (m : Nat) : (c.setGroup base g).accAt m = c.accAt m := rfl

/-- What VSUMW notes in the group leaves the entries as the adds left them. -/
theorem Cell.vsumw_accAt (m : Nat) :
    (c.vsumw x o).cell.accAt m = (c.sumLanes x o ((c.group o.accBase).getD { init := true })).cell.accAt m := by
  cases hg : c.group o.accBase <;> simp only [Cell.vsumw, Cell.sumLanes, Cell.windowLane, hg, Cell.setGroup_accAt]

/-- The adds of VSUMW go to different entries. -/
theorem Cell.sumLanes_val (g : Group) (m : Nat) :
    (∀ l ∈ lanes, (o.accBase + l) % 512 = m → ((c.sumLanes x o g).cell.accAt m).val =
      sext 64 (twos 64 ((c.accAt m).val + c.windowLane (x.exposure + 8 * g.raised) o.va l))) ∧
    ((∀ l ∈ lanes, (o.accBase + l) % 512 ≠ m) → ((c.sumLanes x o g).cell.accAt m).val = (c.accAt m).val) := by
  unfold Cell.sumLanes
  exact add_foldl_val g x.exposure (fun l => (o.accBase + l) % 512) _ _ _ lanes (nodup_laneEntries o.accBase) { cell := c } m

theorem Cell.vsumw_val {l : Nat} (hl : l < 16) :
    ((c.vsumw x o).cell.accAt ((o.accBase + l) % 512)).val = sext 64 (twos 64
      ((c.accAt ((o.accBase + l) % 512)).val
        + c.windowLane (x.exposure + 8 * ((c.group o.accBase).getD { init := true }).raised) o.va l)) := by
  rw [c.vsumw_accAt]
  exact (c.sumLanes_val x o _ _).1 l (List.mem_range.mpr hl) rfl

theorem Cell.vsumw_val_other {m : Nat} (hm : ∀ l < 16, (o.accBase + l) % 512 ≠ m) :
    ((c.vsumw x o).cell.accAt m).val = (c.accAt m).val := by
  rw [c.vsumw_accAt]
  exact (c.sumLanes_val x o _ m).2 fun l hl => hm l (List.mem_range.mp hl)

end Sum

/-! ## Loads and stores (R83, R85) -/

section Moves
variable {b : Block} {e : Env} {x y : Nat} {i : Issue} {o : OpEntry}

section Load
variable (h : b.issued x y 0x10 = some (i, o))
include h

theorem Block.doVld_local (hsrc : o.aSrc = 0) {c : Cell} (hc : c = b.cell x y) {bs : List (Byte × Bool)}
    (hbs : bs = c.lsRead o.lsA (vldBytes (fmtOf o.fmtA))) :
    b.doVld e x y false =
      b.finishOp e x y ({ c with lastRead := mset [] c.lastRead 1 bs }.vld (b.cellCtx e x y o) o bs) := by
  subst hbs hc
  rw [Block.doVld, Block.cellOp_issued h]
  exact congrArg (b.finishOp e x y) (if_pos hsrc)

/-- An overcommitted local store repeats the port's last bytes and counts (R85). -/
theorem Block.doVld_crowded (hsrc : o.aSrc = 0) {c : Cell} (hc : c = b.cell x y) {bs : List (Byte × Bool)}
    (hbs : bs = mget [] c.lastRead 1) :
    b.doVld e x y true =
      b.finishOp e x y (({ c with lastRead := mset [] c.lastRead 1 bs }.count 5 1).vld (b.cellCtx e x y o) o bs) := by
  subst hbs hc
  rw [Block.doVld, Block.cellOp_issued h]
  exact congrArg (b.finishOp e x y) (if_pos hsrc)

/-- A mesh side or the stream port serves a load whatever the local store does. -/
theorem Block.doVld_elsewhere (hsrc : o.aSrc ≠ 0) (crowded : Bool) {k : Cell} {bs : List (Byte × Bool)}
    (hk : (b.cell x y).source o.aSrc o.lsA (vldBytes (fmtOf o.fmtA)) i.a = (k, bs)) :
    b.doVld e x y crowded = b.finishOp e x y (k.vld (b.cellCtx e x y o) o bs) := by
  rw [Block.doVld, Block.cellOp_issued h]
  refine congrArg (b.finishOp e x y) ((if_neg hsrc).trans ?_)
  rw [hk]

end Load

theorem Block.doVst_idle (h : b.issued x y 0x11 = none) (crowded : Bool) : b.doVst e x y crowded = b := by
  simp only [Block.doVst, h]

theorem Block.doVst_issued (h : b.issued x y 0x11 = some (i, o)) (crowded : Bool) {r : CellRun} {out : List (Byte × Bool)}
    (hr : (b.cell x y).vst (b.cellCtx e x y o) o i.idx = (r, out)) :
    b.doVst e x y crowded = if crowded && o.outDst = 0 then b.finishOp e x y { r with cell := r.cell.count 5 1 }
      else (b.finishOp e x y r).output x y o.outDst o.lsOut out := by
  simp only [Block.doVst, h, hr]

end Moves

end Sys2Proof.Machine

namespace Sys2Proof
open Machine

/-- Settles O7: each clause is the running module's command (`exec_…_up`) at a cell whose issue holds its operation or does not;
what the reducing operations leave are a register's 16 lanes (`setLanes_sets`) and 16 different entries (`Cell.vsumw_val`). -/
theorem vectorReducesAndMoves : Obligations.VectorReducesAndMoves := by
  unfold Obligations.VectorReducesAndMoves
  intro s x y hup
  have hmaxr := exec_vmaxr_up hup x y
  have hacc := exec_vacc_up hup x y
  have hsumw := exec_vsumw_up hup x y
  have hcvt := exec_vcvt_up hup x y
  refine ⟨fun h => ?_, fun h => ?_, fun h => ?_, fun crowded h => ?_, fun crowded h => ?_, fun h => ?_,
    fun i o h => ?vmaxr, fun i o h => ?vacc, fun i o h => ?vsumw, fun i o h => ?vld, fun i o crowded r out h hr => ?vst,
    fun i o h => ?vcvt⟩
  · rw [hmaxr, Block.doVmaxr, Block.cellOp_idle h]
  · rw [hacc, Block.doVacc, Block.cellOp_idle h]
  · rw [hsumw, Block.doVsumw, Block.cellOp_idle h]
  · rw [exec_vld_up hup, Block.doVld, Block.cellOp_idle h]
  · rw [exec_vst_up hup, Block.doVst_idle h]
  · rw [hcvt, Block.doVcvt, Block.cellOp_idle h]
  case vmaxr =>
    refine ⟨_, setLanes_sets (s.blk.cell x y) o.vd _ (fun l => decide (l = 0) && lanes.any ((s.blk.cell x y).lanePoison o.va)), ?_⟩
    rw [hmaxr, Block.doVmaxr, Block.cellOp_issued h, Block.finishOp_noAdds rfl rfl, Cell.vmaxr_cell]
    rfl
  case vacc =>
    refine ⟨_, setLanes_sets (s.blk.cell x y) o.vd _ (fun l => ((s.blk.cell x y).accAt ((o.accBase + l) % 512)).poison), ?_⟩
    rw [hacc, Block.doVacc, Block.cellOp_issued h, Block.finishOp_noAdds rfl rfl, Cell.vacc_cell, Cell.vacc_poisoned]
    rfl
  case vsumw =>
    refine ⟨(s.blk.cell x y).vsumw (s.blk.cellCtx s.env x y o) o, ?_, fun l hl => ?_, fun m hm => ?_⟩
    · rw [hsumw, Block.doVsumw, Block.cellOp_issued h]
    · exact Cell.vsumw_val _ _ o hl
    · exact Cell.vsumw_val_other _ _ o hm
  case vld =>
    refine ⟨fun hsrc => ⟨?_, ?_⟩, fun hsrc crowded k bs hk => ?_⟩
    · rw [exec_vld_up hup, Block.doVld_local h hsrc rfl rfl]
    · rw [exec_vld_up hup, Block.doVld_crowded h hsrc rfl rfl]
    · rw [exec_vld_up hup, Block.doVld_elsewhere h hsrc crowded hk]
  case vst => rw [exec_vst_up hup, Block.doVst_issued h crowded hr]
  case vcvt => rw [hcvt, Block.doVcvt, Block.cellOp_issued h]

end Sys2Proof
end

section
/-! PROOFS. Cell records saved and restored, the restart after a replay wait, and bracket records (R77, R86, R386). -/
namespace Sys2Proof.Machine

/-! ## The commands on a running module -/

section Commands
variable {s : State} (hup : s.Up) (x : Fin 640) (y : Fin 512)
include hup

theorem exec_save_up : exec (.save x y) s = .next { s with blk := s.blk.doSave s.env x y } :=
  congrArg Host.Outcome.next (s.onBlock_up _ hup)

theorem exec_restore_up : exec (.restore x y) s = .next { s with blk := s.blk.doRestore s.env x y } :=
  congrArg Host.Outcome.next (s.onBlock_up _ hup)

theorem exec_overflowReplayRestart_up (r : RegionId) :
    exec (.overflowReplayRestart r) s = .next { s with blk := s.blk.doReplayRestart r } :=
  congrArg Host.Outcome.next (s.onBlock_up _ hup)

theorem exec_bracketRecordWrite_up (free : Bool) :
    exec (.bracketRecordWrite x y free) s = .next { s with blk := s.blk.doBracketRecord s.env x y free } :=
  congrArg Host.Outcome.next (s.onBlock_up _ hup)

end Commands

/-! ## Saving and restoring (R86) -/

section Records
variable {b : Block} (e : Env) {x y : Nat}

theorem Block.doSave_atDrain (h : b.atDrain x y = true) :
    b.doSave e x y = (b.writeMem e (b.saveReq x y) false (saveAddr x y) (b.cell x y).saveBytes).setCell x y
      { b.cell x y with issue := none, savedGroups := (b.cell x y).groups } := by
  simp only [Block.doSave, h, Bool.not_true, Bool.false_eq_true, if_false]

theorem Block.doRestore_atDrain (h : b.atDrain x y = true) {r : Block × List (Byte × Bool)}
    (hr : b.readMem e (b.saveReq x y) (saveAddr x y) 21120 = r) :
    b.doRestore e x y = r.1.setCell x y { (r.1.cell x y).restoreBytes r.2 with issue := none } := by
  simp only [Block.doRestore, h, Bool.not_true, Bool.false_eq_true, if_false, hr]

theorem Block.doSave_running (h : b.atDrain x y = false) : b.doSave e x y = b := by
  simp only [Block.doSave, h, Bool.not_false, if_true]

theorem Block.doRestore_running (h : b.atDrain x y = false) : b.doRestore e x y = b := by
  simp only [Block.doRestore, h, Bool.not_false, if_true]

end Records

/-! ## The restart after a replay wait (R77) -/

section Replay
variable {b : Block} {r : RegionId}

theorem Block.doReplayRestart_waiting (h : (b.region r).state = .replayWait) {rs : List RegionId}
    (hrs : rs = (b.freezeGroup r).filter (fun q => decide ((b.region q).state = .replayWait))) :
    b.doReplayRestart r = rs.foldl (fun b q => b.restartRegion q) (b.countStall rs 1 32) := by
  subst hrs
  exact if_neg (not_not_intro h)

theorem Block.doReplayRestart_notWaiting (h : (b.region r).state ≠ .replayWait) : b.doReplayRestart r = b := if_pos h

end Replay

/-! ## Bracket records (R386) -/

section Brackets
variable {b : Block} (e : Env) {x y : Nat}

theorem Block.doBracketRecord_noSample (h : (b.cell x y).sampled = []) (free : Bool) : b.doBracketRecord e x y free = b := by
  simp only [Block.doBracketRecord, h]

variable {p : Sampled} {ps : List Sampled} (h : (b.cell x y).sampled = p :: ps)
include h

theorem Block.doBracketRecord_noCycle :
    b.doBracketRecord e x y false = (b.setCell x y { b.cell x y with sampled := ps }).bumpInt 0x180 1 := by
  simp only [Block.doBracketRecord, h, Bool.not_false, Bool.true_or, if_true]

/-- The record stays where its frames, 4 at most, are all granted. -/
theorem Block.doBracketRecord_kept {bs : List Byte} (hbs : bs = b.bracketBytes x y p) {n : Nat} (hn : n = ceilDiv bs.length 0x4000)
    (hfew : n ≤ 4) {c : Block} {fs : List Nat} (hc : (b.setCell x y { b.cell x y with sampled := ps }).allocMany n = (c, fs))
    (hgranted : n ≤ fs.length) : b.doBracketRecord e x y true = c.keepBracket e x y bs fs := by
  subst hn hbs
  simp only [Block.doBracketRecord, h, Bool.not_true, Bool.false_or, decide_eq_true_eq, Nat.not_lt.mpr hfew, if_false, hc,
    Nat.not_lt.mpr hgranted]

end Brackets

end Sys2Proof.Machine

namespace Sys2Proof
open Machine

/-- Settles O10: each clause is the running module's command (`exec_…_up`) followed by the case of the save record, of the replay
wait or of the bracket record that its hypotheses select. -/
theorem cellStateMoves : Obligations.CellStateMoves := by
  unfold Obligations.CellStateMoves
  intro s x y r hup
  have hsave := exec_save_up hup x y
  have hrestore := exec_restore_up hup x y
  have hrestart := exec_overflowReplayRestart_up hup r
  have hbracket := exec_bracketRecordWrite_up hup x y
  refine ⟨fun hdrain => ⟨?_, fun m hm => ?_⟩, fun hrun => ⟨?_, ?_⟩, fun hwait => ?_, fun hgo => ?_, fun hnone free => ?_,
    fun p ps hp => ?_, fun p ps b fs hp hfew hb hgranted => ?_⟩
  · rw [hsave, Block.doSave_atDrain s.env hdrain]
  · rw [hrestore, Block.doRestore_atDrain s.env hdrain hm]
  · rw [hsave, Block.doSave_running s.env hrun]
  · rw [hrestore, Block.doRestore_running s.env hrun]
  · rw [hrestart, Block.doReplayRestart_waiting hwait rfl]
  · rw [hrestart, Block.doReplayRestart_notWaiting hgo]
  · rw [hbracket, Block.doBracketRecord_noSample s.env hnone]
  · rw [hbracket, Block.doBracketRecord_noCycle s.env hp]
  · rw [hbracket, Block.doBracketRecord_kept s.env hp rfl rfl hfew hb hgranted]

end Sys2Proof
end

section
/-! PROOFS. The words of region instructions (R92, R93): a word is cut into its fields, reserved ones included, and put together again. -/
namespace Sys2Proof.Machine

/-! ## Words as lists of fields -/

section Fields
variable {ns : List Nat} {l : List (Nat × Nat)}

/-- The word whose fields, from the most significant bit down, have the widths and values listed. -/
def packFields : List (Nat × Nat) → Nat
  | [] => 0
  | f :: l => f.2 * 2 ^ (l.map Prod.fst).sum + packFields l

/-- The fields of a word whose widths, from the most significant bit down, are `ns`. -/
def cutFields : List Nat → Nat → List Nat
  | [], _ => []
  | n :: ns, w => bits w (ns.sum + n - 1) ns.sum :: cutFields ns w

/-- Every field has a bit, and its value fits. -/
def FieldsFit (l : List (Nat × Nat)) : Prop := ∀ f ∈ l, 0 < f.1 ∧ f.2 < 2 ^ f.1

theorem bits_field (w m : Nat) {n : Nat} (hn : 0 < n) : bits w (m + n - 1) m = w / 2 ^ m % 2 ^ n := by
  rw [bits, Nat.shiftRight_eq_div_pow, show m + n - 1 + 1 - m = n by omega]

theorem packFields_lt (hfit : FieldsFit l) : packFields l < 2 ^ (l.map Prod.fst).sum := by
  induction l with
  | nil => exact Nat.one_pos
  | cons f l ih =>
    obtain ⟨⟨_, hvalue⟩, hrest⟩ := List.forall_mem_cons.mp hfit
    rw [packFields, List.map_cons, List.sum_cons, Nat.pow_add]
    calc f.2 * 2 ^ (l.map Prod.fst).sum + packFields l
      _ < f.2 * 2 ^ (l.map Prod.fst).sum + 2 ^ (l.map Prod.fst).sum := Nat.add_lt_add_left (ih hrest) _
      _ = (f.2 + 1) * 2 ^ (l.map Prod.fst).sum := (Nat.succ_mul _ _).symm
      _ ≤ 2 ^ f.1 * 2 ^ (l.map Prod.fst).sum := Nat.mul_le_mul_right _ hvalue

/-- What stands above the fields cut is not seen. -/
theorem cutFields_mod (hpos : ∀ n ∈ ns, 0 < n) (w : Nat) {m : Nat} (hm : ns.sum ≤ m) :
    cutFields ns (w % 2 ^ m) = cutFields ns w := by
  induction ns with
  | nil => rfl
  | cons n ns ih =>
    obtain ⟨hn, hrest⟩ := List.forall_mem_cons.mp hpos
    rw [List.sum_cons] at hm
    rw [cutFields, cutFields, ih hrest (by omega), bits_field _ _ hn, bits_field _ _ hn]
    congr 1
    rw [show m = ns.sum + (m - ns.sum) by omega, Nat.pow_add, Nat.mod_mul_right_div_self,
      Nat.mod_mod_of_dvd _ (Nat.pow_dvd_pow 2 (by omega))]

/-- The fields put together are cut out again. -/
theorem cutFields_packFields (hfit : FieldsFit l) : cutFields (l.map Prod.fst) (packFields l) = l.map Prod.snd := by
  induction l with
  | nil => rfl
  | cons f l ih =>
    obtain ⟨⟨hwidth, hvalue⟩, hrest⟩ := List.forall_mem_cons.mp hfit
    have hlow := packFields_lt hrest
    have hpos : ∀ n ∈ l.map Prod.fst, 0 < n := List.forall_mem_map.mpr fun g hg => (hrest g hg).1
    have htop : (f.2 * 2 ^ (l.map Prod.fst).sum + packFields l) / 2 ^ (l.map Prod.fst).sum = f.2 := by
      rw [Nat.mul_comm, Nat.mul_add_div (Nat.two_pow_pos _), Nat.div_eq_of_lt hlow, Nat.add_zero]
    have hrest' : (f.2 * 2 ^ (l.map Prod.fst).sum + packFields l) % 2 ^ (l.map Prod.fst).sum = packFields l := by
      rw [Nat.mul_comm, Nat.mul_add_mod, Nat.mod_eq_of_lt hlow]
    rw [packFields, List.map_cons, List.map_cons, cutFields, bits_field _ _ hwidth, htop, Nat.mod_eq_of_lt hvalue,
      ← cutFields_mod hpos _ (Nat.le_refl _), hrest', ih hrest]

/-- A word is put together from the fields that are cut out of it. -/
theorem packFields_of_cutFields (hpos : ∀ f ∈ l, 0 < f.1) {w : Nat} (hw : w < 2 ^ (l.map Prod.fst).sum)
    (hcut : cutFields (l.map Prod.fst) w = l.map Prod.snd) : packFields l = w := by
  induction l generalizing w with
  | nil => exact (Nat.lt_one_iff.mp hw).symm
  | cons f l ih =>
    obtain ⟨hwidth, hrest⟩ := List.forall_mem_cons.mp hpos
    rw [List.map_cons, List.map_cons, cutFields, List.cons.injEq, bits_field _ _ hwidth] at hcut
    rw [List.map_cons, List.sum_cons, Nat.pow_add, Nat.mul_comm] at hw
    obtain ⟨htop, hlow⟩ := hcut
    rw [Nat.mod_eq_of_lt (Nat.div_lt_of_lt_mul hw)] at htop
    rw [← cutFields_mod (List.forall_mem_map.mpr hrest) w (Nat.le_refl _)] at hlow
    rw [packFields, ih hrest (Nat.mod_lt _ (Nat.two_pow_pos _)) hlow, ← htop, Nat.mul_comm]
    exact Nat.div_add_mod _ _

end Fields

/-! ## The fields of an instruction -/

/-- The fields of an instruction's word by the tables of R92 and R93, reserved bits as fields of value 0. -/
def SeqOp.layout : SeqOp → List (Nat × Nat)
  | .nop => [(8, 0x00), (56, 0)]
  | .wait n => [(8, 0x01), (32, 0), (24, n)]
  | .idlew f n => [(8, 0x02), (4, f), (28, 0), (24, n)]
  | .halt => [(8, 0x03), (56, 0)]
  | .drainpt => [(8, 0x04), (56, 0)]
  | .br t => [(8, 0x05), (45, 0), (11, t)]
  | .brc k neg t => [(8, 0x06), (1, 0), (2, k), (1, b2n neg), (41, 0), (11, t)]
  | .loop c t => [(8, 0x07), (3, c), (42, 0), (11, t)]
  | .ldc c v => [(8, 0x08), (3, c), (29, 0), (24, v)]
  | .cmp k c rel v => [(8, 0x09), (1, 0), (2, k), (3, c), (2, rel), (24, 0), (24, v)]
  | .lda a v => [(8, 0x10), (4, a), (12, 0), (40, v)]
  | .addi a v => [(8, 0x11), (4, a), (12, 0), (40, v)]
  | .adda a b => [(8, 0x12), (4, a), (4, b), (48, 0)]
  | .strm ch a b => [(8, 0x20), (2, ch), (4, a), (4, b), (46, 0)]
  | .syncsig o => [(8, 0x21), (43, 0), (13, o)]
  | .syncwt a o => [(8, 0x22), (4, a), (39, 0), (13, o)]
  | .issue w => [(8, 0x30), (6, w.entry), (3, w.firstC), (4, w.route), (1, b2n w.routeEn), (4, w.idxA), (8, w.rowMask), (8, w.colMask),
      (3, w.pred), (19, 0)]
  | .walk a => [(8, 0x31), (4, a), (52, 0)]

theorem b2n_lt_two (c : Bool) : b2n c < 2 := by cases c <;> decide

theorem b2n_bit (w i : Nat) : b2n (bit w i) = bits w i i := by
  rw [bit, bits, show i + 1 - i = 1 by omega, Nat.pow_one]
  obtain h | h := Nat.mod_two_eq_zero_or_one (w >>> i) <;> rw [h] <;> rfl

theorem bit_eq_of_bits {w i : Nat} {c : Bool} (h : bits w i i = b2n c) : bit w i = c := by
  rw [← b2n_bit] at h
  revert h
  cases bit w i <;> cases c <;> decide

variable {op : SeqOp} {w : Nat}

theorem SeqOp.layout_width (op : SeqOp) : (op.layout.map Prod.fst).sum = 64 := by cases op <;> rfl

theorem SeqOp.layout_pos (op : SeqOp) : ∀ f ∈ op.layout, 0 < f.1 := by cases op <;> simp [SeqOp.layout]

theorem SeqOp.encode_eq_packFields (op : SeqOp) : op.encode = packFields op.layout := by
  cases op <;> simp only [SeqOp.encode, SeqOp.layout, packFields, List.map_cons, List.map_nil, List.sum_cons, List.sum_nil] <;> omega

theorem SeqOp.layout_fits (h : op.wf = true) : FieldsFit op.layout := by
  cases op <;> simp only [SeqOp.wf, Bool.and_eq_true, decide_eq_true_eq] at h <;>
    simp only [FieldsFit, SeqOp.layout, List.forall_mem_cons, List.not_mem_nil, false_implies, implies_true, and_true]
  case brc k neg t =>
    have hneg := b2n_lt_two neg
    omega
  case issue i =>
    have hen := b2n_lt_two i.routeEn
    omega
  all_goals omega

theorem SeqOp.cutFields_encode (h : op.wf = true) : cutFields (op.layout.map Prod.fst) op.encode = op.layout.map Prod.snd := by
  rw [SeqOp.encode_eq_packFields, cutFields_packFields (SeqOp.layout_fits h)]

theorem SeqOp.encode_lt (h : op.wf = true) : op.encode < 2 ^ 64 := by
  rw [SeqOp.encode_eq_packFields, ← op.layout_width]
  exact packFields_lt (SeqOp.layout_fits h)

theorem SeqOp.ifOk_eq_some_iff {reserved : List (Nat × Nat)} {op' : SeqOp} : SeqOp.ifOk w reserved op = some op' ↔
    (∀ r ∈ reserved, bits w r.1 r.2 = 0) ∧ op.wf = true ∧ op = op' := by
  simp [SeqOp.ifOk, and_assoc]

/-- The decoder reads a well-formed instruction from a word with its fields. -/
theorem SeqOp.decode_of_cutFields (h : op.wf = true) (hcut : cutFields (op.layout.map Prod.fst) w = op.layout.map Prod.snd) :
    SeqOp.decode w = some op := by
  cases op <;> simp only [SeqOp.layout, List.map_cons, List.map_nil, cutFields, List.sum_cons, List.sum_nil, List.cons.injEq,
    Nat.reduceAdd, Nat.reduceSub] at hcut
  case brc k neg t =>
    obtain ⟨hcode, hres, hk, hneg, hres', ht, _⟩ := hcut
    simp [SeqOp.decode, SeqOp.ifOk, hcode, hres, hk, bit_eq_of_bits hneg, hres', ht, h]
  case issue i =>
    obtain ⟨hcode, hentry, hfirst, hroute, hen, hidx, hrows, hcols, hpred, hres, _⟩ := hcut
    simp [SeqOp.decode, SeqOp.ifOk, hcode, hentry, hfirst, hroute, bit_eq_of_bits hen, hidx, hrows, hcols, hpred, hres, h]
  all_goals simp [SeqOp.decode, SeqOp.ifOk, hcut, h]

/-- An instruction that the decoder reads from a word is well-formed, and the word has its fields. -/
theorem SeqOp.cutFields_of_decode (h : SeqOp.decode w = some op) :
    op.wf = true ∧ cutFields (op.layout.map Prod.fst) w = op.layout.map Prod.snd := by
  unfold SeqOp.decode at h
  split at h
  case h_19 => cases h
  all_goals
    obtain ⟨hreserved, hwf, rfl⟩ := SeqOp.ifOk_eq_some_iff.mp h
    simp only [List.forall_mem_cons] at hreserved
    refine ⟨hwf, ?_⟩
    simp [SeqOp.layout, cutFields, b2n_bit, *]

end Sys2Proof.Machine

namespace Sys2Proof
open Machine

/-- Settles O58: the fields that the decoder reads are the fields that a word is cut into, so the word put together from an instruction's
fields decodes to it (`cutFields_packFields`), and a word that decodes is put together from them (`packFields_of_cutFields`). -/
theorem operationWordsRoundTrip : Obligations.OperationWordsRoundTrip := by
  refine ⟨fun op hwf => ⟨SeqOp.decode_of_cutFields hwf (SeqOp.cutFields_encode hwf), SeqOp.encode_lt hwf⟩, fun w op hw hdecode => ?_⟩
  obtain ⟨hwf, hcut⟩ := SeqOp.cutFields_of_decode hdecode
  refine ⟨?_, hwf⟩
  rw [SeqOp.encode_eq_packFields]
  exact packFields_of_cutFields op.layout_pos (by rwa [op.layout_width]) hcut

end Sys2Proof
end

section
/-! PROOFS. What a region's sequencer does: waits, address registers, streams, signals, issues and walks (R92, R95, R99, R112, R124). -/
namespace Sys2Proof.Machine

/-! ## An instruction that a region fetches -/

section Fetched
variable {s : State} {i : Instr} {g : Env → Block → Block} {b c : Block} {e : Env} {r : RegionId} {f : Region → Block}

/-- A command of a running module whose effect on the block is `c`, watched. -/
theorem exec_watched (hup : s.Up) (hexec : exec i s = .next (s.onBlock g)) (hw : Watched c (g s.env s.blk)) :
    ∃ d, exec i s = .next { s with blk := d } ∧ Watched c d :=
  ⟨_, hexec.trans (congrArg Host.Outcome.next (s.onBlock_up g hup)), hw⟩

/-- A region that fetches takes the effect of the instruction, watched. -/
theorem seqStep_watched (hf : b.Fetches r) (hc : f (b.region r) = c) : Watched c (b.seqStep e r f) := by
  rw [seqStep_fetches b e r f hf, hc]
  exact seqWatch_watched c e r (b.region r)

theorem seqPlain_watched {k : Region → Region} {x : Region} (hf : b.Fetches r) (hx : k (b.region r) = x) :
    Watched (b.setRegion r x) (b.seqPlain e r k) := by
  rw [Block.seqPlain]
  exact seqStep_watched hf (congrArg (b.setRegion r) hx)

/-- A running region is not the region of an empty table entry, wherever it moves on to. -/
theorem Block.Fetches.next_ne_default (hf : b.Fetches r) (l : List Nat) :
    ({ (b.region r).next with signals := l } : Region) ≠ {} := fun h => by
  have hrunning : (b.region r).state = .running := hf.1
  have hidle : (b.region r).state = .idle := congrArg Region.state h
  cases hrunning.symm.trans hidle

end Fetched

/-! ## Waits, counters and comparators (R92, R20) -/

section Waits
variable {b : Block} {e : Env} {r : RegionId}

section Instructions
variable (hf : b.Fetches r)
include hf

theorem Block.doWait_watched (n : Nat) : Watched (b.setRegion r { b.region r with waitLeft := n }) (b.doWait e r n) := by
  rw [Block.doWait]
  exact seqPlain_watched hf rfl

theorem Block.doIdlew_watched (f n : Nat) :
    Watched (b.setRegion r { b.region r with waitLeft := n, window := some f }) (b.doIdlew e r f n) := by
  rw [Block.doIdlew]
  exact seqPlain_watched hf rfl

theorem Block.doLdc_watched (n v : Nat) :
    Watched (b.setRegion r { b.region r with ctrs := mset 0 (b.region r).ctrs n v }.next) (b.doLdc e r n v) := by
  rw [Block.doLdc]
  exact seqPlain_watched hf rfl

theorem Block.doCmp_watched (k n rel v : Nat) :
    Watched (b.setRegion r { b.region r with cmps := mset {} (b.region r).cmps k { ctr := n, rel := rel, val := v } }.next)
      (b.doCmp e r k n rel v) := by
  rw [Block.doCmp]
  exact seqPlain_watched hf rfl

end Instructions

theorem Block.doWaitEnd_waiting (hstate : (b.region r).state = .running) (hwait : (b.region r).waitLeft ≠ 0) :
    b.doWaitEnd r = b.setRegion r { b.region r with
      pc := ((b.region r).pc + 1) % 2048, cycle := (b.region r).cycle + (b.region r).waitLeft
      waitLeft := 0, window := none, flatField := false } := by
  simp [Block.doWaitEnd, hstate, hwait]

theorem exec_waitEnd_up {s : State} (hup : s.Up) (r : RegionId) : exec (.waitEnd r) s = .next { s with blk := s.blk.doWaitEnd r } :=
  congrArg Host.Outcome.next (s.onBlock_up _ hup)

theorem exec_idleWindowEnd_up {s : State} (hup : s.Up) (r : RegionId) :
    exec (.idleWindowEnd r) s = .next { s with blk := s.blk.doIdleWindowEnd r } :=
  congrArg Host.Outcome.next (s.onBlock_up _ hup)

end Waits

/-! ## Address registers and streams (R91, R99, R101) -/

section Addresses
variable {b : Block} {e : Env} {r : RegionId} (hf : b.Fetches r)
include hf

theorem Block.seqRegs_watched (f : SMap Nat → SMap Nat) :
    Watched ((b.modClusters r (fun k => { k with areg := f k.areg })).setRegion r (b.region r).next) (b.seqRegs e r f) := by
  rw [Block.seqRegs]
  exact seqStep_watched hf rfl

theorem Block.doLda_watched (a : Nat) (v : Fin (2 ^ 40)) :
    Watched ((b.modClusters r (fun k => { k with areg := mset 0 k.areg a v })).setRegion r (b.region r).next) (b.doLda e r a v) := by
  rw [Block.doLda, Nat.mod_eq_of_lt v.isLt]
  exact Block.seqRegs_watched hf _

theorem Block.doAddi_watched (a v : Nat) :
    Watched ((b.modClusters r (fun k => { k with areg := mset 0 k.areg a ((mget 0 k.areg a + v) % 2 ^ 40) })).setRegion r
      (b.region r).next) (b.doAddi e r a v) :=
  Block.seqRegs_watched hf _

theorem Block.doAdda_watched (a d : Nat) :
    Watched ((b.modClusters r (fun k => { k with areg := mset 0 k.areg a ((mget 0 k.areg a + mget 0 k.areg d) % 2 ^ 40) })).setRegion r
      (b.region r).next) (b.doAdda e r a d) :=
  Block.seqRegs_watched hf _

section Stream
variable {ch a : Nat} (d : Nat)

theorem Block.doStrm_refused {n : Nat}
    (hfault : (b.region r).clusters.findSome? (fun p => b.streamFault r.part (mget 0 (b.cluster p.1 p.2).areg a) ch) = some n) :
    Watched (b.refuseRun e r.part n) (b.doStrm e r ch a d) :=
  seqStep_watched hf (by simp only [hfault])

variable (hgood : ∀ p ∈ (b.region r).clusters, b.streamFault r.part (mget 0 (b.cluster p.1 p.2).areg a) ch = none)
include hgood

theorem Block.doStrm_queues (hroom : ∀ p ∈ (b.region r).clusters, ((b.cluster p.1 p.2).chan ch).queue.length < 4) :
    Watched (((b.region r).clusters.foldl (fun b p => b.strmCluster e r.part p.1 p.2 ch a d) b).setRegion r (b.region r).next)
      (b.doStrm e r ch a d) := by
  refine seqStep_watched hf ?_
  have hfull : (b.region r).clusters.any (fun p => decide (4 ≤ ((b.cluster p.1 p.2).chan ch).queue.length)) = false := by
    simpa using hroom
  simp only [List.findSome?_eq_none_iff.mpr hgood, hfull, Bool.false_eq_true, if_false]

theorem Block.doStrm_full (hfull : ∃ p ∈ (b.region r).clusters, 4 ≤ ((b.cluster p.1 p.2).chan ch).queue.length) :
    Watched (b.freeze e r 7) (b.doStrm e r ch a d) := by
  refine seqStep_watched hf ?_
  have hany : (b.region r).clusters.any (fun p => decide (4 ≤ ((b.cluster p.1 p.2).chan ch).queue.length)) = true := by
    simpa using hfull
  simp only [List.findSome?_eq_none_iff.mpr hgood, hany, if_true]

end Stream

end Addresses

/-! ## Signals and waits for sync objects (R112) -/

section Sync
variable {b : Block} {e : Env} {r : RegionId} {o : Nat}

theorem Block.writesVisible_setRegion {x : Region} (hx : x.clusters = (b.region r).clusters) :
    (b.setRegion r x).writesVisible r = b.writesVisible r := by
  simp only [Block.writesVisible, region_setRegion, if_true, setRegion_cluster, hx]

theorem Block.settleSignals_notVisible (h : b.writesVisible r = false) : b.settleSignals e r = b := by
  simp [Block.settleSignals, h]

theorem Block.syncUsable_iff {p : Nat} : b.syncUsable p o = true ↔ (b.obj o).mode = 0 ∧ (b.obj o).part = p := by
  simp [Block.syncUsable]

theorem Block.syncAdd_usable {p : Nat} (h : b.syncUsable p o = true) (id n : Nat) :
    b.syncAdd e id p o n = b.setObj o { b.obj o with val := ((b.obj o).val + n) % 2 ^ 64 } := by
  obtain ⟨hmode, hpart⟩ := Block.syncUsable_iff.mp h
  simp [Block.syncAdd, SyncObj.reach, hmode, hpart]

section Instructions
variable (hf : b.Fetches r)
include hf

theorem Block.doSyncsig_waits (hv : b.writesVisible r = false) :
    Watched (b.setRegion r { (b.region r).next with signals := (b.region r).signals ++ [o] }) (b.doSyncsig e r o) := by
  rw [Block.doSyncsig]
  have hlater : (b.setRegion r { (b.region r).next with signals := (b.region r).signals ++ [o] }).writesVisible r = false := by
    rwa [Block.writesVisible_setRegion (by rfl)]
  exact seqStep_watched hf (Block.settleSignals_notVisible hlater)

section Visible
variable (hnone : (b.region r).signals = []) (hv : b.writesVisible r = true)
include hnone hv

/-- With no earlier signal waiting the lead's signal is the one that settles. -/
theorem Block.doSyncsig_settles : Watched
    (if (b.setRegion r (b.region r).next).syncUsable r.part o
      then (b.setRegion r (b.region r).next).syncAdd e (clusterIndex (b.region r).x0 (b.region r).y0) r.part o 1
      else (b.setRegion r (b.region r).next).syncModeError e r o) (b.doSyncsig e r o) :=
  seqStep_watched hf (by
    rw [hnone, List.nil_append]
    exact settle_one b e r (b.region r).next o hf.next_ne_default hnone rfl hv)

theorem Block.doSyncsig_adds (hmode : (b.obj o).mode = 0) (hpart : (b.obj o).part = r.part) :
    Watched ((b.setRegion r (b.region r).next).setObj o { b.obj o with val := ((b.obj o).val + 1) % 2 ^ 64 }) (b.doSyncsig e r o) := by
  have husable : (b.setRegion r (b.region r).next).syncUsable r.part o = true := Block.syncUsable_iff.mpr ⟨hmode, hpart⟩
  have h := Block.doSyncsig_settles (e := e) hf hnone hv (o := o)
  rwa [if_pos husable, Block.syncAdd_usable husable] at h

theorem Block.doSyncsig_dropped (hunusable : b.syncUsable r.part o = false) :
    Watched ((b.setRegion r (b.region r).next).syncModeError e r o) (b.doSyncsig e r o) := by
  have h := Block.doSyncsig_settles (e := e) hf hnone hv (o := o)
  have hunusable' : ¬(b.setRegion r (b.region r).next).syncUsable r.part o = true := by
    show ¬b.syncUsable r.part o = true
    simp [hunusable]
  rwa [if_neg hunusable'] at h

end Visible

theorem Block.doSyncwt_error (a : Nat) (hunusable : b.syncUsable r.part o = false) :
    Watched ((b.syncModeError e r o).modRegion r Region.next) (b.doSyncwt e r a o) :=
  seqStep_watched hf (by simp only [hunusable, Bool.not_false, if_true])

section Usable
variable {a : Nat} (husable : b.syncUsable r.part o = true)
include husable

theorem Block.doSyncwt_passes (hreached : mget 0 (b.cluster (b.region r).x0 (b.region r).y0).areg a ≤ (b.obj o).val) :
    Watched (b.setRegion r (b.region r).next) (b.doSyncwt e r a o) :=
  seqStep_watched hf (by
    simp only [husable, Bool.not_true, Bool.false_eq_true, if_false, Region.lead, hreached, if_true])

theorem Block.doSyncwt_freezes (hbelow : (b.obj o).val < mget 0 (b.cluster (b.region r).x0 (b.region r).y0).areg a) :
    Watched ((b.freeze e r 5).modRegion r (fun y => { y with
      syncWait := some (o, mget 0 (b.cluster (b.region r).x0 (b.region r).y0).areg a) })) (b.doSyncwt e r a o) :=
  seqStep_watched hf (by
    simp only [husable, Bool.not_true, Bool.false_eq_true, if_false, Region.lead, Nat.not_le.mpr hbelow])

end Usable

end Instructions

theorem exec_syncwtSatisfied_up {s : State} (hup : s.Up) (r : RegionId) (n : Nat) :
    exec (.syncwtSatisfied r n) s = .next { s with blk := s.blk.doSyncwtSatisfied s.env r n } :=
  congrArg Host.Outcome.next (s.onBlock_up _ hup)

/-- A wait whose value is reached ends; the group runs again once no other region of it waits. -/
theorem Block.doSyncwtSatisfied_reached {v : Nat} (hwait : (b.region r).syncWait = some (o, v)) (hv : v ≤ (b.obj o).val)
    (n : Nat) {b' : Block} (hb' : b' = b.setRegion r { (b.region r).next with syncWait := none }) :
    b.doSyncwtSatisfied e r n = if b'.groupWaits r then b' else b'.thaw e r n := by
  subst hb'
  simp only [Block.doSyncwtSatisfied, hwait, decide_eq_true hv, Bool.true_or, if_true]
  rfl

end Sync

/-! ## Issues and walks (R93, R104, R124, R128, R375) -/

/-- An issue without a predicate, or whose comparator holds, is no NOP (R93). -/
theorem IssueWord.notSkipped {w : IssueWord} {x : Region} (h : w.pred = 0 ∨ x.cmp (w.pred - 1) = true) :
    (decide (w.pred ≠ 0) && !x.cmp (w.pred - 1)) = false := by
  obtain h | h := h <;> simp [h]

section Issues
variable {b : Block} {e : Env} {r : RegionId} {w : IssueWord} {err : IssueError} (hf : b.Fetches r)
include hf

theorem Block.doIssue_stops (w : IssueWord) :
    Watched ((b.setRegion r { b.region r with state := .frozen, frozenCause := 9 }).fogAt e 3 0x138
      (8 * (b.region r).x0) (8 * (b.region r).y0) (plateOf (8 * (b.region r).x0) (8 * (b.region r).y0))
      (b.physOf (8 * (b.region r).x0) (8 * (b.region r).y0)) [(32, 2, (b.region r).pc)]) (b.doIssue e r w .sequencer) :=
  seqStep_watched hf (if_pos rfl)

variable (herr : err ≠ .sequencer)
include herr

theorem Block.doIssue_skipped (hpred : w.pred ≠ 0) (hcmp : (b.region r).cmp (w.pred - 1) = false) :
    Watched (b.setRegion r (b.region r).next) (b.doIssue e r w err) :=
  seqStep_watched hf (by simp [herr, hpred, hcmp])

variable (hgo : w.pred = 0 ∨ (b.region r).cmp (w.pred - 1) = true)
include hgo

theorem Block.doIssue_freezes {n : Nat} (hblocked : b.issueBlocked e r.part (b.region r) w = some n) :
    Watched (b.freeze e r n) (b.doIssue e r w err) :=
  seqStep_watched hf (by simp only [herr, if_false, IssueWord.notSkipped hgo, Bool.false_eq_true, hblocked])

theorem Block.doIssue_delivers (hfree : b.issueBlocked e r.part (b.region r) w = none) :
    Watched (((b.issueAll e r (b.region r) w).modRegion r Region.next).foundAtIssue e (b.region r) err) (b.doIssue e r w err) :=
  seqStep_watched hf (by simp only [herr, if_false, IssueWord.notSkipped hgo, Bool.false_eq_true, hfree])

end Issues

section Walks
variable {b : Block} {e : Env} {r : RegionId}

section Instruction
variable {a : Nat} (hf : b.Fetches r)
include hf

theorem Block.doWalk_freezes (hbusy : b.channelsEmpty (b.region r) = false) : Watched (b.freeze e r 7) (b.doWalk e r a) :=
  seqStep_watched hf (by simp only [hbusy, Bool.not_false, if_true])

variable (hempty : b.channelsEmpty (b.region r) = true) {at_ : Nat}
  (hat : at_ = 256 * mget 0 (b.cluster (b.region r).x0 (b.region r).y0).areg a) {c : Block} {bs : List (Byte × Bool)}
  (hread : b.readMem e (b.clusterReq r.part (b.region r).x0 (b.region r).y0 0) at_ 128 = (c, bs))
  {w : Macro} (hw : w = Macro.ofBits (leNat (bs.map Prod.fst)))
include hempty hat hread hw

theorem Block.doWalk_error (hbad : w.magic ≠ 0xA7 ∨ w.ver ≠ 1) :
    Watched (((c.setCluster (b.region r).x0 (b.region r).y0 ((c.cluster (b.region r).x0 (b.region r).y0).count 0x160 1)).startWalk
      r (b.region r) at_ 16 .prologue).runEvent e r.part 8 (b.region r).x0 (b.region r).y0 []) (b.doWalk e r a) := by
  subst hat hw
  exact seqStep_watched hf (by
    simp only [hempty, Bool.not_true, Bool.false_eq_true, if_false, Region.lead, hread]
    exact if_pos (by simpa using hbad))

variable (hmagic : w.magic = 0xA7) (hver : w.ver = 1)
include hmagic hver

theorem Block.doWalk_empty (hzero : w.m = 0 ∨ w.n = 0 ∨ w.batch = 0) :
    Watched (c.startWalk r (b.region r) at_ 16 .prologue) (b.doWalk e r a) := by
  subst hat hw
  exact seqStep_watched hf (by
    simp only [hempty, Bool.not_true, Bool.false_eq_true, if_false, Region.lead, hread]
    rw [if_neg (by simp [hmagic, hver]), if_pos (by simpa [or_assoc] using hzero)])

theorem Block.doWalk_product (hm : w.m ≠ 0) (hn : w.n ≠ 0) (hbatch : w.batch ≠ 0) :
    Watched (c.walkProduct e r (b.region r) w at_) (b.doWalk e r a) := by
  subst hat hw
  exact seqStep_watched hf (by
    simp only [hempty, Bool.not_true, Bool.false_eq_true, if_false, Region.lead, hread]
    rw [if_neg (by simp [hmagic, hver]), if_neg (by simp [hm, hn, hbatch])])

end Instruction

theorem exec_walkRetire_up {s : State} (hup : s.Up) (r : RegionId) :
    exec (.walkRetire r) s = .next { s with blk := s.blk.doWalkRetire r } :=
  congrArg Host.Outcome.next (s.onBlock_up _ hup)

theorem Block.doWalkRetire_walking (hstate : (b.region r).state = .running) (hwalk : (b.region r).walk.phase ≠ .none)
    (hgoes : (b.region r).walk.phase ≠ .stopped) :
    b.doWalkRetire r = b.setRegion r { b.region r with
      pc := ((b.region r).pc + 1) % 2048, cycle := (b.region r).cycle + (b.region r).walk.cycles, walk := {} } := by
  simp [Block.doWalkRetire, hstate, hwalk, hgoes]

end Walks

end Sys2Proof.Machine

namespace Sys2Proof
open Machine

/-- Settles O2: each instruction's effect on the region (`seqPlain_watched`), watched; WAIT_END and IDLE_WINDOW_END act at once. -/
theorem sequencerWaitsCount : Obligations.SequencerWaitsCount := by
  intro s r hup
  refine ⟨fun hf => ⟨fun n => ?wait, fun f n => ?idlew, fun n v => ?ldc, fun k n rel v => ?cmp⟩, fun hstate hwait => ?waitEnd, ?windowEnd⟩
  case wait => exact exec_watched hup rfl (Block.doWait_watched hf n)
  case idlew => exact exec_watched hup rfl (Block.doIdlew_watched hf f n)
  case ldc => exact exec_watched hup rfl (Block.doLdc_watched hf n v)
  case cmp => exact exec_watched hup rfl (Block.doCmp_watched hf k n rel v)
  case waitEnd => rw [exec_waitEnd_up hup, Block.doWaitEnd_waiting hstate hwait]
  case windowEnd => exact exec_idleWindowEnd_up hup r

/-- Settles O3: the address registers of every cluster (`seqRegs_watched`), and STRM by a refused descriptor and by a full queue. -/
theorem sequencerAddressesLoad : Obligations.SequencerAddressesLoad := by
  intro s r hup hf
  refine ⟨fun a v => ?lda, fun a v => ?addi, fun a d => ?adda, fun ch a d hgood => ⟨fun hroom => ?queued, fun hfull => ?full⟩,
    fun ch a d n hfault => ?refused⟩
  case lda => exact exec_watched hup rfl (Block.doLda_watched hf a v)
  case addi => exact exec_watched hup rfl (Block.doAddi_watched hf a v)
  case adda => exact exec_watched hup rfl (Block.doAdda_watched hf a d)
  case queued => exact exec_watched hup rfl (Block.doStrm_queues hf d hgood hroom)
  case full => exact exec_watched hup rfl (Block.doStrm_full hf d hgood hfull)
  case refused => exact exec_watched hup rfl (Block.doStrm_refused hf d hfault)

/-- Settles O4: SYNCSIG by whether the earlier writes are visible and its one signal's object is usable (`settle_one`), SYNCWT by the object and
its value, and the end of a wait by what its group waits for. -/
theorem sequencerSyncActs : Obligations.SequencerSyncActs := by
  intro s r hup
  refine ⟨fun hf => ⟨fun o hv => ?waits, fun hnone hv => ⟨fun o hmode hpart => ?adds, fun o hunusable => ?dropped⟩,
    fun a o husable => ⟨fun hreached => ?passes, fun hbelow => ?freezes⟩, fun a o hunusable => ?error⟩, fun n o v hwait hv => ?satisfied⟩
  case waits => exact exec_watched hup rfl (Block.doSyncsig_waits hf hv)
  case adds => exact exec_watched hup rfl (Block.doSyncsig_adds hf hnone hv hmode hpart)
  case dropped => exact exec_watched hup rfl (Block.doSyncsig_dropped hf hnone hv hunusable)
  case passes => exact exec_watched hup rfl (Block.doSyncwt_passes hf husable hreached)
  case freezes => exact exec_watched hup rfl (Block.doSyncwt_freezes hf husable hbelow)
  case error => exact exec_watched hup rfl (Block.doSyncwt_error hf a hunusable)
  case satisfied => rw [exec_syncwtSatisfied_up hup, Block.doSyncwtSatisfied_reached hwait hv n rfl]

/-- Settles O5: ISSUE by its predicate and the cause that blocks it, WALK by the channels and by the words that it reads, and the walk's retirement. -/
theorem sequencerIssuesAndWalks : Obligations.SequencerIssuesAndWalks := by
  intro s r hup
  refine ⟨fun hf => ⟨fun w err herr hpred hcmp => ?skipped, fun w err herr hgo => ⟨fun n hblocked => ?freezes, fun hfree => ?delivers⟩,
    fun w => ?stops, fun a hbusy => ?walkFreezes, fun a at_ b bs w hempty hat hread hw => ⟨fun hbad => ?walkError,
    fun hmagic hver hzero => ?walkEmpty, fun hmagic hver hm hn hbatch => ?walkProduct⟩⟩, fun hstate hwalk hgoes => ?walkRetire⟩
  case skipped => exact exec_watched hup rfl (Block.doIssue_skipped hf herr hpred hcmp)
  case freezes => exact exec_watched hup rfl (Block.doIssue_freezes hf herr hgo hblocked)
  case delivers => exact exec_watched hup rfl (Block.doIssue_delivers hf herr hgo hfree)
  case stops => exact exec_watched hup rfl (Block.doIssue_stops hf w)
  case walkFreezes => exact exec_watched hup rfl (Block.doWalk_freezes hf hbusy)
  case walkError => exact exec_watched hup rfl (Block.doWalk_error hf hempty hat hread hw hbad)
  case walkEmpty => exact exec_watched hup rfl (Block.doWalk_empty hf hempty hat hread hw hmagic hver hzero)
  case walkProduct => exact exec_watched hup rfl (Block.doWalk_product hf hempty hat hread hw hmagic hver hm hn hbatch)
  case walkRetire => rw [exec_walkRetire_up hup, Block.doWalkRetire_walking hstate hwalk hgoes]

end Sys2Proof
end

section
/-! PROOFS. Beats of the stream channels and the end of a descriptor (R96, R101, R103, R112). -/
namespace Sys2Proof.Machine

section Commands
variable {s : State} (hup : s.Up) (x : Fin 80) (y : Fin 64) (ch : Fin 4)
include hup

theorem exec_streamBeatArrival_up (net : Fin 3) :
    exec (.streamBeatArrival x y ch net) s = .next { s with blk := s.blk.doBeat s.env x y ch net } :=
  congrArg Host.Outcome.next (s.onBlock_up _ hup)

theorem exec_descriptorRetire_up : exec (.descriptorRetire x y ch) s = .next { s with blk := s.blk.doRetire x y ch } :=
  congrArg Host.Outcome.next (s.onBlock_up _ hup)

end Commands

theorem Cluster.chan_setChan (c : Cluster) (j k : Nat) (x : Channel) : (c.setChan j x).chan k = if j = k then x else c.chan k :=
  mget_mset _ _ _ _ _

section Retire
variable {b : Block} {cx cy ch : Nat}

theorem Block.doRetire_empty (h : ((b.cluster cx cy).chan ch).queue = []) : b.doRetire cx cy ch = b := by
  simp only [Block.doRetire, h]

variable {f : Flow} {fs : List Flow} (h : ((b.cluster cx cy).chan ch).queue = f :: fs)
include h

theorem Block.doRetire_moving
    (hmoving : f.served < b.flowBytes f ∨ (ch ≠ 3 ∧ ((b.cluster cx cy).chan ch).taken < b.flowBytes f)) : b.doRetire cx cy ch = b := by
  simp only [Block.doRetire, h]
  exact if_neg (by
    simp only [Bool.and_eq_true, Bool.or_eq_true, decide_eq_true_eq]
    omega)

theorem Block.doRetire_moved (hserved : b.flowBytes f ≤ f.served)
    (htaken : ch = 3 ∨ b.flowBytes f ≤ ((b.cluster cx cy).chan ch).taken) :
    b.doRetire cx cy ch = b.setCluster cx cy ((b.cluster cx cy).setChan ch { (b.cluster cx cy).chan ch with
      queue := fs, taken := ((b.cluster cx cy).chan ch).taken - b.flowBytes f }) := by
  simp only [Block.doRetire, h]
  exact if_pos (by simp [hserved, htaken])

end Retire

end Sys2Proof.Machine

namespace Sys2Proof
open Machine

/-- Settles O13: a beat is the module's own effect; a descriptor retires where its flow has moved every byte, and its channel alone changes
(`Cluster.chan_setChan`). -/
theorem streamsMoveBeats : Obligations.StreamsMoveBeats := by
  intro s x y ch hup
  have hch : ch = 3 ↔ ch.val = 3 := Fin.ext_iff
  refine ⟨fun net => ?beat, fun hempty => ?empty, fun f fs hqueue => ⟨fun hmoving => ?moving, fun hserved htaken => ?moved⟩⟩
  case beat => exact exec_streamBeatArrival_up hup x y ch net
  case empty => rw [exec_descriptorRetire_up hup, Block.doRetire_empty hempty]
  case moving =>
    rw [exec_descriptorRetire_up hup, Block.doRetire_moving hqueue (hmoving.imp_right (And.imp_left (mt hch.mpr)))]
  case moved =>
    have hexec := exec_descriptorRetire_up hup x y ch
    rw [Block.doRetire_moved hqueue hserved (htaken.imp_left hch.mp)] at hexec
    refine ⟨_, hexec, rfl, fun k => ?_⟩
    simp only [Cluster.chan_setChan, eq_comm]

end Sys2Proof
end

section
/-! PROOFS. The control messages of the fix protocol as they reach the unit of their job (R159, R160, R163, R165, R166, R168, R169). -/
namespace Sys2Proof.Machine

/-! ## A message is taken, counted or kept (R159) -/

section Receive
variable {b : Block} {p n q : Nat} {m : GenMsg}

theorem Block.takes_eq_some : b.takes p m = some q ↔ b.jobPart p m.job = some q ∧ m.epoch = (b.gen q).regs.epoch := by
  simp [Block.takes, Option.bind_eq_some_iff]

theorem Block.takes_noJob (hjob : b.jobPart p m.job = none) : b.takes p m = none := by
  simp [Block.takes, hjob]

theorem Block.takes_otherEpoch (hjob : b.jobPart p m.job = some q) (hepoch : m.epoch ≠ (b.gen q).regs.epoch) : b.takes p m = none := by
  simp [Block.takes, hjob, hepoch]

theorem Block.receive_taken (h : b.takes p m = some q) (f : Nat → Block) : b.receive p n m f = f q := by
  obtain ⟨hjob, hepoch⟩ := Block.takes_eq_some.mp h
  simp [Block.receive, hjob, hepoch]

/-- What becomes of a message that no unit takes does not depend on what its unit would do with it. -/
theorem Block.receive_untaken (h : b.takes p m = none) (f g : Nat → Block) : b.receive p n m f = b.receive p n m g := by
  unfold Block.receive
  cases hjob : b.jobPart p m.job with
  | none => rfl
  | some q =>
    have hepoch : m.epoch ≠ (b.gen q).regs.epoch := fun heq => by simp [Block.takes, hjob, heq] at h
    simp only [if_neg hepoch]

theorem Block.receive_noJob (hjob : b.jobPart p m.job = none) (f : Nat → Block) : b.receive p n m f = b.countStale p := by
  simp [Block.receive, hjob]

theorem Block.receive_older (hjob : b.jobPart p m.job = some q) (hepoch : m.epoch ≠ (b.gen q).regs.epoch)
    (hstale : staleEpoch (b.gen q).regs.epoch m.epoch = true) (f : Nat → Block) : b.receive p n m f = b.countStale q := by
  simp [Block.receive, hjob, hepoch, hstale]

theorem Block.receive_newer (hjob : b.jobPart p m.job = some q) (hepoch : m.epoch ≠ (b.gen q).regs.epoch)
    (hstale : staleEpoch (b.gen q).regs.epoch m.epoch = false) (f : Nat → Block) :
    b.receive p n m f = b.modAux q (fun a => { a with early := a.early ++ [(n, m)] }) := by
  simp [Block.receive, hjob, hepoch, hstale]

end Receive

/-! ## The commands on a running module -/

section Commands
variable {s : State} (hup : s.Up) {i : Instr} {p n q : Nat} {m : GenMsg}
include hup

theorem exec_control_taken (f : Env → Block → Nat → Block)
    (hi : exec i s = .next (s.onBlock fun e b => b.control p n m (f e))) (htaken : (s.blk.consumeGen n m).takes p m = some q) :
    exec i s = .next { s with blk := f s.env (s.blk.consumeGen n m) q } := by
  rw [hi, s.onBlock_up _ hup, Block.control, Block.receive_taken htaken]

theorem exec_controlCur_taken (f : Env → Block → Nat → Block × Nat)
    (hi : exec i s = .next (s.onCur fun e b => b.controlCur e p n m (f e))) (htaken : (s.blk.consumeGen n m).takes p m = some q) :
    exec i s = .next { s with
      blk := (f s.env (s.blk.consumeGen n m) q).1, cur := mset 0 s.cur q (f s.env (s.blk.consumeGen n m) q).2 } := by
  rw [hi, s.onCur_up _ hup]
  simp only [Block.controlCur, htaken]
  rfl

end Commands

/-- The control messages as commands, by CTYPE (R161). -/
def genMessages (p : Fin 8) (m : GenMsg) : List (Nat × Instr) :=
  [(1, .maxima p m), (2, .expose p m), (3, .ready p m), (4, .order p m), (5, .fixed p m), (6, .confirm p m), (7, .abort p m),
    (8, .rewound p m), (9, .restart p m), (10, .loaded p m)]

/-- Every control message goes through the one door of its unit; three of them may make another generation current. -/
theorem exec_genMessage {s : State} {i : Instr} {p : Fin 8} {n : Nat} {m : GenMsg} (hi : (n, i) ∈ genMessages p m) :
    (∃ f : Env → Block → Nat → Block, exec i s = .next (s.onBlock fun e b => b.control p n m (f e))) ∨
    (∃ f : Env → Block → Nat → Block × Nat, exec i s = .next (s.onCur fun e b => b.controlCur e p n m (f e))) := by
  simp only [genMessages, List.mem_cons, Prod.mk.injEq, List.not_mem_nil, or_false] at hi
  obtain ⟨rfl, rfl⟩ | ⟨rfl, rfl⟩ | ⟨rfl, rfl⟩ | ⟨rfl, rfl⟩ | ⟨rfl, rfl⟩ | ⟨rfl, rfl⟩ | ⟨rfl, rfl⟩ | hi := hi
  iterate 7 exact .inl ⟨_, rfl⟩
  obtain ⟨rfl, rfl⟩ | ⟨rfl, rfl⟩ | ⟨rfl, rfl⟩ := hi
  all_goals exact .inr ⟨_, rfl⟩

/-- A message that no unit takes leaves every generation current. -/
theorem exec_genMessage_untaken {s : State} {i : Instr} {p : Fin 8} {n : Nat} {m : GenMsg} (hup : s.Up)
    (hi : (n, i) ∈ genMessages p m)
    (huntaken : (s.blk.consumeGen n m).takes p m = none) (g : Nat → Block) :
    exec i s = .next { s with blk := (s.blk.consumeGen n m).receive p n m g } := by
  obtain ⟨f, hf⟩ | ⟨f, hf⟩ := exec_genMessage (s := s) hi
  · rw [hf, s.onBlock_up _ hup, Block.control, Block.receive_untaken huntaken _ g]
  · rw [hf, s.onCur_up _ hup]
    simp only [Block.controlCur, huntaken, Block.receive_untaken huntaken _ g]
    rfl

/-! ## What the unit does with them -/

section Unit
variable {b : Block} {e : Env} {p : Nat} {m : GenMsg}

theorem Block.onAbort_rewinds (h : bit m.flags 2 = false) :
    b.onAbort e p m = b.abortLocal e p (m.data.getD 0 3) 0 (m.data.getD 2 0) false true := by
  simp [Block.onAbort, h]

theorem Block.onAbort_stops (h : bit m.flags 2 = true) :
    b.onAbort e p m = (b.abortLocal e p (m.data.getD 0 3) (m.data.getD 1 0) (m.data.getD 2 0) true true).genEvent e p 6 2
      (e.curGen p) [(32, 1, 2), (33, 1, m.data.getD 1 0)] := by
  simp [Block.onAbort, h]

end Unit

end Sys2Proof.Machine

namespace Sys2Proof
open Machine

/-- Settles O14: a message that its unit takes (`exec_control_taken`, `exec_controlCur_taken`) has the effect of its kind, under the
unit's state for ORDER, REWOUND, RESTART and LOADED and by the stop flag for ABORT. -/
theorem generationMessagesAct : Obligations.GenerationMessagesAct := by
  unfold Obligations.GenerationMessagesAct
  intro s p m q b hup
  refine ⟨?maxima, ?expose, ?ready, ?order, ?fixed, ?confirm, ?abort, ?rewound, ?restart, ?loaded⟩
  case maxima => rintro rfl htaken; exact exec_control_taken hup (fun e b q => b.onMaxima e q m) rfl htaken
  case expose => rintro rfl htaken; exact exec_control_taken hup (fun e b q => b.onExpose e q m) rfl htaken
  case ready => rintro rfl htaken; exact exec_control_taken hup (fun e b q => b.onReady e q m) rfl htaken
  case fixed => rintro rfl htaken; exact exec_control_taken hup (fun e b q => b.onFixed e q m) rfl htaken
  case order => rintro rfl htaken; exact exec_control_taken (i := .order p m) hup _ rfl htaken
  case confirm => rintro rfl htaken; exact exec_control_taken (i := .confirm p m) hup _ rfl htaken
  case abort =>
    rintro rfl htaken
    have hexec := exec_control_taken (i := .abort p m) hup (fun e b q => b.onAbort e q m) rfl htaken
    exact ⟨fun hrewinds => by rw [hexec, Block.onAbort_rewinds hrewinds], fun hstops => by rw [hexec, Block.onAbort_stops hstops]⟩
  case rewound =>
    rintro rfl htaken hstate
    have hexec := exec_controlCur_taken (i := .rewound p m) hup _ rfl htaken
    rwa [if_pos hstate] at hexec
  case restart =>
    rintro rfl htaken hstate hnone
    have hexec := exec_controlCur_taken (i := .restart p m) hup _ rfl htaken
    simpa [hstate, hnone] using hexec
  case loaded =>
    rintro rfl htaken hstate
    have hexec := exec_controlCur_taken (i := .loaded p m) hup _ rfl htaken
    rwa [if_pos hstate] at hexec

/-- Settles O15: a message that no unit takes is counted or kept, whatever its kind (`exec_genMessage_untaken`), by whether its job is held
and by its epoch. -/
theorem generationMessagesWait : Obligations.GenerationMessagesWait := by
  unfold Obligations.GenerationMessagesWait
  rintro s p m n i b hup hi rfl
  refine ⟨fun hjob => ?noJob, fun q hjob hepoch => ⟨fun hstale => ?older, fun hstale => ?newer⟩⟩
  case noJob =>
    rw [exec_genMessage_untaken hup hi (Block.takes_noJob hjob) fun _ => s.blk, Block.receive_noJob hjob]; rfl
  case older =>
    rw [exec_genMessage_untaken hup hi (Block.takes_otherEpoch hjob hepoch) fun _ => s.blk, Block.receive_older hjob hepoch hstale]; rfl
  case newer =>
    rw [exec_genMessage_untaken hup hi (Block.takes_otherEpoch hjob hepoch) fun _ => s.blk, Block.receive_newer hjob hepoch hstale]

end Sys2Proof
end

section
/-! PROOFS. What MEM_WRITE leaves in memory inside one granule, and what MEM_READ answers (R158, R210, R215, R231, R377). -/
namespace Sys2Proof.Machine

/-! ## The commands on a running module -/

section Commands
variable {s : State} (hup : s.Up) (q : Asker) (a : Fin (2 ^ 48))
include hup

theorem exec_memWrite_up (bs : List Byte) (poison cmpr act : Bool) :
    exec (.memWrite q a bs poison cmpr act) s = .next { s with blk := s.blk.doMemWrite s.env q a bs poison cmpr act } :=
  congrArg Host.Outcome.next (s.onBlock_up _ hup)

theorem exec_memRead_up (f : Ecc) (act : Bool) :
    exec (.memRead q a f act) s = .next { s with blk := s.blk.doMemRead s.env q a f act } :=
  congrArg Host.Outcome.next (s.onBlock_up _ hup)

end Commands

/-! ## What leaves the contents of memory alone -/

theorem SameMemory.seenBy {b c : Block} (h : SameMemory b c) (q : Req) (a n : Nat) : c.seenBy q a n = b.seenBy q a n := by
  obtain ⟨hmap, hbytes, hpoison, hewa, -, -⟩ := h
  have ⟨_, _, hsyn, _⟩ := hmap
  simp only [Block.seenBy, Block.readGranule, hbytes, hpoison, hewa, hmap.guardOf, hmap.guardHolder, hsyn]

theorem refuseAccess_sameMemory (b : Block) (e : Env) (q : Req) (a reason : Nat) : SameMemory b (b.refuseAccess e q a reason) := by
  have hnoted : ∀ (c : Block) (l : SMap Nat), SameMemory c { c with mem := { c.mem with lastEvt := l } } := fun _ _ =>
    ⟨⟨rfl, rfl, rfl, rfl, rfl, rfl, rfl, rfl, fun _ => ⟨rfl, rfl⟩, fun _ => rfl⟩, rfl, rfl, rfl, rfl, rfl⟩
  unfold Block.refuseAccess
  extract_lets pl s counted noted
  have hcounted : SameMemory b counted := bumpStack_sameMemory _ _ _ _
  split
  case isTrue => exact hcounted
  case isFalse => exact (hcounted.trans (hnoted _ _)).trans (post_reports _ _ _).sameMemory

theorem Block.latentTouched_mem (b : Block) (q : Req) (a : Nat) : (b.latentTouched q a).mem = b.mem := by
  unfold Block.latentTouched
  split
  case isTrue =>
    split
    case h_1 => split <;> rfl
    case h_2 => rfl
  case isFalse => rfl

theorem Block.settleLine_noAdds {b : Block} {a : Nat} (h : ∀ x ∈ b.shc.adds, x.addr / 128 ≠ a / 128) (e : Env) :
    b.settleLine e a = b := by
  have hnone : b.shc.adds.filter (fun x => decide (x.addr / 128 = a / 128)) = [] :=
    List.filter_eq_nil_iff.mpr fun x hx => by simpa using h x hx
  rw [Block.settleLine, hnone]
  rfl

/-! ## A write inside one granule (R215) -/

section Granule
variable (b : Block) (e : Env) (a : Nat) (bs : List Byte) (cmpr : Bool)

theorem Block.writeGranule_clean (h : mget false b.mem.poison (a / 64) = false ∨ bs.length = 64) :
    mget false (b.writeGranule e a bs false cmpr).mem.poison (a / 64) = false ∧
    ∀ x, mget 0 (b.writeGranule e a bs false cmpr).mem.bytes x =
      if a ≤ x ∧ x < a + bs.length then bs.getD (x - a) 0 else mget 0 b.mem.bytes x := by
  obtain ⟨hbytes, hpoison⟩ := writeGranule_mem b e a bs false cmpr
  have hstores : ¬(mget false b.mem.poison (a / 64) = true ∧ bs.length ≠ 64) := by
    rintro ⟨hp, hl⟩
    obtain h | h := h
    · simp [h] at hp
    · exact hl h
  rw [if_neg Bool.false_ne_true, if_neg hstores] at hbytes hpoison
  rw [hbytes, hpoison]
  exact ⟨mget_mset_self .., mget_putBytes _ _ _⟩

theorem mget_putBytes_zeroGranule (m : SMap Byte) (x : Nat) :
    mget 0 (putBytes m (a / 64 * 64) (zeros 64)) x = if x / 64 = a / 64 then 0 else mget 0 m x := by
  rw [mget_putBytes]
  have hin : (a / 64 * 64 ≤ x ∧ x < a / 64 * 64 + (zeros 64).length) ↔ x / 64 = a / 64 := by
    simp only [zeros, List.length_replicate]; omega
  have hzero : (zeros 64).getD (x - a / 64 * 64) 0 = 0 := by
    rw [zeros, List.getD_eq_getElem?_getD, List.getElem?_replicate]
    split
    case isTrue => rfl
    case isFalse => rfl
  simp only [hin, hzero]

theorem Block.writeGranule_poisoned :
    mget false (b.writeGranule e a bs true cmpr).mem.poison (a / 64) = true ∧
    ∀ x, mget 0 (b.writeGranule e a bs true cmpr).mem.bytes x = if x / 64 = a / 64 then 0 else mget 0 b.mem.bytes x := by
  obtain ⟨hbytes, hpoison⟩ := writeGranule_mem b e a bs true cmpr
  rw [if_pos rfl] at hbytes hpoison
  rw [hbytes, hpoison]
  exact ⟨mget_mset_self .., mget_putBytes_zeroGranule a _⟩

/-- Clean bytes into part of a poisoned granule are lost. -/
theorem Block.writeGranule_lost (h : mget false b.mem.poison (a / 64) = true) (hpart : bs.length ≠ 64) :
    (b.writeGranule e a bs false cmpr).mem.bytes = b.mem.bytes ∧
    mget false (b.writeGranule e a bs false cmpr).mem.poison (a / 64) = true := by
  obtain ⟨hbytes, hpoison⟩ := writeGranule_mem b e a bs false cmpr
  rw [if_neg Bool.false_ne_true, if_pos ⟨h, hpart⟩] at hbytes hpoison
  rw [hbytes, hpoison]
  exact ⟨rfl, h⟩

end Granule

/-! ## A write of bytes inside one granule for a requester -/

section Write
variable {b : Block} {e : Env} {q : Req} {cmpr : Bool} {a pa : Nat} {bs : List (Byte × Bool)}

/-- A write that stays inside one granule is one piece. -/
theorem Block.writeMem_piece (hne : bs ≠ []) (hlen : bs.length ≤ 64 - a % 64) :
    b.writeMem e q cmpr a bs = b.writePiece e q cmpr a bs := by
  have hin : inGranule a bs.length = bs.length := Nat.min_eq_left hlen
  have hmore : bs.isEmpty = false := by simpa using hne
  simp [Block.writeMem, Block.writeFuel, hin, hmore]

variable (hgo : b.redirect e q true a = .go pa)
include hgo

theorem Block.writePiece_refused {r : Nat} (hfault : b.accessFault q true pa = some r) :
    b.writePiece e q cmpr a bs = (b.refuseAccess e q pa r).latentTouched q a := by
  simp only [Block.writePiece, hgo, hfault]

theorem Block.writePiece_stored (hfault : b.accessFault q true pa = none) (hdead : b.deadSlice pa = none)
    (hguard : b.guardOf pa = none) (hadds : ∀ x ∈ b.shc.adds, x.addr / 128 ≠ pa / 128) :
    b.writePiece e q cmpr a bs = (b.writeGranule e pa (bs.map Prod.fst) (bs.any Prod.snd) cmpr).latentTouched q a := by
  simp only [Block.writePiece, hgo, hfault, hdead, hguard, Block.settleLine_noAdds hadds]

end Write

/-! ## MEM_WRITE -/

section MemWrite
variable {b : Block} {e : Env} {q : Asker} {a pa : Nat} {bs : List Byte} (poison cmpr act : Bool) (hne : bs ≠ [])
  (hlen : bs.length ≤ 64 - a % 64) (hgo : b.redirect e q.req true a = .go pa)
include hne hlen hgo

/-- MEM_WRITE inside one granule is one piece, after its stack has counted the access. -/
theorem Block.doMemWrite_piece : ∃ c, SameMemory b c ∧
    b.doMemWrite e q a bs poison cmpr act = c.writePiece e q.req cmpr a (bs.map (fun x => (x, poison))) := by
  have hsize : inGranule a bs.length = bs.length := Nat.min_eq_left hlen
  have hsmall : bs.length ≠ 512 := by omega
  have hwrite : ∀ c : Block, c.writeMem e q.req cmpr a (bs.map fun x => (x, poison)) =
      c.writePiece e q.req cmpr a (bs.map fun x => (x, poison)) := fun c =>
    Block.writeMem_piece (by simpa using hne) (by simpa using hlen)
  unfold Block.doMemWrite
  simp only [hsmall, decide_false, Bool.false_and, Bool.and_false, Bool.false_eq_true, if_false, hsize, List.take_length, hgo, hwrite]
  refine ⟨_, ?_, rfl⟩
  split
  case h_1 =>
    split
    case isTrue => exact served_sameMemory _ _ _ _ _
    case isFalse => exact .refl b
  case h_2 => exact .refl b

theorem Block.doMemWrite_refused {r : Nat} (hfault : b.accessFault q.req true pa = some r) :
    (b.doMemWrite e q a bs poison cmpr act).mem.bytes = b.mem.bytes := by
  obtain ⟨c, hc, hwrite⟩ := b.doMemWrite_piece poison cmpr act hne hlen hgo
  obtain ⟨-, hbytes, -⟩ := hc.trans (refuseAccess_sameMemory c e q.req pa r)
  rw [hwrite, Block.writePiece_refused ((hc.1.redirect ..).trans hgo) ((hc.1.accessFault ..).trans hfault),
    Block.latentTouched_mem, hbytes]

/-- MEM_WRITE that is let through leaves in memory what a write of its granule leaves. -/
theorem Block.doMemWrite_stored (hdead : b.deadSlice pa = none) (hfault : b.accessFault q.req true pa = none)
    (hguard : b.guardOf pa = none) (hadds : ∀ x ∈ b.shc.adds, x.addr / 128 ≠ pa / 128) :
    ∃ c, SameMemory b c ∧ (b.doMemWrite e q a bs poison cmpr act).mem = (c.writeGranule e pa bs poison cmpr).mem := by
  obtain ⟨c, hc, hwrite⟩ := b.doMemWrite_piece poison cmpr act hne hlen hgo
  have ⟨hmap, _, _, _, hsameAdds, _⟩ := hc
  have hbytes : (bs.map fun x => (x, poison)).map Prod.fst = bs := by simp [Function.comp_def]
  have hpoison : (bs.map fun x => (x, poison)).any Prod.snd = poison := by
    obtain ⟨x, xs, rfl⟩ := List.exists_cons_of_ne_nil hne
    cases poison <;> simp
  refine ⟨c, hc, ?_⟩
  rw [hwrite, Block.writePiece_stored ((hmap.redirect ..).trans hgo) ((hmap.accessFault ..).trans hfault)
    ((hmap.deadSlice _).trans hdead) ((hmap.guardOf _).trans hguard) (hsameAdds ▸ hadds), Block.latentTouched_mem, hbytes, hpoison]

end MemWrite

/-! ## A read inside one granule for a requester -/

section Read
variable {b : Block} {e : Env} {q : Req} {a pa n : Nat} (hgo : b.redirect e q false a = .go pa)
include hgo

theorem Block.readPiece_refused {r : Nat} (hfault : b.accessFault q false pa = some r) :
    b.readPiece e q a n = (b.refuseAccess e q pa r, (zeros n).map (fun x => (x, true))) := by
  simp only [Block.readPiece, hgo, hfault]

theorem Block.readPiece_answered (hfault : b.accessFault q false pa = none) (hdead : b.deadSlice pa = none)
    (hadds : ∀ x ∈ b.shc.adds, x.addr / 128 ≠ pa / 128) :
    b.readPiece e q a n = (b.touch pa false false false, b.seenBy q pa n) := by
  simp only [Block.readPiece, hgo, hfault, hdead, Block.settleLine_noAdds hadds]

end Read

theorem Block.seenBy_unguarded {b : Block} {a : Nat} (h : b.guardOf a = none) (q : Req) (n : Nat) :
    b.seenBy q a n = b.readGranule a n := by
  simp only [Block.seenBy, h]

/-! ## MEM_READ -/

section MemRead
variable {b : Block} {e : Env} {q : Asker} {a pa : Nat} (act : Bool) (hgo : b.redirect e q.req false (a / 64 * 64) = .go pa)
include hgo

/-- A clean MEM_READ answers the piece that its requester reads, after its stack has counted the access. -/
theorem Block.doMemRead_piece : ∃ c, SameMemory b c ∧ b.doMemRead e q a .clean act =
    (c.readPiece e q.req (a / 64 * 64) 64).1.emit (.data q.id (c.readPiece e q.req (a / 64 * 64) 64).2) := by
  simp only [Block.doMemRead, hgo, Block.eccRead]
  refine ⟨_, ?_, rfl⟩
  split
  case h_1 => exact served_sameMemory _ _ _ _ _
  case h_2 => exact .refl b

theorem Block.doMemRead_refused {r : Nat} (hfault : b.accessFault q.req false pa = some r) :
    ∃ l, (b.doMemRead e q a .clean act).out = l ++ [.data q.id ((zeros 64).map (fun x => (x, true)))] ∧
      (b.doMemRead e q a .clean act).mem.bytes = b.mem.bytes := by
  obtain ⟨c, hc, hread⟩ := Block.doMemRead_piece act hgo
  obtain ⟨-, hbytes, -⟩ := hc.trans (refuseAccess_sameMemory c e q.req pa r)
  rw [hread, Block.readPiece_refused ((hc.1.redirect ..).trans hgo) ((hc.1.accessFault ..).trans hfault)]
  exact ⟨_, rfl, hbytes⟩

theorem Block.doMemRead_answered (hdead : b.deadSlice pa = none) (hfault : b.accessFault q.req false pa = none)
    (hadds : ∀ x ∈ b.shc.adds, x.addr / 128 ≠ pa / 128) :
    ∃ l, (b.doMemRead e q a .clean act).out = l ++ [.data q.id (b.seenBy q.req pa 64)] ∧
      (b.doMemRead e q a .clean act).mem.bytes = b.mem.bytes := by
  obtain ⟨c, hc, hread⟩ := Block.doMemRead_piece act hgo
  have ⟨hmap, hbytes, _, _, hsameAdds, _⟩ := hc
  rw [hread, Block.readPiece_answered ((hmap.redirect ..).trans hgo) ((hmap.accessFault ..).trans hfault)
    ((hmap.deadSlice _).trans hdead) (hsameAdds ▸ hadds), hc.seenBy]
  exact ⟨_, rfl, hbytes⟩

end MemRead

end Sys2Proof.Machine

namespace Sys2Proof
open Machine

/-- Settles O23: a write inside one granule is one piece, which is refused (`doMemWrite_refused`) or leaves what `writeGranule` does
(`doMemWrite_stored`); a clean read answers the piece that its requester sees (`doMemRead_answered`). -/
theorem memoryHoldsWhatIsWritten : Obligations.MemoryHoldsWhatIsWritten := by
  unfold Obligations.MemoryHoldsWhatIsWritten
  intro s q a pa act hup
  refine ⟨fun bs poison cmpr hne hlen hgo hdead => ⟨fun r hfault => ?writeRefused, fun hfault hguard hadds => ?writeStored⟩,
    fun hgo hdead => ⟨fun r hfault => ?readRefused, fun hfault hadds => ?readAnswered⟩⟩
  case writeRefused =>
    exact ⟨_, exec_memWrite_up hup .., rfl, rfl, rfl, Block.doMemWrite_refused _ _ _ hne hlen hgo hfault⟩
  case writeStored =>
    obtain ⟨c, ⟨-, hbytes, hpoisoned, -⟩, hmem⟩ := Block.doMemWrite_stored poison cmpr act hne hlen hgo hdead hfault hguard hadds
    refine ⟨_, exec_memWrite_up hup .., rfl, rfl, rfl, ?_⟩
    dsimp only
    rw [hmem, ← hbytes, ← hpoisoned]
    refine ⟨?clean, ?poisoned, ?lost⟩
    case clean => rintro rfl hstores; exact c.writeGranule_clean s.env pa bs cmpr hstores
    case poisoned => rintro rfl; exact c.writeGranule_poisoned s.env pa bs cmpr
    case lost => rintro rfl hlost hpart; exact c.writeGranule_lost s.env pa bs cmpr hlost hpart
  case readRefused =>
    obtain ⟨l, hout, hbytes⟩ := Block.doMemRead_refused act hgo hfault
    exact ⟨_, l, exec_memRead_up hup .., hout, hbytes⟩
  case readAnswered =>
    obtain ⟨l, hout, hbytes⟩ := Block.doMemRead_answered act hgo hdead hfault hadds
    exact ⟨_, l, exec_memRead_up hup .., rfl, rfl, rfl, hout, hbytes, fun hguard => Block.seenBy_unguarded hguard q.req 64⟩

end Sys2Proof
end

section
/-! PROOFS. Jobs are loaded and unloaded (R157, R317 to R320). -/
namespace Sys2Proof.Machine

/-! ## The commands on a running module -/

section Commands
variable {s : State} (hup : s.Up) (q : Fin 256)
include hup

theorem exec_load_up : exec (.load q) s = .next { s with blk := (s.blk.doLoad s.env q).1, cur := (s.blk.doLoad s.env q).2 } :=
  congrArg Host.Outcome.next (s.onCur_up _ hup)

/-- A load that answers the map of generations as it found it changes the block alone. -/
theorem exec_load_refused {c : Block} (h : s.blk.doLoad s.env q = (c, s.env.cur)) : exec (.load q) s = .next { s with blk := c } := by
  rw [exec_load_up hup, h]; rfl

theorem exec_unload_up : exec (.unload q) s = .next { s with blk := s.blk.doUnload s.env q } :=
  congrArg Host.Outcome.next (s.onBlock_up _ hup)

end Commands

/-! ## LOAD: its checks in their order (R317, R319) -/

theorem Block.loadBlockFault_ne_none {b : Block} {k : LoadBlock} {part : Nat}
    (h : 8 ≤ k.part ∨ (mget ({} : Part) b.fe.parts k.part).valid = false ∨ (part ≠ 15 ∧ part ≠ k.part) ∨
      b.holdsJob k.part = true) :
    b.loadBlockFault k part ≠ none := by
  unfold Block.loadBlockFault
  split
  case h_1 => exact Option.some_ne_none _
  case h_2 =>
    rw [if_pos]
    · exact Option.some_ne_none _
    · obtain h | h | ⟨h, h'⟩ | h := h <;> simp [*]

section Load
variable {b : Block} {e : Env} {q : Nat}

theorem Block.doLoad_idle (h : b.activeOpc q 1 = none) : b.doLoad e q = (b, e.cur) := by
  simp only [Block.doLoad, h]

variable {r : Running} {arg : Block × List Byte} {k : LoadBlock} (hrun : b.activeOpc q 1 = some r)
  (harg : arg = b.readArg e (engineReq 46) (b.queue q) r 64) (hk : k = LoadBlock.ofBytes arg.2)
include hrun harg hk

theorem Block.doLoad_badBlock {f : Nat × Nat} (hblock : arg.1.loadBlockFault k r.part = some f) :
    b.doLoad e q = (arg.1.refuseCmd e q r.seq f.1 f.2, e.cur) := by
  simp only [Block.doLoad, hrun, ← harg, ← hk, hblock]

variable (hblock : arg.1.loadBlockFault k r.part = none) {o : Block × List (Byte × Bool)} {raw : Container}
  (ho : o = if k.host then arg.1.takeHost false k.image k.len else arg.1.readMem e { id := engineReq 46, part := k.part } k.image k.len)
include hblock ho

theorem Block.doLoad_poisoned (hpoison : o.2.any Prod.snd = true) : b.doLoad e q = (o.1.refuseCmd e q r.seq 7 16, e.cur) := by
  simp only [Block.doLoad, hrun, ← harg, ← hk, hblock, ← ho, hpoison, if_true]

variable (hraw : raw = { bytes := o.2.map Prod.fst }) (hclean : o.2.any Prod.snd = false)
include hraw hclean

theorem Block.doLoad_badHeader {off : Nat} (hheader : raw.headerFault = some off) :
    b.doLoad e q = (o.1.refuseCmd e q r.seq 7 off, e.cur) := by
  simp only [Block.doLoad, hrun, ← harg, ← hk, hblock, ← ho, hclean, ← hraw, hheader, Bool.false_eq_true, if_false]

theorem Block.doLoad_badRelocs (hheader : raw.headerFault = none) (hrelocs : raw.relocsOk = false) :
    b.doLoad e q = (o.1.refuseCmd e q r.seq 7 (raw.off 8), e.cur) := by
  simp only [Block.doLoad, hrun, ← harg, ← hk, hblock, ← ho, hclean, ← hraw, hheader, hrelocs, Bool.false_eq_true, if_false,
    Bool.not_false, if_true]

variable (hheader : raw.headerFault = none) (hrelocs : raw.relocsOk = true) {base : Nat} {placed : Block}
  (hbase : base = if k.host then k.delta.toNat else k.image)
  (hplaced : placed = (o.1.releaseJob k.part).writeMem e { id := engineReq 46, part := k.part, own := true } false base
    (clean (raw.relocate k).bytes))
include hheader hrelocs hbase hplaced

theorem Block.doLoad_badContainer {f : Nat × Nat} (hcheck : placed.containerFault k.part base (raw.relocate k) = some f) :
    b.doLoad e q = (o.1.refuseCmd e q r.seq f.1 f.2, e.cur) := by
  simp only [Block.doLoad, hrun, ← harg, ← hk, hblock, ← ho, hclean, ← hraw, hheader, hrelocs, Bool.false_eq_true, if_false,
    Bool.not_true, ← hbase, ← hplaced, hcheck]

theorem Block.doLoad_accepted (hcheck : placed.containerFault k.part base (raw.relocate k) = none) :
    b.doLoad e q = placed.acceptLoad e q r k base (raw.relocate k) := by
  simp only [Block.doLoad, hrun, ← harg, ← hk, hblock, ← ho, hclean, ← hraw, hheader, hrelocs, Bool.false_eq_true, if_false,
    Bool.not_true, ← hbase, ← hplaced, hcheck]

end Load

/-! ## UNLOAD (R317) -/

section Unload
variable {b : Block} {e : Env} {q : Nat}

theorem Block.doUnload_idle (h : b.activeOpc q 2 = none) : b.doUnload e q = b := by
  simp only [Block.doUnload, h]

variable {r : Running} (hrun : b.activeOpc q 2 = some r)
include hrun

theorem Block.doUnload_noJob (hnone : ∀ p < 8, (b.gen p).regs.state = 0 ∨ (b.gen p).regs.jobId ≠ r.desc.imm % 65536 ∨
    (r.part ≠ 15 ∧ r.part ≠ p)) : b.doUnload e q = b.refuseCmd e q r.seq 6 60 := by
  simp only [Block.doUnload, hrun]
  rw [List.find?_range_eq_none.mpr fun p hp => ?_]
  obtain hstate | hjob | ⟨h15, hpart⟩ := hnone p hp
  · simp only [hstate, ne_eq, not_true_eq_false, decide_false, Bool.false_and, Bool.not_false]
  · simp only [hjob, decide_false, Bool.and_false, Bool.false_and, Bool.not_false]
  · simp only [h15, hpart, decide_false, Bool.or_false, Bool.and_false, Bool.not_false]

/-- A command that may name its own partition alone finds the job there. -/
theorem Block.doUnload_own {p : Nat} (hp : p < 8) (hstate : (b.gen p).regs.state ≠ 0)
    (hjob : (b.gen p).regs.jobId = r.desc.imm % 65536) (hpart : r.part = p) :
    b.doUnload e q = (((b.retireCmd q r.seq).partitionReset e p 8).releaseJob p).post e
      { cls := 1, sev := 0, code := 11, part := p, source := feSource
        payload := [(24, 1, q), (26, 2, r.desc.imm % 65536), (32, 8, r.seq)] } := by
  simp only [Block.doUnload, hrun]
  rw [List.find?_range_eq_some.mpr ⟨?_, List.mem_range.mpr hp, fun j hj => ?_⟩]
  · simp [hstate, hjob, hpart]
  · have hother : r.part ≠ 15 ∧ r.part ≠ j := by omega
    simp [hother]

end Unload

end Sys2Proof.Machine

namespace Sys2Proof
open Machine

/-- Settles O38: LOAD by its first check that fails (`doLoad_badBlock` to `doLoad_badContainer`), each leaving the generations alone,
or accepted; UNLOAD by whether the partition that the command may name holds the job. -/
theorem jobsAreLoadedAndUnloaded : Obligations.JobsAreLoadedAndUnloaded := by
  unfold Obligations.JobsAreLoadedAndUnloaded
  refine ⟨fun s q hup hidle => ?idle, fun s q r arg k hup hrun harg hk => ⟨fun f hblock => ?block, fun hblock o raw ho hraw =>
    ⟨fun hpoison => ?poison, fun hclean => ⟨fun off hheader => ?header, fun hheader hrelocs => ?relocs,
      fun hheader hrelocs base placed hbase hplaced =>
        ⟨fun f hcheck => ?container, fun hcheck => ?accepted⟩⟩⟩⟩,
    fun b k part => Block.loadBlockFault_ne_none, fun s q hup => ⟨fun hidle => ?unloadIdle, fun r hrun => ⟨fun hnone => ?noJob,
      fun p hp hstate hjob hpart => ?unloads⟩⟩⟩
  case idle => exact exec_load_refused hup q (Block.doLoad_idle hidle)
  case block => exact exec_load_refused hup q (Block.doLoad_badBlock hrun harg hk hblock)
  case poison => exact exec_load_refused hup q (Block.doLoad_poisoned hrun harg hk hblock ho hpoison)
  case header => exact exec_load_refused hup q (Block.doLoad_badHeader hrun harg hk hblock ho hraw hclean hheader)
  case relocs => exact exec_load_refused hup q (Block.doLoad_badRelocs hrun harg hk hblock ho hraw hclean hheader hrelocs)
  case container =>
    exact exec_load_refused hup q
      (Block.doLoad_badContainer hrun harg hk hblock ho hraw hclean hheader hrelocs hbase hplaced hcheck)
  case accepted =>
    rw [exec_load_up hup,
      Block.doLoad_accepted hrun harg hk hblock ho hraw hclean hheader hrelocs hbase hplaced hcheck]
  case unloadIdle => rw [exec_unload_up hup, Block.doUnload_idle hidle]
  case noJob => rw [exec_unload_up hup, Block.doUnload_noJob hrun hnone]
  case unloads => exact ⟨_, rfl, by rw [exec_unload_up hup, Block.doUnload_own hrun hp hstate hjob hpart]⟩

end Sys2Proof
end

section
/-! PROOFS. The step of the queue and of the empty queue, and the state after reset (R179). -/
namespace Sys2Proof.Machine

section Step
variable (s : State)

theorem step_cons (c : Instr) (rest : List Instr) : step { s with pending := c :: rest } = exec c { s with pending := rest } := rfl

theorem step_empty (h : s.pending = []) : step s = .next s.idleTick := by rw [step, h]

/-- A tick always advances: campus time moves to the next microsecond, and a module with power lets the time elapse. -/
theorem State.idleTick_eq : s.idleTick = { s with
    time := { now := s.time.now + 1, frac := 0 }
    blk := if s.blk.module.up then s.blk.elapse s.time.now (s.time.now + 1) else s.blk } := if_pos (Nat.lt_succ_self _)

end Step

/-! ## Reset -/

theorem State.reset_sound : State.reset.Sound :=
  ⟨rfl, fun _ => Nat.two_pow_pos 48, Nat.two_pow_pos 16, fun _ h => absurd h List.not_mem_nil⟩

/-- No queue is written at reset, so each reads as the COLD value: disabled, of no partition (R335). -/
theorem State.reset_queue (q : Nat) : State.reset.blk.queue q = {} := rfl

theorem State.reset_obj (n : Nat) : State.reset.blk.obj n = {} := rfl

end Sys2Proof.Machine

namespace Sys2Proof
open Machine

/-- Settles O57: on a queue by `step_cons`, on the empty queue by what an idle tick is (`State.idleTick_eq`). -/
theorem stepTakesTheFront : Obligations.StepTakesTheFront := by
  unfold Obligations.StepTakesTheFront
  refine ⟨fun c s rest => step_cons s c rest, fun s hempty => ⟨_, step_empty s hempty, ?_⟩⟩
  rw [State.idleTick_eq]
  exact ⟨rfl, rfl, hempty, fun hdown => by simp [hdown], fun hup => by simp [hup]⟩

/-- Settles O59: every register of the reset state is at its default, and every map of it is empty. -/
theorem resetIsSound : Obligations.ResetIsSound := by
  unfold Obligations.ResetIsSound
  refine ⟨State.reset_sound, ?_⟩
  have hqueues (q : Nat) : (State.reset.blk.queue q).enable = false ∧ (State.reset.blk.queue q).part = 15 := by
    rw [State.reset_queue]; exact ⟨rfl, rfl⟩
  have hholders (n : Nat) : (State.reset.blk.obj n).holder = 0 := by rw [State.reset_obj]
  exact ⟨rfl, rfl, rfl, fun _ => rfl, rfl, rfl, rfl, rfl, rfl, rfl, rfl, rfl, rfl, rfl, rfl, rfl, hqueues, fun _ => rfl, hholders⟩

end Sys2Proof
end

section
/-! PROOFS. The limit that the controller forms, and a curtailment's start and bound (R190, R194, R195, R204). -/
namespace Sys2Proof.Machine

/-! ## The commands on a running module -/

section Commands
variable {s s' : State}

theorem exec_levelChange_up (level : Fin 8) (hs : s' = s.eventAt (some (s.time.now + 4))) (hup : s'.Up) :
    exec (.levelChange level) s = .next { s' with blk := s'.blk.doLevelChange s'.env level } := by
  subst hs; exact congrArg Host.Outcome.next (State.onBlock_up _ _ hup)

theorem exec_swallowStart_up (hs : s' = s.scheduled s.blk.tim.swallowDue) (hup : s'.Up) :
    exec .swallowStart s = .next { s' with blk := s'.blk.doSwallowStart } := by
  subst hs; exact congrArg Host.Outcome.next (State.onBlock_up _ _ hup)

theorem exec_curtailMiss_up (hs : s' = s.eventAt s.blk.tim.missDue) (hup : s'.Up) :
    exec .curtailMiss s = .next { s' with blk := s'.blk.doCurtailMiss s'.env } := by
  subst hs; exact congrArg Host.Outcome.next (State.onBlock_up _ _ hup)

end Commands

/-! ## Partitions and plates under each update -/

section Updates
variable (b : Block) (p k : Nat)

theorem Block.partPower_setPartPower (q : Nat) (x : PartPower) :
    (b.setPartPower p x).partPower q = if p = q then x else b.partPower q := mget_mset _ _ _ _ _

theorem Block.platePower_setPlatePower (j : Nat) (x : PlatePower) :
    (b.setPlatePower j x).platePower k = if j = k then x else b.platePower k := mget_mset _ _ _ _ _

@[simp] theorem Block.platePower_setPartPower (x : PartPower) : (b.setPartPower p x).platePower k = b.platePower k := rfl
@[simp] theorem Block.platesOf_setPartPower (q : Nat) (x : PartPower) : (b.setPartPower p x).platesOf q = b.platesOf q := rfl

theorem Block.nodup_platesOf : (b.platesOf p).Nodup := List.nodup_range.filter _

end Updates

/-- From `b` to `c` only the clock and voltage of plates changed. -/
def PlatesOnly (b c : Block) : Prop := c = { b with tim := { b.tim with plates := c.tim.plates } }

section PlatesOnly
variable {b c : Block}

theorem PlatesOnly.refl (b : Block) : PlatesOnly b b := rfl

theorem PlatesOnly.setPlatePower (h : PlatesOnly b c) (k : Nat) (x : PlatePower) : PlatesOnly b (c.setPlatePower k x) := by
  rw [PlatesOnly] at h ⊢
  rw [h]; rfl

theorem PlatesOnly.partPower (h : PlatesOnly b c) (p : Nat) : c.partPower p = b.partPower p := by rw [h]; rfl
theorem PlatesOnly.platesOf (h : PlatesOnly b c) (p : Nat) : c.platesOf p = b.platesOf p := by rw [h]; rfl
theorem PlatesOnly.curtail (h : PlatesOnly b c) : c.tim.curtail = b.tim.curtail := by rw [h]

end PlatesOnly

section Plates
variable (b : Block) (p : Nat)

/-- Where each step of a pass over plates changes its own plate alone, the pass changes each plate that it names once. -/
theorem Block.platePower_foldl {f : Block → Nat → Block} {g : PlatePower → PlatePower}
    (hf : ∀ b j k, (f b j).platePower k = if j = k then g (b.platePower k) else b.platePower k)
    {l : List Nat} (hl : l.Nodup) (b : Block) (k : Nat) :
    (l.foldl f b).platePower k = if k ∈ l then g (b.platePower k) else b.platePower k := by
  induction l generalizing b with
  | nil => rfl
  | cons j l ih =>
    obtain ⟨hj, hl⟩ := List.nodup_cons.mp hl
    rw [List.foldl_cons, ih hl, hf]
    by_cases hjk : j = k
    · subst hjk
      simp [hj]
    · simp [hjk, Ne.symm hjk]

theorem Block.setSwallow_platesOnly (n : Nat) : PlatesOnly b (b.setSwallow p n) := by
  refine List.foldlRecOn _ _ (PlatesOnly.refl b) fun c hc k _ => ?_
  dsimp only
  split
  case isTrue => exact hc
  case isFalse => exact hc.setPlatePower _ _

/-- A plate's new swallow ratio; its pattern starts at count 0 where the ratio changes (R195). -/
def PlatePower.swallowing (n : Nat) (x : PlatePower) : PlatePower :=
  if x.swallow = n then x else { x with swallow := n, cyc := 0 }

@[simp] theorem PlatePower.swallowing_swallow (n : Nat) (x : PlatePower) : (x.swallowing n).swallow = n := by
  unfold PlatePower.swallowing
  split
  case isTrue h => exact h
  case isFalse => rfl

theorem Block.platePower_setSwallow (n k : Nat) : (b.setSwallow p n).platePower k =
    if k ∈ b.platesOf p then (b.platePower k).swallowing n else b.platePower k := by
  refine Block.platePower_foldl (fun c j k => ?_) (b.nodup_platesOf p) b k
  unfold PlatePower.swallowing
  dsimp only
  split
  case isTrue h =>
    split
    case isTrue hjk => subst hjk; rw [if_pos h]
    case isFalse => rfl
  case isFalse h =>
    rw [Block.platePower_setPlatePower]
    split
    case isTrue hjk => subst hjk; rw [if_neg h]
    case isFalse => rfl

end Plates

/-! ## Forming the limit (R190) -/

section Limit
variable (b : Block)

/-- A further term `w` of the limit, of source `k`, beside the least so far with its source. -/
def lowerTerm (x : Nat × Nat) (w k : Nat) : Nat × Nat := if w < x.1 then (w, k) else x

theorem lowerTerm_fst (x : Nat × Nat) (w k : Nat) : (lowerTerm x w k).1 = min x.1 w := by
  unfold lowerTerm
  split
  case isTrue h => exact (Nat.min_eq_right (Nat.le_of_lt h)).symm
  case isFalse h => exact (Nat.min_eq_left (Nat.not_lt.mp h)).symm

/-- The directive and the host bound the limit where they have set a cap; the pins and the temperature always do. -/
theorem Block.leastLimit_eq : b.leastLimit =
    let pin := (b.tim.levels.getD b.tim.pinLevel 0, 0)
    let capped := if b.tim.cap = 0 then pin else lowerTerm pin b.tim.cap 1
    let hosted := if b.tim.hostCap = 0 then capped else lowerTerm capped b.tim.hostCap 2
    lowerTerm hosted b.thermalLimit 3 := rfl

theorem Block.leastLimit_eq_min : b.leastLimit.1 =
    min (b.tim.levels.getD b.tim.pinLevel 0) (min (if b.tim.cap = 0 then b.thermalLimit else b.tim.cap)
      (min (if b.tim.hostCap = 0 then b.thermalLimit else b.tim.hostCap) b.thermalLimit)) := by
  rw [Block.leastLimit_eq]
  by_cases hcap : b.tim.cap = 0 <;> by_cases hhost : b.tim.hostCap = 0 <;>
    · simp only [hcap, hhost, if_true, if_false, lowerTerm_fst]
      omega

/-- From `b` to `c` neither L nor the curtailment under way changed. -/
def SameLimit (b c : Block) : Prop := c.tim.limit = b.tim.limit ∧ c.tim.curtail = b.tim.curtail

theorem SameLimit.trans {b c d : Block} (h : SameLimit b c) (k : SameLimit c d) : SameLimit b d :=
  ⟨k.1.trans h.1, k.2.trans h.2⟩

theorem Block.retune_tim (p fstep : Nat) : (b.retune p fstep).tim = b.tim := by
  refine List.foldlRecOn (motive := fun c : Block => c.tim = b.tim) _ _ rfl fun c hc k _ => ?_
  dsimp only
  split
  case isTrue => exact hc
  case isFalse => exact hc

theorem Block.aim_sameLimit (p : Nat) : SameLimit b (b.aim p) := by
  unfold Block.aim
  extract_lets x cur t up b'
  split
  case isTrue =>
    split
    case isTrue => exact ⟨rfl, rfl⟩
    case isFalse => exact ⟨rfl, rfl⟩
  case isFalse =>
    split
    case isTrue => exact ⟨rfl, rfl⟩
    case isFalse =>
      split
      case isTrue => exact ⟨rfl, rfl⟩
      case isFalse => rw [SameLimit, Block.retune_tim]; exact ⟨rfl, rfl⟩

theorem Block.limitDown_sameLimit (t0 : Nat) : SameLimit
    (b.setTim { b.tim with curtail := some { t0 := t0, started := false, missed := false } }) (b.limitDown t0) := by
  refine List.foldlRecOn _ _ ⟨rfl, rfl⟩ fun c hc x _ => hc.trans ?_
  dsimp only
  split
  case isTrue => exact SameLimit.trans ⟨rfl, rfl⟩ (Block.aim_sameLimit _ _)
  case isFalse => exact ⟨rfl, rfl⟩

theorem Block.limitUp_sameLimit : SameLimit (b.setTim { b.tim with curtail := none }) b.limitUp := by
  refine List.foldlRecOn _ _ ⟨rfl, rfl⟩ fun c hc x _ => hc.trans ?_
  refine SameLimit.trans ?_ (Block.aim_sameLimit _ _)
  exact ⟨rfl, rfl⟩

variable (t0 : Nat)

theorem Block.relimit_limit : (b.relimit t0).tim.limit = b.leastLimit.1 := by
  unfold Block.relimit
  extract_lets old x c
  split
  case isTrue => exact (c.limitDown_sameLimit t0).1
  case isFalse =>
    split
    case isTrue => exact c.limitUp_sameLimit.1
    case isFalse => rfl

/-- A fall of L starts a curtailment from the tick of its cause (R194). -/
theorem Block.relimit_curtail (h : (b.relimit t0).tim.limit < b.tim.limit) :
    (b.relimit t0).tim.curtail = some { t0 := t0, started := false, missed := false } := by
  rw [Block.relimit_limit] at h
  simp only [Block.relimit, if_pos h]
  exact (Block.limitDown_sameLimit _ t0).2

end Limit

/-! ## A level of the pins (R194) -/

section Level
variable (b : Block) (e : Env) {level : Nat}

theorem Block.doLevelChange_same (h : level = b.tim.pinLevel) : b.doLevelChange e level = b := if_pos h

theorem Block.doLevelChange_other (h : level ≠ b.tim.pinLevel) : b.doLevelChange e level =
    ((b.setTim { b.tim with pinLevel := level }).relimit (e.clk.now - 4)).timEvent e 7 0
      [(28, 1, b.tim.pinLevel), (29, 1, level), (32, 8, e.clk.now - 4)] := if_neg h

end Level

/-! ## Swallowing starts (R194, R195) -/

/-- Swallowing starts in one partition: a chosen ratio leaves the choice and goes to its plates. -/
def Block.startSwallow (b : Block) (p : Nat) : Block :=
  match (b.partPower p).ratio with
  | some n => (b.setPartPower p { b.partPower p with ratio := none }).setSwallow p n
  | none => b

section Swallow
variable (b : Block) (p : Nat)

theorem Block.startSwallow_platesOf (q : Nat) : (b.startSwallow p).platesOf q = b.platesOf q := by
  unfold Block.startSwallow
  split
  case h_1 => exact (Block.setSwallow_platesOnly _ _ _).platesOf q
  case h_2 => rfl

theorem Block.startSwallow_curtail : (b.startSwallow p).tim.curtail = b.tim.curtail := by
  unfold Block.startSwallow
  split
  case h_1 => exact (Block.setSwallow_platesOnly _ _ _).curtail
  case h_2 => rfl

theorem Block.startSwallow_ratio (q : Nat) :
    ((b.startSwallow p).partPower q).ratio = if p = q then none else (b.partPower q).ratio := by
  unfold Block.startSwallow
  split
  case h_1 n _ =>
    rw [(Block.setSwallow_platesOnly _ p n).partPower, Block.partPower_setPartPower, apply_ite PartPower.ratio]
  case h_2 hnone =>
    split
    case isTrue hpq => rw [← hpq, hnone]
    case isFalse => rfl

theorem Block.startSwallow_swallow (k : Nat) : ((b.startSwallow p).platePower k).swallow =
    if k ∈ b.platesOf p then ((b.partPower p).ratio).getD (b.platePower k).swallow else (b.platePower k).swallow := by
  unfold Block.startSwallow
  split
  case h_1 n hratio =>
    rw [Block.platePower_setSwallow, apply_ite PlatePower.swallow, PlatePower.swallowing_swallow, hratio]
    rfl
  case h_2 hnone => rw [hnone]; exact (ite_self _).symm

/-- Starting twice in one partition starts once, so a pass needs no order and no distinct partitions. -/
theorem Block.startSwallow_foldl_ratio (l : List Nat) (q : Nat) :
    ((l.foldl Block.startSwallow b).partPower q).ratio = if q ∈ l then none else (b.partPower q).ratio := by
  induction l generalizing b with
  | nil => rfl
  | cons p l ih =>
    rw [List.foldl_cons, ih, Block.startSwallow_ratio]
    by_cases hpq : p = q
    · simp [hpq]
    · simp [hpq, Ne.symm hpq]

theorem Block.startSwallow_foldl_curtail (l : List Nat) : (l.foldl Block.startSwallow b).tim.curtail = b.tim.curtail :=
  List.foldlRecOn (motive := fun c : Block => c.tim.curtail = b.tim.curtail) l _ rfl
    fun c hc p _ => (c.startSwallow_curtail p).trans hc

/-- A plate of partition `p` and of no other partition in a pass swallows at the ratio of `p`. -/
theorem Block.startSwallow_foldl_swallow {l : List Nat} {k : Nat} (hk : k ∈ b.platesOf p)
    (hown : ∀ q ∈ l, k ∈ b.platesOf q → q = p) : ((l.foldl Block.startSwallow b).platePower k).swallow =
      if p ∈ l then ((b.partPower p).ratio).getD (b.platePower k).swallow else (b.platePower k).swallow := by
  induction l generalizing b with
  | nil => rfl
  | cons q l ih =>
    obtain ⟨hq, hl⟩ := List.forall_mem_cons.mp hown
    rw [List.foldl_cons, ih (b.startSwallow q) (by rwa [Block.startSwallow_platesOf])
      (fun r hr hkr => hl r hr (by rwa [Block.startSwallow_platesOf] at hkr)),
      Block.startSwallow_ratio, Block.startSwallow_swallow]
    by_cases hqp : q = p
    · simp [hqp, hk]
    · have hkq : k ∉ b.platesOf q := fun hkq => hqp (hq hkq)
      simp [hqp, Ne.symm hqp, hkq]

variable {b} {c : Curtail}

theorem Block.doSwallowStart_idle (h : ∀ c, b.tim.curtail = some c → c.started = true) : b.doSwallowStart = b := by
  unfold Block.doSwallowStart
  split
  case h_1 c hc => exact if_pos (h c hc)
  case h_2 => rfl

theorem Block.doSwallowStart_starts (hc : b.tim.curtail = some c) (hstarted : c.started = false) {d : Block}
    (hd : d = b.setTim { b.tim with curtail := some { c with started := true } }) :
    b.doSwallowStart = (List.range 8).foldl Block.startSwallow d := by
  subst hd
  simp only [Block.doSwallowStart, hc, hstarted]
  rfl

end Swallow

/-! ## The bound of a curtailment (R194, R204) -/

section Miss
variable {b : Block} (e : Env)

theorem Block.doCurtailMiss_met (h : b.tim.curtail = none ∨ b.tim.mean100 < b.tim.limit) : b.doCurtailMiss e = b := by
  unfold Block.doCurtailMiss
  split
  case h_1 c hc =>
    have hmean : b.tim.mean100 < b.tim.limit := h.resolve_left (by simp [hc])
    exact if_pos (by simp [hmean])
  case h_2 => rfl

variable {c : Curtail} (hc : b.tim.curtail = some c)
include hc

theorem Block.doCurtailMiss_again (hmissed : c.missed = true) : b.doCurtailMiss e = b := by
  simp [Block.doCurtailMiss, hc, hmissed]

theorem Block.doCurtailMiss_misses (hmissed : c.missed = false) (hmean : b.tim.limit ≤ b.tim.mean100) {d : Block}
    (hd : d = b.setTim { b.tim with curtail := some { c with missed := true } }) : b.doCurtailMiss e =
      (d.powered.foldl (fun x p => x.setSwallow p 63) d).timEvent e 9 3 [(32, 8, c.t0)] := by
  subst hd
  simp only [Block.doCurtailMiss, hc, hmissed, Nat.not_lt.mpr hmean]
  rfl

end Miss

end Sys2Proof.Machine

namespace Sys2Proof
open Machine

/-- Settles O20: the limit by `Block.leastLimit_eq_min`, which no choice of operating points changes (`SameLimit`); swallowing as a
pass of `Block.startSwallow` over the partitions; the level and the bound by the case of the effect that applies. -/
theorem limitsAreLeastAndCurtail : Obligations.LimitsAreLeastAndCurtail := by
  unfold Obligations.LimitsAreLeastAndCurtail
  refine ⟨fun b t0 => ⟨?limit, b.relimit_curtail t0⟩, fun s s' level hs hup => ⟨fun hsame => ?same, fun hother => ?level⟩,
    fun s s' hs hup => ⟨fun hidle => ?idle, fun c hc hstarted => ?starts⟩,
    fun s s' hs hup => ⟨fun hmet => ?met, fun c hc hmissed => ?again, fun c hc hmissed hmean => ?misses⟩⟩
  case limit => rw [Block.relimit_limit, Block.leastLimit_eq_min]
  case same => rw [exec_levelChange_up level hs hup, Block.doLevelChange_same _ _ hsame]
  case level => rw [exec_levelChange_up level hs hup, Block.doLevelChange_other _ _ hother]; rfl
  case idle => rw [exec_swallowStart_up hs hup, Block.doSwallowStart_idle hidle]
  case starts =>
    obtain ⟨d, hd⟩ : ∃ d, d = s'.blk.setTim { s'.blk.tim with curtail := some { c with started := true } } := ⟨_, rfl⟩
    have hplates (q : Nat) : d.platesOf q = s'.blk.platesOf q := by rw [hd]; rfl
    refine ⟨_, exec_swallowStart_up hs hup, ?_⟩
    rw [Block.doSwallowStart_starts hc hstarted hd]
    refine ⟨?_, fun p hp => ⟨?_, fun k hk hown => ?_⟩⟩
    · rw [Block.startSwallow_foldl_curtail, hd]; rfl
    · rw [Block.startSwallow_foldl_ratio, if_pos (List.mem_range.mpr hp)]
    · rw [Block.startSwallow_foldl_swallow d p (by rwa [hplates])
        fun q hq hkq => hown q (List.mem_range.mp hq) (by rwa [hplates] at hkq), if_pos (List.mem_range.mpr hp), hd]
      rfl
  case met => rw [exec_curtailMiss_up hs hup, Block.doCurtailMiss_met _ hmet]
  case again => rw [exec_curtailMiss_up hs hup, Block.doCurtailMiss_again _ hc hmissed]
  case misses => exact ⟨_, rfl, by rw [exec_curtailMiss_up hs hup, Block.doCurtailMiss_misses _ hc hmissed hmean rfl]⟩

end Sys2Proof
end

section
/-! PROOFS. PLLs that lock, switches of operating points, and steps of the core voltage (R194, R196, R362). -/
namespace Sys2Proof.Machine

/-! ## The commands on a running module -/

section Commands
variable {s s' : State} (p : Fin 8) (need : Fin 65536)

theorem exec_pllLock_up (hup : s.Up) (n : Fin 28) : exec (.pllLock n) s = .next { s with blk := s.blk.doPllLock s.env n } :=
  congrArg Host.Outcome.next (s.onBlock_up _ hup)

theorem exec_pllSwitch_up (hs : s' = s.scheduled ((mget none s.blk.clk.switches p).map SwitchRun.tick)) (hup : s'.Up) :
    exec (.pllSwitch p need) s = .next { s' with blk := s'.blk.doPllSwitch s'.env p need } := by
  subst hs; exact congrArg Host.Outcome.next (State.onBlock_up _ _ hup)

theorem exec_pllSwitchRetry_up (hs : s' = s.eventAt (if (s.blk.partPower p).retry then some s.nextMs else none)) (hup : s'.Up) :
    exec (.pllSwitchRetry p need) s = .next { s' with blk := s'.blk.doPllSwitchRetry s'.env p need } := by
  subst hs; exact congrArg Host.Outcome.next (State.onBlock_up _ _ hup)

theorem exec_voltageStep_up (hs : s' = s.eventAt (some (s.slot 1000))) (hup : s'.Up) :
    exec (.voltageStep p need) s = .next { s' with blk := s'.blk.doVoltageStep s'.env p need } := by
  subst hs; exact congrArg Host.Outcome.next (State.onBlock_up _ _ hup)

end Commands

/-! ## Lock (R362) -/

section Lock
variable {b : Block} {n p : Nat} {c : ClockUnit}
  (hc : c = { b.clk with plls := mset {} b.clk.plls n { mget ({} : Pll) b.clk.plls n with
    lock := true, ready := true
    mhz := if (mget ({} : Pll) b.clk.plls n).mhz = 0 then pllMhz n else (mget ({} : Pll) b.clk.plls n).mhz } })
  (hp : p = b.partOfPlate (n / 2))

/-- The lock of PLL `n` completes what partition `p` waits for: every standby PLL of its target, with no switch due (R194). -/
def Block.LockCompletes (b : Block) (c : ClockUnit) (n p : Nat) : Prop :=
  n < 16 ∧ p < 8 ∧ (b.partPower p).busy = true ∧ (b.partPower p).switched = false ∧ (b.partPower p).retry = false ∧
    (b.setClk c).standbyReady p (b.partPower p).target = true ∧ mget none b.clk.switches p = none

include hc hp

/-- PLL `n` is locked in `c`; what it serves is as it was. -/
theorem Block.doPllLock_eq (e : Env) : b.doPllLock e n =
    if n < 16 then
      if decide (p < 8) && (b.partPower p).busy && !(b.partPower p).switched && !(b.partPower p).retry &&
          (b.setClk c).standbyReady p (b.partPower p).target && (mget none b.clk.switches p).isNone then
        b.setClk { c with
          switches := mset none c.switches p (some { fstep := (b.partPower p).target, tick := e.clk.now + 1, pf0 := false }) }
      else b.setClk c
    else b.setClk c := by
  subst hc hp; rfl

theorem Block.doPllLock_completes (e : Env) (h : b.LockCompletes c n p) : b.doPllLock e n = b.setClk { c with
    switches := mset none c.switches p (some { fstep := (b.partPower p).target, tick := e.clk.now + 1, pf0 := false }) } := by
  obtain ⟨hplate, hpart, hbusy, hswitched, hretry, hready, hnone⟩ := h
  rw [Block.doPllLock_eq hc hp, if_pos hplate, if_pos]
  simp [hpart, hbusy, hswitched, hretry, hready, hnone]

theorem Block.doPllLock_waits (e : Env) (h : ¬b.LockCompletes c n p) : b.doPllLock e n = b.setClk c := by
  rw [Block.doPllLock_eq hc hp]
  split
  case isTrue hplate => exact if_neg fun hbits => h (by simpa [Block.LockCompletes, hplate, and_assoc] using hbits)
  case isFalse => rfl

end Lock

/-! ## Switches (R196) -/

section Switch
variable {b : Block} (e : Env) {p : Nat} (need : Nat)

theorem Block.doPllSwitch_idle (hnone : mget none b.clk.switches p = none)
    (hrests : (b.partPower p).busy = false ∨ (b.partPower p).switched = true) : b.doPllSwitch e p need = b := by
  unfold Block.doPllSwitch
  rw [hnone]
  refine if_pos ?_
  obtain hbusy | hswitched := hrests
  · rw [hbusy]; rfl
  · rw [hswitched, Bool.not_true, Bool.and_false]; rfl

variable {need} {y : PartPower} (hy : y = b.partPower p)
  {fstep : Nat} {pf0 : Bool} (hdue : ∀ r, mget none b.clk.switches p = some r → fstep = r.fstep ∧ pf0 = r.pf0)
  (hseeks : mget none b.clk.switches p = none → y.busy = true ∧ y.switched = false ∧ fstep = y.target ∧ pf0 = false)
  {d : Block} (hd : d = b.setClk { b.clk with switches := mset none b.clk.switches p none })
include hy hdue hseeks hd

/-- What is to switch: the switch that is due, or the operating point that the controller seeks. -/
theorem Block.doPllSwitch_eq : b.doPllSwitch e p need =
    match d.switchFault p fstep with
    | some c =>
      let f := d.refuseSwitch e p c
      if pf0 then f
      else (f.setSwallow p (max (f.platePower ((f.platesOf p).headD 0)).swallow (f.ratioNow p))).setPartPower p
        { y with retry := true }
    | none =>
      let f := ((d.setClk { d.clk with switchPart := p, switchRes := 0 }).flipPlls p fstep).setPartPower p
        { y with need := need, switched := true, retry := false }
      let f := if pf0 then f else f.setSwallow p (f.ratioNow p)
      if y.rising then f.settled e p else f := by
  subst hy hd
  unfold Block.doPllSwitch
  cases hrun : mget none b.clk.switches p with
  | none =>
    obtain ⟨hbusy, hswitched, rfl, rfl⟩ := hseeks hrun
    simp only [hbusy, hswitched]
    rfl
  | some r =>
    obtain ⟨rfl, rfl⟩ := hdue r hrun
    rfl

variable (need) in
/-- A refused switch that the host asked for is only recorded (R362). -/
theorem Block.doPllSwitch_refused_host {c : Nat} (hfault : d.switchFault p fstep = some c) (hhost : pf0 = true) :
    b.doPllSwitch e p need = d.refuseSwitch e p c := by
  simp only [Block.doPllSwitch_eq e hy hdue hseeks hd, hfault, hhost, if_true]

variable (need) in
/-- The controller's own switch, refused, is tried again; until then the swallow ratio keeps the budget (R196). -/
theorem Block.doPllSwitch_refused_own {c : Nat} (hfault : d.switchFault p fstep = some c) (hown : pf0 = false) {f : Block}
    (hf : f = d.refuseSwitch e p c) : b.doPllSwitch e p need =
      (f.setSwallow p (max (f.platePower ((f.platesOf p).headD 0)).swallow (f.ratioNow p))).setPartPower p
        { y with retry := true } := by
  simp only [Block.doPllSwitch_eq e hy hdue hseeks hd, hfault, hown, Bool.false_eq_true, if_false, hf]

theorem Block.doPllSwitch_switches (hfault : d.switchFault p fstep = none) {f : Block}
    (hf : f = ((d.setClk { d.clk with switchPart := p, switchRes := 0 }).flipPlls p fstep).setPartPower p
      { y with need := need, switched := true, retry := false }) : b.doPllSwitch e p need =
      if y.rising then (if pf0 then f else f.setSwallow p (f.ratioNow p)).settled e p
      else if pf0 then f else f.setSwallow p (f.ratioNow p) := by
  simp only [Block.doPllSwitch_eq e hy hdue hseeks hd, hfault, hf]

end Switch

section Retry
variable {b : Block} (e : Env) {p : Nat} (need : Nat)

theorem Block.doPllSwitchRetry_refused (h : (b.partPower p).retry = true) :
    b.doPllSwitchRetry e p need = b.doPllSwitch e p need := if_pos h

theorem Block.doPllSwitchRetry_none (h : (b.partPower p).retry = false) : b.doPllSwitchRetry e p need = b :=
  if_neg (ne_true_of_eq_false h)

end Retry

/-! ## Voltage (R194) -/

section Volt
variable (b : Block) (e : Env) (p k : Nat)

theorem stepVolt_up {v t : Nat} (h : v ≤ t) : stepVolt v t = min t (v + 5) := by
  unfold stepVolt
  split <;> omega

theorem stepVolt_down {v t : Nat} (h : t ≤ v) : stepVolt v t = max t (v - 5) := if_neg (Nat.not_lt.mpr h)

/-- One voltage step on every plate of a partition. -/
def Block.stepVolts (t : Nat) : Block :=
  (b.platesOf p).foldl (fun b k => b.setPlatePower k { b.platePower k with volt := stepVolt (b.platePower k).volt t }) b

theorem Block.stepVolts_volt {k : Nat} (hk : k ∈ b.platesOf p) (t : Nat) :
    ((b.stepVolts p t).platePower k).volt = stepVolt (b.platePower k).volt t := by
  rw [Block.stepVolts, Block.platePower_foldl (g := fun x => { x with volt := stepVolt x.volt t }) (fun c j k => ?_)
    (b.nodup_platesOf p), if_pos hk]
  rw [Block.platePower_setPlatePower]
  split
  case isTrue hjk => rw [hjk]
  case isFalse => rfl

theorem Block.setSwallow_volt (n : Nat) : ((b.setSwallow p n).platePower k).volt = (b.platePower k).volt := by
  rw [Block.platePower_setSwallow]
  split
  case isTrue => unfold PlatePower.swallowing; split <;> rfl
  case isFalse => rfl

theorem Block.settled_platePower : (b.settled e p).platePower k = b.platePower k := by
  unfold Block.platePower
  exact congrArg (fun t : TimeUnit => mget {} t.plates k) (post_reports _ _ _).tim_eq

theorem Block.retune_platePower (fstep : Nat) : (b.retune p fstep).platePower k = b.platePower k := by
  unfold Block.platePower
  rw [Block.retune_tim]

variable (need : Nat)

theorem Block.doVoltageStep_idle (h : (b.partPower p).busy = false ∨ (b.partPower p).rising = (b.partPower p).switched) :
    b.doVoltageStep e p need = b := if_pos (by simpa using h)

/-- What follows a voltage step, the swallow ratio and the end of the change, moves no voltage. -/
theorem Block.doVoltageStep_volt {p k : Nat} (hbusy : (b.partPower p).busy = true)
    (hmoves : (b.partPower p).rising ≠ (b.partPower p).switched) (hk : k ∈ b.platesOf p) :
    ((b.doVoltageStep e p need).platePower k).volt =
      stepVolt (b.platePower k).volt (b.voltOf (b.partPower p).target) := by
  rw [← b.stepVolts_volt p hk]
  unfold Block.doVoltageStep
  rw [if_neg (by simpa [hbusy] using hmoves)]
  extract_lets t c c' d
  have hd : (d.platePower k).volt = (c.platePower k).volt := by
    show ((if _ then _ else _ : Block).platePower k).volt = _
    split
    case isTrue => rfl
    case isFalse => exact Block.setSwallow_volt _ _ _ _
  split
  case isTrue =>
    split
    case isTrue => rw [Block.retune_platePower, hd]; rfl
    case isFalse => rw [Block.settled_platePower, hd]; rfl
  case isFalse => exact hd

end Volt

end Sys2Proof.Machine

namespace Sys2Proof
open Machine

/-- Settles O21: a PLL's lock by whether it completes what its partition waits for (`Block.LockCompletes`); a switch by what is to
switch (`Block.doPllSwitch_eq`) and whether the plates can; a voltage step by `Block.stepVolts_volt`. -/
theorem pllsLockAndSwitch : Obligations.PllsLockAndSwitch := by
  unfold Obligations.PllsLockAndSwitch
  refine ⟨fun s n hup => ⟨_, rfl, fun p hp => ⟨fun hcompletes => ?completes, fun hwaits => ?waits⟩⟩,
    fun s s' p need y run i hup hy hrun hi => ?switch, fun s p need hup hretry => ?noRetry,
    fun s s' p need hs hup => ⟨fun hidle => ?voltIdle, fun hbusy hmoves => ?volt⟩,
    fun v t => ⟨stepVolt_up, stepVolt_down⟩⟩
  case completes => rw [exec_pllLock_up hup, Block.doPllLock_completes rfl hp _ hcompletes]; rfl
  case waits => rw [exec_pllLock_up hup, Block.doPllLock_waits rfl hp _ hwaits]
  case switch =>
    subst hrun
    have hexec : exec i s = .next { s' with blk := s'.blk.doPllSwitch s'.env p need } := by
      obtain ⟨rfl, hs⟩ | ⟨rfl, hretry, hs, hagain⟩ := hi
      · exact exec_pllSwitch_up p need hs hup
      · rw [exec_pllSwitchRetry_up p need (by rwa [if_pos hretry]) hup,
          Block.doPllSwitchRetry_refused _ _ (by rwa [← hy])]
    rw [hexec]
    refine ⟨fun hnone hrests => ?_, fun fstep pf0 hdue hseeks => ⟨_, rfl, fun c hfault => ⟨fun hhost => ?_, fun hown => ?_⟩,
      fun hfault => ?_⟩⟩
    · rw [Block.doPllSwitch_idle _ _ hnone (by rwa [← hy])]
    · rw [Block.doPllSwitch_refused_host _ need hy hdue hseeks rfl hfault hhost]
    · exact ⟨_, rfl, by rw [Block.doPllSwitch_refused_own _ need hy hdue hseeks rfl hfault hown rfl]⟩
    · exact ⟨_, rfl, by rw [Block.doPllSwitch_switches _ hy hdue hseeks rfl hfault rfl]⟩
  case noRetry =>
    rw [exec_pllSwitchRetry_up (s' := s) p need (by rw [hretry]; rfl) hup, Block.doPllSwitchRetry_none _ _ hretry]
  case voltIdle => rw [exec_voltageStep_up p need hs hup, Block.doVoltageStep_idle _ _ _ _ hidle]
  case volt => exact ⟨_, exec_voltageStep_up p need hs hup, fun k hk => Block.doVoltageStep_volt _ _ _ hbusy hmoves hk⟩

end Sys2Proof
end

section
/-! PROOFS. Power directives, when they take effect and lapse, and the host's power registers (R190, R192, R198, R199, R203). -/
namespace Sys2Proof.Machine

/-! ## The commands on a running module -/

section Commands
variable {s s' : State}

/-- The directive commands, each with the TYPE and the payload that it brings (R198). -/
def directives (m : PowerMsg) (w : Fin 65536) (ws : List (Fin 256)) : List (Nat × List Nat × Instr) :=
  [(1, [w.val], .setCap m w), (2, ws.map Fin.val, .setShares m ws), (3, [w.val], .setSlew m w), (4, [w.val], .setFloor m w),
    (5, [], .query m), (0x81, [], .report m)]

theorem exec_directive_up {m : PowerMsg} {w : Fin 65536} {ws : List (Fin 256)} {type : Nat} {vals : List Nat} {i : Instr}
    (hup : s.Up) (hi : (type, vals, i) ∈ directives m w ws) :
    exec i s = .next { s with blk := s.blk.doDirective s.env type m vals } := by
  have hexec : exec i s = .next (s.onBlock fun e b => b.doDirective e type m vals) := by
    simp only [directives, List.mem_cons, Prod.mk.injEq, List.not_mem_nil, or_false] at hi
    obtain ⟨rfl, rfl, rfl⟩ | ⟨rfl, rfl, rfl⟩ | ⟨rfl, rfl, rfl⟩ | ⟨rfl, rfl, rfl⟩ | ⟨rfl, rfl, rfl⟩ | ⟨rfl, rfl, rfl⟩ := hi <;> rfl
  rw [hexec, s.onBlock_up _ hup]

theorem exec_directiveEffect_up (hs : s' = s.scheduled s.blk.tim.effectDue) (hup : s'.Up) :
    exec .directiveEffect s = .next { s' with blk := s'.blk.doDirectiveEffect s'.env } := by
  subst hs; exact congrArg Host.Outcome.next (State.onBlock_up _ _ hup)

theorem exec_directiveExpire_up (hs : s' = s.scheduled s.blk.tim.expireDue) (hup : s'.Up) :
    exec .directiveExpire s = .next { s' with blk := s'.blk.doDirectiveExpire s'.env } := by
  subst hs; exact congrArg Host.Outcome.next (State.onBlock_up _ _ hup)

theorem exec_timHostCap_up (hup : s.HostUp) (w : Fin (2 ^ 32)) :
    exec (.timHostCap w) s = .next { s with blk := s.blk.doTimHostCap s.env w } :=
  congrArg Host.Outcome.next (s.onHost_up _ hup.1 hup.2)

theorem exec_timFloor_up (hup : s.HostUp) (w : Fin (2 ^ 32)) :
    exec (.timFloor w) s = .next { s with blk := s.blk.doTimFloor w } :=
  congrArg Host.Outcome.next (s.onHost_up _ hup.1 hup.2)

end Commands

/-! ## Acceptance (R198) -/

section Accept
variable {b : Block} {e : Env} {m : PowerMsg} {type : Nat} {vals : List Nat}

/-- A chain of checks accepts where the first does not fail and the rest accepts. -/
theorem check_eq_none_iff {P : Prop} [Decidable P] {r : Nat} {rest : Option Nat} :
    (if P then some r else rest) = none ↔ ¬P ∧ rest = none := by
  by_cases h : P <;> simp [h]

theorem Block.directiveFault_eq_none_iff : b.directiveFault e m type vals = none ↔
    (m.magic = 0x44475044 ∧ m.ver = 1 ∧ m.spare = true ∧ m.key < 4 ∧ type ≠ 0x81 ∧ m.mac = true ∧
      mget 0 b.tim.seqs m.key ≤ m.seq ∧ 2 ≤ b.tim.tstate ∧ m.issue ≤ e.clk.now + 1000000 ∧ e.clk.now ≤ m.issue + 1000000 ∧
      b.targets m.target = true ∧ (type = 2 → ∀ w ∈ vals, w ≠ 0) ∧ (type = 3 → 50 ≤ vals.headD 0 ∧ vals.headD 0 ≤ 6900)) := by
  simp only [Block.directiveFault, check_eq_none_iff, Bool.or_eq_true, Bool.and_eq_true, decide_eq_true_eq, not_or, not_and,
    Bool.not_eq_true', Bool.not_eq_false, Nat.not_lt, Nat.not_le, Nat.lt_add_one_iff (n := m.seq), List.any_eq_true, not_exists, ne_eq,
    Classical.not_not, and_assoc, and_true]

theorem Block.doDirective_rejected {r : Nat} (h : b.directiveFault e m type vals = some r) : b.doDirective e type m vals =
    (b.bumpTim 0x120 1).timRare e 1000 0xD 1 [(28, 1, r), (32, 4, m.seq)] := by
  simp only [Block.doDirective, h]

variable (h : b.directiveFault e m type vals = none) {d : Block}
  (hd : d = b.setTim { b.tim with
    seqs := mset 0 b.tim.seqs m.key (m.seq + 1), counters := bump b.tim.counters 0x118 1 })
include h hd

theorem Block.doDirective_query (htype : type = 5) : b.doDirective e type m vals = d.emit (.report m.key d.reportBytes) := by
  subst hd htype
  simp only [Block.doDirective, h, if_true]
  rfl

theorem Block.doDirective_now (htype : type ≠ 5) (hnow : m.effect = 0 ∨ m.effect ≤ e.clk.now) : b.doDirective e type m vals =
    d.startSetting e { type := type, vals := vals, seq := m.seq, effect := m.effect, expire := m.expire } := by
  have hbits : (decide (m.effect = 0) || decide (m.effect ≤ e.clk.now)) = true := by simpa using hnow
  subst hd
  simp only [Block.doDirective, h, htype, hbits, if_false, if_true]
  rfl

theorem Block.doDirective_later (htype : type ≠ 5) (hlater : e.clk.now < m.effect) : b.doDirective e type m vals =
    d.setTim { d.tim with waiting := d.tim.waiting
      ++ [{ type := type, vals := vals, seq := m.seq, effect := m.effect, expire := m.expire }] } := by
  have hbits : (decide (m.effect = 0) || decide (m.effect ≤ e.clk.now)) = false := by
    simpa using ⟨Nat.ne_zero_of_lt hlater, hlater⟩
  subst hd
  simp only [Block.doDirective, h, htype, hbits, if_false, Bool.false_eq_true]
  rfl

end Accept

/-! ## Settings in force (R198, R199) -/

section Setting
variable (b : Block) (e : Env) (w t0 : Nat)

theorem Block.applySetting_cap : b.applySetting 1 [w] t0 =
    (b.setTim { b.tim with cap := if w = 0 then 0 else max w (b.tim.levels.headD 0) }).relimit t0 := rfl

theorem Block.applySetting_slew : b.applySetting 3 [w] t0 = b.setTim { b.tim with slew := w } := rfl

theorem Block.applySetting_floor : b.applySetting 4 [w] t0 = b.setTim { b.tim with floor := min w 6900 } := rfl

variable {b}

theorem Block.doDirectiveEffect_due {x : Setting} (h : firstBy Setting.effect b.tim.waiting = some x) :
    b.doDirectiveEffect e = (b.setTim { b.tim with waiting := b.tim.waiting.erase x }).startSetting e x := by
  simp only [Block.doDirectiveEffect, h]
  rfl

theorem Block.doDirectiveEffect_none (h : b.tim.waiting = []) : b.doDirectiveEffect e = b := by
  simp only [Block.doDirectiveEffect, h, firstBy]

theorem Block.doDirectiveExpire_none (h : b.tim.lapses = []) : b.doDirectiveExpire e = b := by
  simp only [Block.doDirectiveExpire, h, firstBy]

section Lapse
variable {x : Setting} {d : Block} (hx : firstBy Setting.expire b.tim.lapses = some x)
  (hd : d = b.setTim { b.tim with lapses := b.tim.lapses.erase x })
include hx hd

theorem Block.doDirectiveExpire_cap (htype : x.type = 1) :
    b.doDirectiveExpire e = (d.setTim { d.tim with cap := 0 }).relimit e.clk.now := by
  subst hd
  simp only [Block.doDirectiveExpire, hx, htype]
  rfl

theorem Block.doDirectiveExpire_shares (htype : x.type = 2) : b.doDirectiveExpire e = d.setTim { d.tim with shares := [] } := by
  subst hd
  simp only [Block.doDirectiveExpire, hx, htype]
  rfl

theorem Block.doDirectiveExpire_slew (htype : x.type = 3) :
    b.doDirectiveExpire e = d.setTim { d.tim with slew := b.boot.profile.slew } := by
  subst hd
  simp only [Block.doDirectiveExpire, hx, htype]
  rfl

theorem Block.doDirectiveExpire_floor (htype : 3 < x.type) :
    b.doDirectiveExpire e = d.setTim { d.tim with floor := b.boot.profile.floor } := by
  subst hd
  simp only [Block.doDirectiveExpire, hx]
  split
  case h_1 hcap => omega
  case h_2 hshares => omega
  case h_3 hslew => omega
  case h_4 => rfl

end Lapse
end Setting

end Sys2Proof.Machine

namespace Sys2Proof
open Machine

/-- Settles O22: acceptance by `Block.directiveFault_eq_none_iff`; what an accepted directive does by its TYPE and EFFECT_T; what
lapses by the TYPE of its setting; the two registers by their writes. -/
theorem directivesApply : Obligations.DirectivesApply := by
  unfold Obligations.DirectivesApply
  refine ⟨fun b e m type vals => Block.directiveFault_eq_none_iff,
    fun s m w ws type vals i hup hi => ⟨fun r hfault => ?rejected, fun haccept => ⟨_, rfl, fun htype => ?query,
      fun htype hnow => ?now, fun htype hlater => ?later⟩⟩,
    fun b w t0 => ⟨b.applySetting_cap w t0, b.applySetting_slew w t0, b.applySetting_floor w t0⟩,
    fun s s' hs hup => ⟨fun x hx => ?effect, fun hnone => ?noEffect⟩,
    fun s s' hs hup => ⟨fun x b hx hb => ⟨fun htype => ?cap, fun htype => ?shares, fun htype => ?slew, fun htype => ?floor⟩,
      fun hnone => ?noLapse⟩,
    fun s w hup => ⟨exec_timHostCap_up hup w, exec_timFloor_up hup w⟩⟩
  case rejected => rw [exec_directive_up hup hi, Block.doDirective_rejected hfault]
  case query => rw [exec_directive_up hup hi, Block.doDirective_query haccept rfl htype]
  case now => rw [exec_directive_up hup hi, Block.doDirective_now haccept rfl htype hnow]
  case later => rw [exec_directive_up hup hi, Block.doDirective_later haccept rfl htype hlater]
  case effect => rw [exec_directiveEffect_up hs hup, Block.doDirectiveEffect_due _ hx]
  case noEffect => rw [exec_directiveEffect_up hs hup, Block.doDirectiveEffect_none _ hnone]
  case cap => rw [exec_directiveExpire_up hs hup, Block.doDirectiveExpire_cap _ hx hb htype]; rfl
  case shares => rw [exec_directiveExpire_up hs hup, Block.doDirectiveExpire_shares _ hx hb htype]
  case slew => rw [exec_directiveExpire_up hs hup, Block.doDirectiveExpire_slew _ hx hb htype]
  case floor => rw [exec_directiveExpire_up hs hup, Block.doDirectiveExpire_floor _ hx hb htype]
  case noLapse => rw [exec_directiveExpire_up hs hup, Block.doDirectiveExpire_none _ hnone]

end Sys2Proof
end

section
/-! PROOFS. Traffic generators, channels marked for map-out, and partition ranges (R212, R225, R226). -/
namespace Sys2Proof.Machine

/-! ## The commands on a running module -/

section Commands
variable {s : State}

theorem exec_tgStart_up (hup : s.HostUp) (ch : Fin 512) (op : Fin 4) (pattern : Fin 8) :
    exec (.tgStart ch op pattern) s = .next { s with blk := s.blk.doTgStart s.env ch op pattern } :=
  congrArg Host.Outcome.next (s.onHost_up _ hup.1 hup.2)

theorem exec_tgDone_up (hup : s.Up) (ch : Fin 512) (errs : Nat) (l0 l1 first : Fin (2 ^ 32)) :
    exec (.tgDone ch errs l0 l1 first) s = .next { s with blk := s.blk.doTgDone s.env ch errs l0 l1 first } :=
  congrArg Host.Outcome.next (s.onBlock_up _ hup)

theorem exec_memChMapoutPend_up (hup : s.HostUp) (k : Fin 16) (mask : Fin (2 ^ 32)) :
    exec (.memChMapoutPend k mask) s = .next { s with blk := s.blk.pendMapout k mask } :=
  congrArg Host.Outcome.next (s.onHost_up _ hup.1 hup.2)

theorem exec_memPrange_up (hup : s.HostUp) (k : Fin 32) (base size : Fin 65536) :
    exec (.memPrange k base size) s = .next { s with blk := s.blk.doPrange k base size } :=
  congrArg Host.Outcome.next (s.onHost_up _ hup.1 hup.2)

end Commands

/-! ## Traffic generators (R225) -/

theorem Block.memChan_setChan (b : Block) (n : Nat) (x : MemChannel) (k : Nat) :
    (b.setChan n x).memChan k = if n = k then x else b.memChan k := mget_mset _ _ _ _ _

section TgStart
variable {b : Block} {ch op pattern : Nat}

theorem Block.jobUsesPlate_iff (b : Block) (plate : Nat) :
    (List.range 8).any (fun p => b.holdsJob p && (!b.mem.affine || b.holdsPlate p plate)) = true ↔
      ∃ p < 8, b.holdsJob p = true ∧ (b.mem.affine = true → b.holdsPlate p plate = true) := by
  simp only [List.any_eq_true, List.mem_range, Bool.and_eq_true, Bool.or_eq_true, Bool.not_eq_true', ← Bool.not_eq_true,
    ← Decidable.imp_iff_not_or]

/-- What TG_CTL and TG_COUNT may not hold at a start. -/
theorem reservedRun_iff {op pattern count : Nat} : (op = 3 || 5 ≤ pattern || count = 0 || granules < count) = true ↔
    op = 3 ∨ 5 ≤ pattern ∨ count = 0 ∨ 25165824 < count := by
  simp only [Bool.or_eq_true, decide_eq_true_eq, or_assoc]
  rfl

theorem Block.doTgStart_busy (e : Env) (h : (b.memChan ch).tg.busy = true) : b.doTgStart e ch op pattern = b := if_pos h

variable {c : MemChannel} {d : Block} (e : Env) (hc : c = b.memChan ch) (hbusy : c.tg.busy = false)
  (hd : d = b.setChan ch { c with tg := { c.tg with op := op, pattern := pattern } })
include hc hbusy hd

theorem Block.doTgStart_reserved (h : op = 3 ∨ 5 ≤ pattern ∨ c.tg.count = 0 ∨ 25165824 < c.tg.count) :
    b.doTgStart e ch op pattern = d := by
  subst hc hd
  simp only [Block.doTgStart, hbusy, reservedRun_iff.mpr h, Bool.false_eq_true, if_false, if_true]

variable (hop : op ≠ 3) (hpat : pattern < 5) (hpos : 0 < c.tg.count) (hmax : c.tg.count ≤ 25165824)
include hop hpat hpos hmax

/-- A run that its register allows is refused where a job's memory uses the channel. -/
theorem Block.doTgStart_allowed : b.doTgStart e ch op pattern =
    if (List.range 8).any (fun p => d.holdsJob p && (!d.mem.affine || d.holdsPlate p (ch / 64))) then
      (d.bumpStack (ch / 32) 0x148 1).memEvent e 15 1 15 (ch / 32) (ch % 32) 0xFF 0xFF 0 []
    else d.setChan ch { c with tg := { c.tg with
      op := op, pattern := pattern, busy := true, done := false, errs := 0, lane0 := 0, lane1 := 0, first := 0xFFFFFFFF } } := by
  have hrun : (op = 3 || 5 ≤ pattern || c.tg.count = 0 || granules < c.tg.count) = false := by
    rw [Bool.eq_false_iff, ne_eq, reservedRun_iff]; omega
  subst hc hd
  simp only [Block.doTgStart, hbusy, hrun, Block.memChan_setChan, Bool.false_eq_true, if_false, if_true]

theorem Block.doTgStart_refused
    (huse : ∃ p < 8, d.holdsJob p = true ∧ (d.mem.affine = true → d.holdsPlate p (ch / 64) = true)) :
    b.doTgStart e ch op pattern =
      (d.bumpStack (ch / 32) 0x148 1).memEvent e 15 1 15 (ch / 32) (ch % 32) 0xFF 0xFF 0 [] := by
  rw [Block.doTgStart_allowed e hc hbusy hd hop hpat hpos hmax, if_pos ((d.jobUsesPlate_iff _).mpr huse)]

theorem Block.doTgStart_memChan
    (hfree : ¬∃ p < 8, d.holdsJob p = true ∧ (d.mem.affine = true → d.holdsPlate p (ch / 64) = true)) (n : Nat) :
    (b.doTgStart e ch op pattern).memChan n = if n = ch then { c with tg := { c.tg with
      op := op, pattern := pattern, busy := true, done := false, errs := 0, lane0 := 0, lane1 := 0, first := 0xFFFFFFFF } }
    else b.memChan n := by
  rw [Block.doTgStart_allowed e hc hbusy hd hop hpat hpos hmax, if_neg (mt (d.jobUsesPlate_iff _).mp hfree), hd]
  simp only [Block.memChan_setChan, eq_comm (a := ch)]
  by_cases hn : n = ch <;> simp only [hn, if_true, if_false]

end TgStart

section TgDone
variable {b d : Block} {ch : Nat} (e : Env) (errs l0 l1 first : Nat)

theorem Block.doTgDone_idle (h : (b.memChan ch).tg.busy = false) : b.doTgDone e ch errs l0 l1 first = b :=
  if_pos (by rw [h]; rfl)

variable {c : MemChannel} (hc : c = b.memChan ch) (hbusy : c.tg.busy = true)
  (hd : d = if c.tg.op = 1 then b else b.tgWrites e ch c.tg)
include hc hbusy hd

/-- A run that only writes checks nothing. -/
theorem Block.doTgDone_writes (hop : c.tg.op = 0) : b.doTgDone e ch errs l0 l1 first =
    (d.setChan ch { d.memChan ch with tg := { c.tg with
      busy := false, done := true, errs := 0, lane0 := 0, lane1 := 0, first := 0xFFFFFFFF } }).memEvent
        e 14 0 15 (ch / 32) (ch % 32) 0xFF 0xFF 0 [(40, 6, 0)] := by
  subst hc hd
  simp [Block.doTgDone, hbusy, hop, satAdd]

theorem Block.doTgDone_checks (hop : c.tg.op ≠ 0) (hl0 : l0 < 2 ^ 32) (hl1 : l1 < 2 ^ 32) (hfirst : first < 2 ^ 32) :
    b.doTgDone e ch errs l0 l1 first =
      (d.setChan ch { d.memChan ch with tg := { c.tg with
        busy := false, done := true, errs := min errs (2 ^ 48 - 1), lane0 := l0, lane1 := l1
        first := if errs = 0 then 0xFFFFFFFF else first } }).memEvent
          e 14 0 15 (ch / 32) (ch % 32) 0xFF 0xFF 0 [(40, 6, errs)] := by
  subst hc hd
  simp [Block.doTgDone, hbusy, hop, satAdd, Nat.mod_eq_of_lt hl0, Nat.mod_eq_of_lt hl1, Nat.mod_eq_of_lt hfirst, -Nat.reducePow]

end TgDone

/-! ## Channels marked for map-out (R226) -/

section Mapout
variable (b : Block) (k : Nat) {mask : Nat}

theorem Block.pendMapout_stack (hmask : mask < 2 ^ 32) (n : Nat) : (b.pendMapout k mask).stack n =
    if n = k then { b.stack k with mapoutPend := (b.stack k).mapoutPend ||| mask } else b.stack n := by
  have hset := stack_setStack b k { b.stack k with mapoutPend := (b.stack k).mapoutPend ||| mask % 2 ^ 32 } n
  rw [Nat.mod_eq_of_lt hmask] at hset
  simpa only [Block.pendMapout, Block.stack, eq_comm (a := k), Nat.mod_eq_of_lt hmask] using hset

theorem mem_append_missing {old new : List Nat} {c : Nat} :
    c ∈ old ++ new.filter (fun c => !old.contains c) ↔ c ∈ old ∨ c ∈ new := by
  by_cases h : c ∈ old <;> simp [h]

theorem Block.mem_pendMapout_mapout {c : Nat} : c ∈ (b.pendMapout k mask).boot.flash.mapout ↔
    c ∈ b.boot.flash.mapout ∨ ∃ i < 32, bit mask i = true ∧ c = 32 * k + i := by
  have hnew : c ∈ ((List.range 32).filter (fun i => bit mask i)).map (fun i => 32 * k + i) ↔
      ∃ i < 32, bit mask i = true ∧ c = 32 * k + i := by
    simp only [List.mem_map, List.mem_filter, List.mem_range, and_assoc, eq_comm (b := c)]
  exact mem_append_missing.trans (or_congr_right hnew)

end Mapout

/-! ## Partition ranges (R212) -/

theorem Block.prangeOk_iff (b : Block) (k base size : Nat) : b.prangeOk k base size = true ↔
    b.holdsJob (k / 4) = false ∧ (size = 0 ∨
      ((base + size) * 2 ^ 30 ≤ (b.slots allStacks).length * b.usable * 2048 ∧
        ∀ j < 32, j / 4 = k / 4 ∨ (mget ({} : PRange) b.mem.pranges j).size = 0 ∨
          base + size ≤ (mget ({} : PRange) b.mem.pranges j).base ∨
          (mget ({} : PRange) b.mem.pranges j).base + (mget ({} : PRange) b.mem.pranges j).size ≤ base)) := by
  simp only [Block.prangeOk, Bool.and_eq_true, Bool.or_eq_true, Bool.not_eq_true', decide_eq_true_eq, List.all_eq_true,
    List.mem_range, or_assoc]

end Sys2Proof.Machine

namespace Sys2Proof
open Machine

/-- Settles O25: TG_START by whether the generator is busy, its register allows the run and a job's memory uses the channel; TG_DONE by
whether the run checks what it reads; a write of the map-out mask by what it leaves; a range by `Block.prangeOk_iff`. -/
theorem memoryIsTestedAndPartitioned : Obligations.MemoryIsTestedAndPartitioned := by
  unfold Obligations.MemoryIsTestedAndPartitioned
  refine ⟨fun s ch op pattern c b hup hc hb => ⟨fun hbusy => ?busy, fun hidle hreserved => ?reserved,
      fun hidle hop hpat hpos hmax => ⟨fun huse => ?refused, fun hfree => ?runs⟩⟩,
    fun s ch errs l0 l1 first c hup hc => ⟨fun hidle => ?idle, fun hbusy => ⟨_, rfl, fun hop => ?writes, fun hop => ?checks⟩⟩,
    fun s k mask hup => ⟨_, exec_memChMapoutPend_up hup k mask, rfl, s.blk.pendMapout_stack k mask.isLt,
      fun c => s.blk.mem_pendMapout_mapout k⟩,
    fun s k base size fits hup hfits => ⟨fun h => ?taken, fun h => ?overlaps⟩⟩
  case busy => rw [exec_tgStart_up hup, Block.doTgStart_busy _ (hc ▸ hbusy)]
  case reserved =>
    rw [exec_tgStart_up hup, Block.doTgStart_reserved _ hc hidle hb hreserved]
  case refused => rw [exec_tgStart_up hup, Block.doTgStart_refused _ hc hidle hb hop hpat hpos hmax huse]
  case runs => exact ⟨_, exec_tgStart_up hup ch op pattern, rfl, Block.doTgStart_memChan _ hc hidle hb hop hpat hpos hmax hfree⟩
  case idle => rw [exec_tgDone_up hup, Block.doTgDone_idle _ _ _ _ _ (hc ▸ hidle)]
  case writes => rw [exec_tgDone_up hup, Block.doTgDone_writes _ _ _ _ _ hc hbusy rfl hop]
  case checks =>
    rw [exec_tgDone_up hup, Block.doTgDone_checks _ _ _ _ _ hc hbusy rfl hop l0.isLt l1.isLt first.isLt]
  case taken =>
    rw [exec_memPrange_up hup, Block.doPrange, if_pos ((s.blk.prangeOk_iff _ _ _).mpr (hfits.mp h))]
  case overlaps =>
    rw [exec_memPrange_up hup, Block.doPrange, if_neg (fun hok => h (hfits.mpr ((s.blk.prangeOk_iff _ _ _).mp hok)))]

end Sys2Proof
end

section
/-! PROOFS. Ports: training, degrading and upgrading, and the directions that they make up (R250 to R255, R278, R280). -/
namespace Sys2Proof.Machine

/-! ## The commands on a running module -/

section Commands
variable {s s' : State} {n : Fin 36}

theorem exec_clEnable_up (hup : s.HostUp) (on : Bool) :
    exec (.clEnable n on) s = .next { s with blk := s.blk.doClEnable s.env n on } :=
  congrArg Host.Outcome.next (s.onHost_up _ hup.1 hup.2)

theorem exec_forceX2_up (hup : s.HostUp) (on : Bool) :
    exec (.forceX2 n on) s = .next { s with blk := s.blk.doForceX2 s.env n on } :=
  congrArg Host.Outcome.next (s.onHost_up _ hup.1 hup.2)

theorem exec_laneSignalDetect_live (hup : s.Up) (hlive : s.blk.crosses n = true) (lanes : Fin 16) :
    exec (.laneSignalDetect n lanes) s = .next { s with blk := s.blk.doLaneSignal n lanes } :=
  congrArg Host.Outcome.next (s.onLive_up _ n hup hlive)

theorem exec_equaliseDone_live (hup : s.Up) (hlive : s.blk.crosses n = true) :
    exec (.equaliseDone n) s = .next { s with blk := s.blk.doEqualiseDone n } :=
  congrArg Host.Outcome.next (s.onLive_up _ n hup hlive)

theorem exec_alignDone_live (hup : s.Up) (hlive : s.blk.crosses n = true) (lanes : Fin 16) :
    exec (.alignDone n lanes) s = .next { s with blk := s.blk.doAlignDone n lanes } :=
  congrArg Host.Outcome.next (s.onLive_up _ n hup hlive)

theorem exec_trainingTimeout_live (hup : s.Up) (hlive : s.blk.crosses n = true) :
    exec (.trainingTimeout n) s = .next { s with blk := s.blk.doTrainingTimeout s.env n } :=
  congrArg Host.Outcome.next (s.onLive_up _ n hup hlive)

theorem exec_laneDegrade_live (hup : s.Up) (hlive : s.blk.crosses n = true) (lane : Fin 4) :
    exec (.laneDegrade n lane) s = .next { s with blk := s.blk.doLaneDegrade s.env n lane } :=
  congrArg Host.Outcome.next (s.onLive_up _ n hup hlive)

theorem exec_cablingChange_up (hup : s.Up) : exec (.cablingChange n) s = .next { s with blk := s.blk.doCablingChange n } :=
  congrArg Host.Outcome.next (s.onBlock_up _ hup)

theorem exec_upgradeAttempt_up (hs : s' = s.eventAt (s.blk.port n).upgradeDue) (hup : s'.Up) :
    exec (.upgradeAttempt n) s = .next { s' with blk := s'.blk.doUpgradeAttempt s'.env n } := by
  subst hs; exact congrArg Host.Outcome.next (State.onBlock_up _ _ hup)

theorem exec_directionLost_up {d : Fin 6} (hs : s' = s.eventAt (s.blk.link.lostDue d)) (hup : s'.Up) :
    exec (.directionLost d) s = .next { s' with blk := s'.blk.doDirectionLost s'.env d } := by
  subst hs; exact congrArg Host.Outcome.next (State.onBlock_up _ _ hup)

end Commands

/-! ## Reading ports -/

section Ports
variable (b : Block) (n : Nat)

theorem Block.port_setPort (x : Port) (k : Nat) : (b.setPort n x).port k = if n = k then x else b.port k :=
  mget_mset _ _ _ _ _

@[simp] theorem Block.port_setPort_self (x : Port) : (b.setPort n x).port n = x := mget_mset_self _ _ _ _

theorem Block.port_bumpPort (off k j : Nat) :
    (b.bumpPort n off k).port j = if n = j then { b.port n with counters := bump (b.port n).counters off k } else b.port j :=
  b.port_setPort n _ j

@[simp] theorem Block.port_emit (o : Out) : (b.emit o).port n = b.port n := rfl

end Ports

/-! ## Training (R250 to R253) -/

section Training
variable {b : Block} {e : Env} {n lane : Nat}

theorem Block.doForceX2_degrades (h : (b.port n).state = 5) :
    b.doForceX2 e n true = (b.setPort n { b.port n with forceX2 := true }).degrade e n 0xFF :=
  if_pos (by simp [Block.modPort, h])

/-- FORCE_X2 on a port that is not at x4, and its withdrawal, are noted and do nothing else. -/
theorem Block.doForceX2_notes {on : Bool} (h : on = false ∨ (b.port n).state ≠ 5) :
    b.doForceX2 e n on = b.setPort n { b.port n with forceX2 := on } :=
  if_neg (by obtain rfl | h := h <;> simp [Block.modPort, *])

theorem Block.doLaneSignal_eq (lanes : Nat) : b.doLaneSignal n lanes =
    b.setPort n (if (b.port n).state = 1 ∧ 2 ≤ laneCount lanes then { b.port n with state := 2 } else b.port n) := by
  simp only [Block.doLaneSignal, Block.modPort, Bool.and_eq_true, decide_eq_true_eq]

theorem Block.doEqualiseDone_eq : b.doEqualiseDone n =
    b.setPort n (if (b.port n).state = 2 ∨ (b.port n).state = 7 then { b.port n with state := 3 } else b.port n) := by
  simp only [Block.doEqualiseDone, Block.modPort, Bool.or_eq_true, decide_eq_true_eq]

theorem Block.doAlignDone_other (lanes : Nat) (h : (b.port n).state ≠ 3) : b.doAlignDone n lanes = b := if_pos h

/-- In ALIGN the port notes its good lanes and sends INIT. -/
theorem Block.doAlignDone_align {c : Block} (lanes : Fin 16) (h : (b.port n).state = 3)
    (hc : c = b.setPort n { b.port n with state := 4, good := lanes.val &&& (15 - (b.port n).bad % 16) }) :
    b.doAlignDone n lanes = c.sendPlain n { Flit.idle with ftype := 4, payload := c.initBytes n } := by
  have hlanes : lanes.val % 16 = lanes.val := Nat.mod_eq_of_lt lanes.isLt
  subst hc
  simp only [Block.doAlignDone, Block.modPort, h, hlanes, ne_eq, not_true_eq_false, if_false]

theorem Block.doTrainingTimeout_other (h2 : (b.port n).state ≠ 2) (h3 : (b.port n).state ≠ 3) (h4 : (b.port n).state ≠ 4)
    (h7 : (b.port n).state ≠ 7) : b.doTrainingTimeout e n = b :=
  if_neg (by simp [h2, h3, h4, h7])

theorem Block.doTrainingTimeout_training
    (h : (b.port n).state = 2 ∨ (b.port n).state = 3 ∨ (b.port n).state = 4 ∨ (b.port n).state = 7) :
    b.doTrainingTimeout e n = b.failPass e n :=
  if_pos (by simpa only [Bool.or_eq_true, decide_eq_true_eq, or_assoc] using h)

section FailPass
variable {c : Block}
  (hc : c = (b.setPort n { b.port n with passes := (b.port n).passes + 1, state := 7, lanes := 0 }).bumpPort n 0x178 1)
include hc

theorem Block.failPass_retrains (h : (b.port n).passes < 2) : b.failPass e n = c := by
  subst hc; exact if_neg (by omega)

/-- The third failed pass is the last. -/
theorem Block.failPass_fails (h : 2 ≤ (b.port n).passes) :
    b.failPass e n = (c.setPort n { c.port n with state := 9 }).portEvent e n 6 2 [] := by
  subst hc; exact if_pos (by omega)

end FailPass

theorem Block.doLaneDegrade_x4 (h : (b.port n).state = 5) : b.doLaneDegrade e n lane = b.degrade e n lane := if_pos h

theorem Block.doLaneDegrade_other (h : (b.port n).state ≠ 5) : b.doLaneDegrade e n lane = b := if_neg h

theorem Block.doUpgradeAttempt_none (h : (b.port n).upgradeDue = none) : b.doUpgradeAttempt e n = b :=
  if_pos (by rw [h]; rfl)

theorem Block.doUpgradeAttempt_due (h : (b.port n).upgradeDue ≠ none) : b.doUpgradeAttempt e n =
    (b.setPort n { b.port n with x2 := false, bad := 0, upgrading := true }).enterRetrain e n 1 :=
  if_neg (by rwa [Option.isNone_iff_eq_none])

end Training

/-! ## A direction that is lost (R255) -/

section Lost
variable {b : Block} {e : Env}

/-- Drops what port `n` holds, and counts the DATA flits that it had not sent. -/
def Block.emptyPort (b : Block) (n : Nat) : Block :=
  (b.modPort n (fun p => { p with waiting := [], replay := [], tx := [], rx := [] })).bumpPort n 0x140
    (((b.port n).waiting.flatMap Prod.snd).filter (fun f => decide (f.flit.ftype = 1))).length

/-- Direction `d` with its event posted and its ports emptied. -/
def Block.emptyDirection (b : Block) (e : Env) (d : Nat) : Block :=
  (dirPorts d).foldl Block.emptyPort
    (b.linkEvent e 0xB 3 15 0xFF d ((b.topo.neighbour d).getD 0xFFFF) [(28, 2, b.topo.self)])

/-- Records the loss of direction `d`; what was held for it is dropped. -/
def Block.markLost (b : Block) (d : Nat) : Block :=
  { b with link := { b.link with lost := b.link.lost + 2 ^ d, held := mset [] b.link.held d [] } }

variable {d : Nat}

theorem Block.doDirectionLost_stays (h : b.link.lostDue d = none ∨ (dirPorts d).any (fun n => (b.port n).active) = true) :
    b.doDirectionLost e d = b :=
  if_pos (by simpa only [Bool.or_eq_true, Option.isNone_iff_eq_none] using h)

theorem Block.doDirectionLost_lost {c : Block} (hc : c = (b.emptyDirection e d).markLost d) (hdue : b.link.lostDue d ≠ none)
    (hdown : (dirPorts d).any (fun n => (b.port n).active) = false) :
    b.doDirectionLost e d = (c.tellAll e 1 d).peersLost e c.topo.self d := by
  subst hc
  exact if_neg (by rw [hdown, Bool.or_false, Option.isNone_iff_eq_none]; exact hdue)

/-- No flit waits in a port or is kept for replay. -/
def Port.Emptied (p : Port) : Prop := p.waiting = [] ∧ p.replay = []

theorem Block.emptyPort_self (n : Nat) : ((b.emptyPort n).port n).Emptied := by
  simp [Block.emptyPort, Block.modPort, Block.port_bumpPort, Port.Emptied]

theorem Block.emptyPort_other {n k : Nat} (h : n ≠ k) : (b.emptyPort n).port k = b.port k := by
  simp [Block.emptyPort, Block.modPort, Block.port_bumpPort, Block.port_setPort, h]

theorem Block.emptyPort_emptied {k : Nat} (n : Nat) (h : (b.port k).Emptied) : ((b.emptyPort n).port k).Emptied := by
  by_cases hnk : n = k
  · exact hnk ▸ b.emptyPort_self n
  · rwa [Block.emptyPort_other hnk]

theorem Block.foldl_emptyPort_emptied {l : List Nat} {k : Nat} (h : k ∈ l ∨ (b.port k).Emptied) :
    ((l.foldl Block.emptyPort b).port k).Emptied := by
  induction l generalizing b with
  | nil => exact h.resolve_left List.not_mem_nil
  | cons n l ih =>
    apply ih
    obtain hk | hempty := h
    · obtain rfl | hl := List.mem_cons.mp hk
      · exact .inr (b.emptyPort_self k)
      · exact .inl hl
    · exact .inr (b.emptyPort_emptied n hempty)

theorem Block.foldl_emptyPort_lost (l : List Nat) : (l.foldl Block.emptyPort b).link.lost = b.link.lost :=
  List.foldlRecOn l Block.emptyPort (motive := fun c : Block => c.link.lost = b.link.lost) rfl fun _ hc _ _ => hc

theorem Block.emptyDirection_lost : (b.emptyDirection e d).link.lost = b.link.lost := by
  rw [Block.emptyDirection, Block.foldl_emptyPort_lost, Block.linkEvent, (post_reports _ _ _).link_eq]

theorem Block.emptyDirection_emptied {n : Nat} (h : n ∈ dirPorts d) : ((b.emptyDirection e d).port n).Emptied :=
  Block.foldl_emptyPort_emptied (.inl h)

@[simp] theorem Block.markLost_port (n : Nat) : (b.markLost d).port n = b.port n := rfl

theorem Block.markLost_lost : (b.markLost d).link.lost = b.link.lost + 2 ^ d := rfl

theorem Block.markLost_held : mget [] (b.markLost d).link.held d = [] :=
  mget_mset_self [] b.link.held d []

end Lost

end Sys2Proof.Machine

namespace Sys2Proof
open Machine

/-- Settles O29: each command by the state in which it finds the port, TRAINING_TIMEOUT also by the passes that have failed; a lost
direction by `Block.emptyDirection`, which empties its ports, and `Block.markLost`. -/
theorem portsTrain : Obligations.PortsTrain := by
  unfold Obligations.PortsTrain
  refine ⟨fun s n on p hup hp => ⟨?enabled, ⟨_, rfl, ?disabled⟩, ⟨_, rfl, ?forced, ?noted⟩⟩,
    fun s n lanes lane p hup hlive hp => ⟨?signal, ?equalised, fun hstate => ?unaligned, fun hstate => ⟨_, rfl, ?aligned⟩,
      fun h2 h3 h4 h7 => ?noTimeout, fun htraining => ⟨_, rfl, fun hpasses => ?retrains, fun hpasses => ?fails⟩,
      fun hstate => ?degrades, fun hstate => ?undegraded⟩,
    fun s n hup => ?cabling,
    fun s s' n hs hup => ⟨fun hdue => ?noUpgrade, fun hdue => ?upgrades⟩,
    fun s s' d hs hup => ⟨fun hstays => ?stays, fun hdue hdown =>
      ⟨(s'.blk.emptyDirection s'.env d).markLost d, ?lost, ?recorded, Block.markLost_held,
        fun n hn => by rw [Block.markLost_port]; exact Block.emptyDirection_emptied hn⟩⟩⟩
  case enabled => subst hp; exact exec_clEnable_up hup true
  case disabled => subst hp; exact exec_clEnable_up hup false
  case forced =>
    rintro rfl hstate
    subst hp
    rw [Block.port_setPort_self] at hstate
    rw [exec_forceX2_up hup, Block.doForceX2_degrades hstate]
  case noted =>
    intro hnoted
    subst hp
    rw [Block.port_setPort_self] at hnoted
    rw [exec_forceX2_up hup, Block.doForceX2_notes hnoted]
  case signal => rw [exec_laneSignalDetect_live hup hlive, Block.doLaneSignal_eq, hp]
  case equalised => rw [exec_equaliseDone_live hup hlive, Block.doEqualiseDone_eq, hp]
  case unaligned => rw [exec_alignDone_live hup hlive, Block.doAlignDone_other _ (hp ▸ hstate)]
  case aligned => subst hp; rw [exec_alignDone_live hup hlive, Block.doAlignDone_align lanes hstate rfl]
  case noTimeout =>
    subst hp; rw [exec_trainingTimeout_live hup hlive, Block.doTrainingTimeout_other h2 h3 h4 h7]
  case retrains =>
    subst hp
    rw [exec_trainingTimeout_live hup hlive, Block.doTrainingTimeout_training htraining, Block.failPass_retrains rfl hpasses]
  case fails =>
    subst hp
    rw [exec_trainingTimeout_live hup hlive, Block.doTrainingTimeout_training htraining, Block.failPass_fails rfl hpasses]
  case degrades => rw [exec_laneDegrade_live hup hlive, Block.doLaneDegrade_x4 (hp ▸ hstate)]
  case undegraded => rw [exec_laneDegrade_live hup hlive, Block.doLaneDegrade_other (hp ▸ hstate)]
  case cabling => exact exec_cablingChange_up hup
  case noUpgrade => rw [exec_upgradeAttempt_up hs hup, Block.doUpgradeAttempt_none hdue]
  case upgrades => rw [exec_upgradeAttempt_up hs hup, Block.doUpgradeAttempt_due hdue]
  case stays => rw [exec_directionLost_up hs hup, Block.doDirectionLost_stays hstays]
  case lost => rw [exec_directionLost_up hs hup, Block.doDirectionLost_lost rfl hdue hdown]
  case recorded => rw [Block.markLost_lost, Block.emptyDirection_lost]

end Sys2Proof
end

section
/-! PROOFS. Arriving flits: their check, the order of sequenced ones, NAKs and replay (R254, R256 to R262, R365). -/
namespace Sys2Proof.Machine

/-! ## The commands on a running module -/

section Commands
variable {s s' : State} {n : Fin 36} {a : Arrival}

/-- What arrives for a domain that does not run is dropped by its guard (R365). -/
theorem State.onCrossing_stopped (s : State) (f : Env → Block → Block) (n : Nat) (hup : s.Up) (hstop : s.blk.crosses n = false) :
    s.onCrossing n f = { s with blk := s.blk.guardDrop (portDom n) } := by
  simp only [State.onCrossing, s.onBlock_up _ hup, hstop, Bool.false_eq_true, if_false]

/-- Every flit crosses into the hub through the one door. -/
theorem exec_flit {i : Instr} (s : State)
    (hi : i ∈ [Instr.idle n a, .data n a, .dropped n a, .resume n a, .init n a, .retrainReq n a, .nak n a]) :
    ∃ f : Env → Block → Block, exec i s = .next (s.onCrossing n f) := by
  simp only [List.mem_cons, List.not_mem_nil, or_false] at hi
  obtain rfl | rfl | rfl | rfl | rfl | rfl | rfl := hi
  all_goals exact ⟨_, rfl⟩

theorem exec_idle_crossing (hup : s.Up) (hcross : s.blk.crosses n = true) :
    exec (.idle n a) s = .next { s with blk := (s.blk.arrive s.env n a).1 } :=
  congrArg Host.Outcome.next (s.onCrossing_up _ n hup hcross)

theorem exec_init_crossing (hup : s.Up) (hcross : s.blk.crosses n = true) :
    exec (.init n a) s = .next { s with blk := s.blk.doInit s.env n a } :=
  congrArg Host.Outcome.next (s.onCrossing_up _ n hup hcross)

theorem exec_retrainReq_crossing (hup : s.Up) (hcross : s.blk.crosses n = true) :
    exec (.retrainReq n a) s = .next { s with blk := s.blk.doRetrainReq s.env n a } :=
  congrArg Host.Outcome.next (s.onCrossing_up _ n hup hcross)

theorem exec_nak_crossing (hup : s.Up) (hcross : s.blk.crosses n = true) :
    exec (.nak n a) s = .next { s with blk := s.blk.doNak s.env n a } :=
  congrArg Host.Outcome.next (s.onCrossing_up _ n hup hcross)

/-- The three sequenced types differ in the work `f` that a flit in order does. -/
theorem exec_sequenced_crossing {i : Instr} {f : Block → Block} (hup : s.Up) (hcross : s.blk.crosses n = true)
    (hi : (i = .data n a ∧ f = fun b => b.takeData s.env n a.flit) ∨ (i = .dropped n a ∧ f = fun b => b.takeDropped s.env n a.flit) ∨
      (i = .resume n a ∧ f = fun b => b.takeResume n a.flit)) :
    exec i s = .next { s with blk := s.blk.takeSequenced s.env n a f } := by
  obtain ⟨rfl, rfl⟩ | ⟨rfl, rfl⟩ | ⟨rfl, rfl⟩ := hi
  all_goals exact congrArg Host.Outcome.next (s.onCrossing_up _ n hup hcross)

theorem exec_nakRetryTimeout_up (hs : s' = s.eventAt (s.blk.port n).nakDue) (hup : s'.Up) :
    exec (.nakRetryTimeout n) s = .next { s' with blk := s'.blk.doNakRetry s'.env n } := by
  subst hs; exact congrArg Host.Outcome.next (State.onBlock_up _ _ hup)

end Commands

/-! ## A flit arrives (R256, R258, R259) -/

section Arrive
variable {b : Block} {e : Env} {n : Nat}

theorem Block.arrive_closed {a : Arrival} (h : (b.port n).state < 4 ∨ 6 < (b.port n).state) : b.arrive e n a = (b, false) :=
  if_pos (by simpa only [Bool.or_eq_true, decide_eq_true_eq] using h)

/-- A flit that is lost or fails its check is not handled. -/
theorem Block.arrive_bad {a : Arrival} (h : a.lost ≠ 0 ∨ a.flit.ok = false) : (b.arrive e n a).2 = false := by
  have hbad : (decide (a.lost ≠ 0) || !a.flit.ok) = true := by
    simpa only [Bool.or_eq_true, decide_eq_true_eq, Bool.not_eq_true'] using h
  simp only [Block.arrive, hbad, if_true]
  split
  case isTrue => rfl
  case isFalse => rfl

variable {f : Flit}

theorem Block.inOrder_expected (h : f.seq = (b.port n).rxSeq) : b.inOrder e n f =
    ((b.setPort n { b.port n with
      rxSeq := ((b.port n).rxSeq + 1) % 4096, nakOpen := false
      owed := mmod 0 (b.port n).owed (2 * f.vc + f.cls) (· + 1) }).bumpPort n 0x108 1, true) :=
  if_neg (not_not_intro h)

/-- Out of order, one NAK is opened. -/
theorem Block.inOrder_other (h : f.seq ≠ (b.port n).rxSeq) :
    b.inOrder e n f = (if (b.port n).nakOpen then b else b.sendNak e n, false) := if_pos h

@[simp] theorem Block.sendPlain_rxSeq : ((b.sendPlain n f).port n).rxSeq = (b.port n).rxSeq := by
  simp [Block.sendPlain, Port.stamp]

@[simp] theorem Block.sendNak_rxSeq : ((b.sendNak e n).port n).rxSeq = (b.port n).rxSeq := by
  simp [Block.sendNak]

theorem Block.inOrder_handled : (b.inOrder e n f).2 = decide (f.seq = (b.port n).rxSeq) := by
  by_cases h : f.seq = (b.port n).rxSeq
  · rw [Block.inOrder_expected h, decide_eq_true h]
  · rw [Block.inOrder_other h, decide_eq_false h]

/-- The expectation moves on only past the flit expected. -/
theorem Block.inOrder_rxSeq : ((b.inOrder e n f).1.port n).rxSeq =
    if f.seq = (b.port n).rxSeq then ((b.port n).rxSeq + 1) % 4096 else (b.port n).rxSeq := by
  by_cases h : f.seq = (b.port n).rxSeq
  · rw [Block.inOrder_expected h, if_pos h, Block.port_bumpPort, if_pos rfl, Block.port_setPort_self]
  · rw [Block.inOrder_other h, if_neg h]
    split
    case isTrue => rfl
    case isFalse => exact Block.sendNak_rxSeq

end Arrive

/-! ## What flits do that are to be handled -/

/-- Replays from `f`, at index `k` of the replay buffer, or gives up where `f` has been sent again eight times (R259, R260). -/
def Block.retryFrom (b : Block) (e : Env) (n k : Nat) (f : TxFlit) : Block :=
  let p := b.port n
  if 8 ≤ f.tries then
    if f.flit.ftype = 1 then
      (((b.setPort n { p with replay := p.replay.set k (p.dropFlit f) }).bumpPort n 0x140 1).bumpPort n 0x138 1).resend n k
    else b.enterRetrain e n 1
  else
    ((b.setPort n { p with replay := p.replay.set k { f with tries := f.tries + 1 } }).bumpPort n 0x138 1).resend n k

section Retry
variable {b : Block} {e : Env} {n k : Nat} {f : TxFlit} {p : Port}

theorem Block.retryFrom_again (hp : p = b.port n) (h : f.tries < 8) : b.retryFrom e n k f =
    ((b.setPort n { p with replay := p.replay.set k { f with tries := f.tries + 1 } }).bumpPort n 0x138 1).resend n k := by
  subst hp; exact if_neg (Nat.not_le.mpr h)

/-- After its eighth try a DATA flit becomes a DROPPED one. -/
theorem Block.retryFrom_drops (hp : p = b.port n) (h : 8 ≤ f.tries) (hdata : f.flit.ftype = 1) : b.retryFrom e n k f =
    (((b.setPort n { p with replay := p.replay.set k (p.dropFlit f) }).bumpPort n 0x140 1).bumpPort n 0x138 1).resend n k := by
  subst hp; rw [Block.retryFrom, if_pos h, if_pos hdata]

theorem Block.retryFrom_retrains (h : 8 ≤ f.tries) (hdata : f.flit.ftype ≠ 1) :
    b.retryFrom e n k f = b.enterRetrain e n 1 := by
  rw [Block.retryFrom, if_pos h, if_neg hdata]

end Retry

section Handled
variable {b : Block} {e : Env} {n : Nat} {a : Arrival} {r : Block × Bool} (hr : r = b.arrive e n a)
include hr

section Sequenced
variable {f : Block → Block}

theorem Block.takeSequenced_unhandled (h : r.2 = false) : b.takeSequenced e n a f = r.1 := by
  subst hr; exact if_pos (by rw [h]; rfl)

theorem Block.takeSequenced_handled (h : r.2 = true) : b.takeSequenced e n a f =
    if (r.1.inOrder e n a.flit).2 then (f (r.1.inOrder e n a.flit).1).answer n else (r.1.inOrder e n a.flit).1 := by
  subst hr; exact if_neg (by simp [h])

theorem Block.takeSequenced_outOfOrder (h : r.2 = true) (hseq : a.flit.seq ≠ (r.1.port n).rxSeq) :
    b.takeSequenced e n a f = (r.1.inOrder e n a.flit).1 := by
  rw [Block.takeSequenced_handled hr h, Block.inOrder_handled, decide_eq_false hseq, if_neg Bool.false_ne_true]

theorem Block.takeSequenced_inOrder (h : r.2 = true) (hseq : a.flit.seq = (r.1.port n).rxSeq) :
    b.takeSequenced e n a f = (f (r.1.inOrder e n a.flit).1).answer n := by
  rw [Block.takeSequenced_handled hr h, Block.inOrder_handled, decide_eq_true hseq, if_pos rfl]

end Sequenced

theorem Block.doInit_flitSync (h : r.2 = true) (hstate : (r.1.port n).state = 4) :
    b.doInit e n a = r.1.takeInit e n a.flit.payload := by
  subst hr; exact if_pos (by simp [h, hstate])

theorem Block.doInit_other (h : r.2 = false ∨ (r.1.port n).state ≠ 4) : b.doInit e n a = r.1 := by
  subst hr; exact if_neg (by simpa [Decidable.imp_iff_not_or] using h)

theorem Block.doRetrainReq_active (h : r.2 = true) (hactive : (r.1.port n).active = true) :
    b.doRetrainReq e n a = r.1.enterRetrain e n 1 := by
  subst hr; exact if_pos (by simp [h, hactive])

theorem Block.doRetrainReq_other (h : r.2 = false ∨ (r.1.port n).active = false) : b.doRetrainReq e n a = r.1 := by
  subst hr; exact if_neg (by simpa [Decidable.imp_iff_not_or] using h)

theorem Block.doNak_other (h : r.2 = false ∨ (r.1.port n).active = false) : b.doNak e n a = r.1 := by
  subst hr; exact if_pos (by simpa using h)

section Nak
variable {p : Port} (h : r.2 = true) (hactive : (r.1.port n).active = true) (hp : p = r.1.port n)
include h hactive hp

/-- A NAK that names no flit held retrains the port. -/
theorem Block.doNak_unheld
    (hfind : findIdxFrom (fun (f : TxFlit) => decide (f.flit.seq = leAt a.flit.payload 0 2 % 4096)) 0 p.replay = none) :
    b.doNak e n a = r.1.enterRetrain e n 1 := by
  subst hr hp
  simp only [Block.doNak, h, hactive, hfind, Bool.not_true, Bool.or_self, Bool.false_eq_true, if_false]

theorem Block.doNak_held {k : Nat} {f : TxFlit}
    (hfind : findIdxFrom (fun (f : TxFlit) => decide (f.flit.seq = leAt a.flit.payload 0 2 % 4096)) 0 p.replay = some k)
    (hget : p.replay[k]? = some f) : b.doNak e n a = r.1.retryFrom e n k f := by
  subst hr hp
  simp only [Block.doNak, h, hactive, hfind, hget, Bool.not_true, Bool.or_self, Bool.false_eq_true, if_false]
  rfl

end Nak

end Handled

/-! ## A NAK that stays open (R259) -/

section NakRetry
variable {b : Block} {e : Env} {n : Nat}

theorem Block.doNakRetry_open (hopen : (b.port n).nakOpen = true) (hactive : (b.port n).active = true) :
    b.doNakRetry e n = b.sendNak e n :=
  if_pos (by rw [hopen, hactive]; rfl)

theorem Block.doNakRetry_other (h : (b.port n).nakOpen = false ∨ (b.port n).active = false) : b.doNakRetry e n = b :=
  if_neg (by rwa [Bool.not_eq_true, Bool.and_eq_false_iff])

end NakRetry

end Sys2Proof.Machine

namespace Sys2Proof
open Machine

/-- Settles O30: an arriving flit by whether the port takes it and its check holds, a sequenced one by `Block.inOrder_expected` and
`Block.inOrder_other`, and a NAK by the flit that it names, which `Block.retryFrom` sends again or gives up. -/
theorem flitsArriveInOrder : Obligations.FlitsArriveInOrder := by
  unfold Obligations.FlitsArriveInOrder
  refine ⟨fun b e n a => ⟨fun hclosed => Block.arrive_closed hclosed, fun hbad => Block.arrive_bad hbad,
      Block.inOrder_handled, Block.inOrder_rxSeq⟩,
    fun s n a hup => ⟨fun hstop i hi => ?stopped, fun hcross r hr => ⟨?idle, fun f i hi => ⟨fun h => ?unhandled,
        fun h hseq => ?outOfOrder, fun h hseq => ?expected⟩,
      fun h hstate => ?init, fun h => ?initOther, fun h hactive => ?retrain, fun h => ⟨?retrainOther, ?nakOther⟩,
      fun h hactive p hp => ⟨fun hfind => ?unheld, fun k f hfind hget =>
        ⟨fun htries => ?again, fun htries hdata => ?drops, fun htries hdata => ?retrains⟩⟩⟩⟩,
    fun s s' n hs hup => ⟨fun hopen hactive => ?nakAgain, fun h => ?nakClosed⟩⟩
  case stopped =>
    obtain ⟨f, hf⟩ := exec_flit s hi
    rw [hf, s.onCrossing_stopped f n hup hstop]
  case idle => rw [exec_idle_crossing hup hcross, hr]
  case unhandled => rw [exec_sequenced_crossing hup hcross hi, Block.takeSequenced_unhandled hr h]
  case outOfOrder => rw [exec_sequenced_crossing hup hcross hi, Block.takeSequenced_outOfOrder hr h hseq]
  case expected => rw [exec_sequenced_crossing hup hcross hi, Block.takeSequenced_inOrder hr h hseq]
  case init => rw [exec_init_crossing hup hcross, Block.doInit_flitSync hr h hstate]
  case initOther => rw [exec_init_crossing hup hcross, Block.doInit_other hr h]
  case retrain => rw [exec_retrainReq_crossing hup hcross, Block.doRetrainReq_active hr h hactive]
  case retrainOther => rw [exec_retrainReq_crossing hup hcross, Block.doRetrainReq_other hr h]
  case nakOther => rw [exec_nak_crossing hup hcross, Block.doNak_other hr h]
  case unheld => rw [exec_nak_crossing hup hcross, Block.doNak_unheld hr h hactive hp hfind]
  case again =>
    rw [exec_nak_crossing hup hcross, Block.doNak_held hr h hactive hp hfind hget, Block.retryFrom_again hp htries]
  case drops =>
    rw [exec_nak_crossing hup hcross, Block.doNak_held hr h hactive hp hfind hget, Block.retryFrom_drops hp htries hdata]
  case retrains =>
    rw [exec_nak_crossing hup hcross, Block.doNak_held hr h hactive hp hfind hget, Block.retryFrom_retrains htries hdata]
  case nakAgain => rw [exec_nakRetryTimeout_up hs hup, Block.doNakRetry_open hopen hactive]
  case nakClosed => rw [exec_nakRetryTimeout_up hs hup, Block.doNakRetry_other h]

end Sys2Proof
end

section
/-! PROOFS. The parts of a collective command and the chains that they work on (R281 to R285, R288). -/
namespace Sys2Proof.Machine

/-! ## The commands on a running module -/

section Commands
variable {s : State} (hup : s.Up)
include hup

theorem exec_coll_up (q : Fin 256) : exec (.coll q) s = .next { s with blk := s.blk.doColl s.env q } :=
  congrArg Host.Outcome.next (s.onBlock_up _ hup)

theorem exec_collectivePartStart_up (x : Fin 6) (p : Fin 8) :
    exec (.collectivePartStart x p) s = .next { s with blk := s.blk.doPartStart s.env x p } :=
  congrArg Host.Outcome.next (s.onBlock_up _ hup)

end Commands

/-! ## COLL splits a command (R281) -/

@[simp] theorem Block.ce_setCe_self (b : Block) (x : Nat) (c : CollEngine) : (b.setCe x c).ce x = c := mget_mset_self _ _ _ _

theorem Block.ce_setCe_other (b : Block) {x y : Nat} (c : CollEngine) (h : x ≠ y) : (b.setCe x c).ce y = b.ce y :=
  mget_mset_other _ _ _ _ _ h

/-- From `b` to `c` only the engines' own state changed. -/
def EnginesOnly (b c : Block) : Prop := c = { b with coll := { b.coll with engines := c.coll.engines } }

/-- Appends part `c` to the part queue of partition `p` on engine `x`. -/
def Block.queuePart (b : Block) (p : Nat) (c : CollPart) (x : Nat) : Block :=
  b.setCe x { b.ce x with queued := mset [] (b.ce x).queued p (mget [] (b.ce x).queued p ++ [c]) }

theorem Block.queued_queuePart (b : Block) (p : Nat) (c : CollPart) (x y p' : Nat) :
    mget [] ((b.queuePart p c x).ce y).queued p' =
      mget [] (b.ce y).queued p' ++ (if p' = p ∧ y = x then [c] else []) := by
  rw [Block.queuePart]
  by_cases hx : x = y
  · subst hx
    rw [Block.ce_setCe_self, mget_mset]
    by_cases hp : p = p'
    · simp [hp]
    · simp [hp, Ne.symm hp]
  · simp [Block.ce_setCe_other _ _ hx, Ne.symm hx]

theorem Block.foldl_queuePart_enginesOnly (b : Block) (p : Nat) (c : CollPart) (l : List Nat) :
    EnginesOnly b (l.foldl (fun b x => b.queuePart p c x) b) := by
  refine List.foldlRecOn l _ (motive := EnginesOnly b) rfl fun d hd x _ => ?_
  rw [EnginesOnly] at hd ⊢
  rw [hd]; rfl

theorem Block.queued_foldl_queuePart (p : Nat) (c : CollPart) {l : List Nat} (hl : l.Nodup) (b : Block) (y p' : Nat) :
    mget [] ((l.foldl (fun b x => b.queuePart p c x) b).ce y).queued p' =
      mget [] (b.ce y).queued p' ++ (if p' = p ∧ y ∈ l then [c] else []) := by
  induction l generalizing b with
  | nil => simp
  | cons x l ih =>
    obtain ⟨hx, hl⟩ := List.nodup_cons.mp hl
    rw [List.foldl_cons, ih hl, Block.queued_queuePart]
    by_cases hyx : y = x
    · subst hyx
      simp [hx]
    · simp [hyx]

theorem nodup_eraseDups (l : List Nat) : l.eraseDups.Nodup := by
  match l with
  | [] => exact List.nodup_nil
  | a :: l =>
    have hlen : (l.filter fun b => !b == a).length < l.length + 1 := Nat.lt_succ_of_le (List.length_filter_le _ _)
    rw [List.eraseDups_cons]
    exact List.nodup_cons.mpr ⟨by simp, nodup_eraseDups _⟩
termination_by l.length

theorem CollBlock.nodup_engines (k : CollBlock) (t : Topology) (lead : Nat) : (k.engines t lead).Nodup := by
  rw [CollBlock.engines]
  exact iteInduction (motive := List.Nodup) (fun _ => List.nodup_singleton lead) (fun _ => nodup_eraseDups _)

/-- Notes command `cmd` among those that are not complete. -/
def Block.noteCmd (b : Block) (cmd : CollCmd) : Block := { b with coll := { b.coll with cmds := b.coll.cmds ++ [cmd] } }

section Split
variable {b : Block} {e : Env} {q : Nat}

theorem Block.doColl_idle (h : b.activeColl q = none) : b.doColl e q = b := by
  rw [Block.doColl, h]

variable {r : Running} (hactive : b.activeColl q = some r)
include hactive

theorem Block.doColl_split (h : (b.collCmd q r.seq).isSome = true) : b.doColl e q = b := by
  simp only [Block.doColl, hactive, h, if_true]

theorem Block.doColl_splits (h : b.collCmd q r.seq = none) {lead : Nat} {d : Block × List Byte} (hlead : lead = (b.queue q).engine - 40)
    (hd : d = b.readArg e (2 * 8192 + lead) (b.queue q) r 64) :
    b.doColl e q = ((CollBlock.ofBytes d.2).engines d.1.topo lead).foldl
      (fun b x => b.queuePart r.part { queue := q, seq := r.seq } x)
      (d.1.noteCmd { queue := q, seq := r.seq, part := r.part, block := CollBlock.ofBytes d.2 }) := by
  subst hlead hd
  simp only [Block.doColl, hactive, h, Option.isSome_none, Bool.false_eq_true, if_false]
  rfl

end Split

/-! ## A part starts (R281 to R283, R288) -/

/-- Credits of one phase, number `q.1` of the plan, to the device before this one on every chain that does not begin here. -/
def Block.openChains (e : Env) (x p : Nat) (k : CollBlock) (num : Nat) (t : Block) (q : Nat × CollStep) : Block :=
  if q.2.dim ≠ x / 2 then t
  else match k.half q.2 (x % 2) with
    | none => t
    | some half => q.2.segs.foldl (fun t j =>
        if (if q.2.kind = 3 then (q.2.c + q.2.s - j) % q.2.s ≠ 0 ∧
            goesPlus q.2.s ((q.2.c + q.2.s - j) % q.2.s) = decide (x % 2 = 0) else q.2.pos (x % 2) j ≠ 0)
        then t.grantCredit e x p k num q.2 q.1 (x % 2) half j 8 else t) t

/-- Part `c` leaves the head of its queue, of which `rest` stays, and is active under the next COLL_SEQ. -/
def Block.activatePart (b : Block) (x p : Nat) (c : CollPart) (rest : List CollPart) : Block :=
  b.setCe x { b.ce x with
    queued := mset [] (b.ce x).queued p rest
    active := mset [] (b.ce x).active p (mget [] (b.ce x).active p ++ [{ c with num := some (mget 0 (b.ce x).seqs p) }])
    seqs := mset 0 (b.ce x).seqs p ((mget 0 (b.ce x).seqs p + 1) % 2 ^ 32) }

/-- A command as the start of its first part leaves it. -/
def CollCmd.begun (cmd : CollCmd) (b : Block) (e : Env) (p : Nat) : CollCmd :=
  if cmd.started then cmd else
    { cmd with started := true, exposure := b.slotExposure e p cmd.block.expSlot, phase := 0
               todo := (((cmd.block.plan b.topo).head?).map CollStep.incoming).getD 0 }

/-- Starts command `cmd` with the first of its parts. -/
def Block.beginCmd (b : Block) (e : Env) (x p : Nat) (cmd : CollCmd) : Block :=
  if cmd.started then b.setCmd (cmd.begun b e p) else (b.setCmd (cmd.begun b e p)).beginData e x p (cmd.begun b e p)

section Start
variable {b : Block} {e : Env} {x p : Nat} {act : List CollPart} (hact : act = mget [] (b.ce x).active p)

theorem Block.doPartStart_empty (h : mget [] (b.ce x).queued p = []) : b.doPartStart e x p = b := by
  simp only [Block.doPartStart, h]

include hact

theorem Block.doPartStart_held (h : 2 ≤ act.length ∨ act.all (fun a => b.partSpent x a) = false) : b.doPartStart e x p = b := by
  subst hact
  have hheld : (decide (2 ≤ (mget [] (b.ce x).active p).length) ||
      !(mget [] (b.ce x).active p).all (fun a => b.partSpent x a)) = true := by
    rwa [Bool.or_eq_true, decide_eq_true_eq, Bool.not_eq_true']
  simp only [Block.doPartStart]
  split
  · rfl
  · rw [if_pos hheld]

variable {c : CollPart} {rest : List CollPart} {cmd : CollCmd} (hqueued : mget [] (b.ce x).queued p = c :: rest)
  (hroom : act.length < 2) (hspent : act.all (fun a => b.partSpent x a) = true) (hcmd : b.collCmd c.queue c.seq = some cmd)
include hqueued hroom hspent hcmd

theorem Block.doPartStart_refused {n : Nat} (hfault : cmd.block.fault b.topo (b.gen p).job.devices = some n) :
    b.doPartStart e x p = b.refuseColl e x p c cmd.block.sig n := by
  subst hact
  simp only [Block.doPartStart, hqueued, Nat.not_le.mpr hroom, hspent, hcmd, hfault, decide_false, Bool.not_true, Bool.or_self,
    Bool.false_eq_true, if_false]

theorem Block.doPartStart_starts (hfault : cmd.block.fault b.topo (b.gen p).job.devices = none) :
    b.doPartStart e x p =
      ((List.range (cmd.block.plan b.topo).length).zip (cmd.block.plan b.topo)).foldl
        (Block.openChains e x p cmd.block (mget 0 (b.ce x).seqs p)) ((b.activatePart x p c rest).beginCmd e x p cmd) := by
  subst hact
  simp only [Block.doPartStart, hqueued, Nat.not_le.mpr hroom, hspent, hcmd, hfault, decide_false, Bool.not_true, Bool.or_self,
    Bool.false_eq_true, if_false]
  refine congrArg (fun f => List.foldl f _ _) (funext₂ fun t q => ?_)
  unfold Block.openChains
  congr 1
  cases cmd.block.half q.2 (x % 2) with
  | none => rfl
  | some half =>
    by_cases hkind : q.2.kind = 3
    · simp [hkind]
    · simp [hkind]

end Start

/-! ## The chain of a reduce-scatter phase (R285) -/

section Chain
variable {s a c j : Nat}

/-- The distance on a ring of `s` from `c` to `a`, both on it. -/
theorem ringSub_mod (ha : a < s) (hc : c < s) : (a + s - c) % s = if c ≤ a then a - c else a + s - c := by
  split
  case isTrue h => rw [show a + s - c = a - c + s by omega, Nat.add_mod_right, Nat.mod_eq_of_lt (by omega)]
  case isFalse h => exact Nat.mod_eq_of_lt (by omega)

theorem ringSucc_mod (ha : a < s) : (a + 1) % s = if a + 1 = s then 0 else a + 1 := by
  split
  case isTrue h => rw [h, Nat.mod_self]
  case isFalse h => exact Nat.mod_eq_of_lt (by omega)

/-- The position at `a` of a chain that goes up a ring of `s` and ends at `o`; going down it is that at `o` of one that ends at `a`. -/
def ringSteps (s a o : Nat) : Nat := if a ≤ o then a + s - 1 - o else a - 1 - o

theorem ringSteps_lt (ha : a < s) (hc : c < s) : ringSteps s a c < s := by
  rw [ringSteps]; split <;> omega

theorem ringSteps_last (ha : a < s) (hc : c < s) : ringSteps s a c = s - 1 ↔ a = c := by
  rw [ringSteps]; split <;> omega

theorem ringSteps_succ (ha : a < s) (hc : c < s) (h : a ≠ c) : ringSteps s ((a + 1) % s) c = ringSteps s a c + 1 := by
  rw [ringSucc_mod ha]
  simp only [ringSteps]
  split_ifs <;> omega

theorem ringSteps_pred (ha : a < s) (hc : c < s) (h : a ≠ c) : ringSteps s c ((a + s - 1) % s) = ringSteps s c a + 1 := by
  rw [ringSub_mod ha (show 1 < s by omega)]
  simp only [ringSteps]
  split_ifs <;> omega

variable {st : CollStep} (hkind : st.kind = 0) {m : Nat}
include hkind

theorem CollStep.pos_up (hc : st.c < st.s) (hj : j < st.s) : st.pos 0 j = ringSteps st.s st.c j := by
  simp only [CollStep.pos, hkind, if_true, ringSucc_mod hj, ringSteps]
  split
  case isTrue h => rw [ringSub_mod hc (by omega)]; split_ifs <;> omega
  case isFalse h => rw [ringSub_mod hc (by omega)]; split_ifs <;> omega

theorem CollStep.pos_down (hm : m ≠ 0) (hs : 2 ≤ st.s) (hc : st.c < st.s) (hj : j < st.s) : st.pos m j = ringSteps st.s j st.c := by
  simp only [CollStep.pos, hkind, hm, if_false, ringSub_mod hj hs, ringSteps]
  split
  case isTrue h => rw [ringSub_mod (by omega) hc]; split_ifs <;> omega
  case isFalse h => rw [ringSub_mod (by omega) hc]; split_ifs <;> omega

end Chain

end Sys2Proof.Machine

namespace Sys2Proof
open Machine

/-- Settles O32: COLL by whether its command is split, where each engine that it uses appears once (`CollBlock.nodup_engines`); a part's
start by what holds it back and the fault of its block; a chain by its steps around the ring (`ringSteps`). -/
theorem collectivesSplitAndStart : Obligations.CollectivesSplitAndStart := by
  unfold Obligations.CollectivesSplitAndStart
  refine ⟨fun s q hup => ⟨fun hidle => ?idle, fun r hactive => ⟨fun hsplit => ?already, fun hnew lead d hlead hd => ?splits⟩⟩,
    fun s x p act hup hact => ⟨fun hheld => ?held, fun c rest cmd hqueued hroom hspent hcmd =>
      ⟨fun n hfault => ?refused, fun hfault => ?starts⟩⟩,
    fun st m j hkind hs hc hj => ?chain⟩
  case idle => rw [exec_coll_up hup, Block.doColl_idle hidle]
  case already => rw [exec_coll_up hup, Block.doColl_split hactive hsplit]
  case splits =>
    rw [exec_coll_up hup, Block.doColl_splits hactive hnew hlead hd]
    have hframe := Block.foldl_queuePart_enginesOnly
      (d.1.noteCmd { queue := q, seq := r.seq, part := r.part, block := CollBlock.ofBytes d.2 }) r.part
      { queue := q, seq := r.seq } ((CollBlock.ofBytes d.2).engines d.1.topo lead)
    refine ⟨_, rfl, ?_, ?_, fun x p => ?_⟩
    · dsimp only
      rw [hframe]; rfl
    · dsimp only
      rw [hframe]; rfl
    · exact Block.queued_foldl_queuePart _ _ (CollBlock.nodup_engines _ _ _) _ x p
  case held =>
    rw [exec_collectivePartStart_up hup]
    rcases hheld with hempty | hheld
    · rw [Block.doPartStart_empty hempty]
    · rw [Block.doPartStart_held hact hheld]
  case refused =>
    rw [exec_collectivePartStart_up hup, Block.doPartStart_refused hact hqueued hroom hspent hcmd hfault]
  case starts =>
    subst hact
    refine ⟨_, _, _, rfl, rfl, rfl, ?_⟩
    rw [exec_collectivePartStart_up hup, Block.doPartStart_starts rfl hqueued hroom hspent hcmd hfault]
    rfl
  case chain =>
    have hnext : st.nextC m < st.s := by
      rw [CollStep.nextC]
      split <;> exact Nat.mod_lt _ (by omega)
    by_cases hm : m = 0
    · subst hm
      rw [CollStep.pos_up hkind hc hj, CollStep.pos_up (st := { st with c := st.nextC 0 }) hkind hnext hj]
      exact ⟨ringSteps_lt hc hj, ringSteps_last hc hj, ringSteps_succ hc hj⟩
    · rw [CollStep.pos_down hkind hm hs hc hj, CollStep.pos_down (st := { st with c := st.nextC m }) hkind hm hs hnext hj,
        CollStep.nextC, if_neg hm]
      exact ⟨ringSteps_lt hj hc, (ringSteps_last hj hc).trans eq_comm, ringSteps_pred hc hj⟩

end Sys2Proof
end

section
/-! PROOFS. Queue windows: doorbells, the writes that enable, disable and bind a queue (R300, R304, R311, R312, R335). -/
namespace Sys2Proof.Machine

/-! ## The commands on a running module -/

section Commands
variable {s : State} (hup : s.Up) (f : Fin 9) (q : Fin 256)
include hup

theorem exec_doorbell_up (v : Fin (2 ^ 64)) : exec (.doorbell f q v) s = .next { s with blk := s.blk.doDoorbell s.env f q v } :=
  congrArg Host.Outcome.next (s.onBlock_up _ hup)

theorem exec_queueEnable_up : exec (.queueEnable f q) s = .next { s with blk := s.blk.doQueueEnable s.env f q } :=
  congrArg Host.Outcome.next (s.onBlock_up _ hup)

theorem exec_queueDisable_up : exec (.queueDisable f q) s = .next { s with blk := s.blk.doQueueDisable s.env f q } :=
  congrArg Host.Outcome.next (s.onBlock_up _ hup)

theorem exec_queueBind_up (eng : Fin 64) (part : Fin 16) :
    exec (.queueBind f q eng part) s = .next { s with blk := s.blk.doQueueBind s.env f q eng part } :=
  congrArg Host.Outcome.next (s.onBlock_up _ hup)

end Commands

/-! ## Reading queues and the front end's counters -/

section Reading
variable (b : Block) (q : Nat) (x : Queue)

theorem Block.queue_setQueue (k : Nat) : (b.setQueue q x).queue k = if q = k then x else b.queue k := mget_mset _ _ _ _ _

@[simp] theorem Block.queue_setQueue_self : (b.setQueue q x).queue q = x := mget_mset_self _ _ _ _

theorem Block.queue_setQueue_other {q k : Nat} (h : k ≠ q) : (b.setQueue q x).queue k = b.queue k :=
  mget_mset_other _ _ _ _ _ h.symm

theorem Block.counters_bumpFe (off n k : Nat) : mget 0 (b.bumpFe off n).fe.counters k =
    if off = k then min (mget 0 b.fe.counters off + n) (2 ^ 48 - 1) else mget 0 b.fe.counters k := by
  simp only [Block.bumpFe, bump, mget_mmod, sat48, satAdd]

end Reading

/-! ## What leaves every queue as it is -/

section Queues
variable {b c : Block} (e : Env) (q : Nat)

theorem Block.queue_congr (h : c.fe.queues = b.fe.queues) (k : Nat) : c.queue k = b.queue k := by rw [Block.queue, h, Block.queue]

theorem Block.setQueue_queues (h : c.fe.queues = b.fe.queues) (x : Queue) :
    (c.setQueue q x).fe.queues = (b.setQueue q x).fe.queues := by simp only [Block.setQueue, h]

theorem Reports.queues_eq (h : Reports b c) : c.fe.queues = b.fe.queues := by rw [h]

theorem foldl_queues {α : Type} {f : Block → α → Block} (hf : ∀ b x, (f b x).fe.queues = b.fe.queues) (l : List α) (b : Block) :
    (l.foldl f b).fe.queues = b.fe.queues := by
  induction l generalizing b with
  | nil => rfl
  | cons x l ih => exact (ih (f b x)).trans (hf b x)

theorem Block.unpin_queues (pin : Option (Nat × Nat)) : (b.unpin e pin).fe.queues = b.fe.queues := by
  cases pin <;> rfl

theorem Block.quit_queues (b : Block) (r : Running) : (b.quit e q r).fe.queues = b.fe.queues := by
  unfold Block.quit
  extract_lets x en unpinned boot updated plates stopped
  have hunpinned : unpinned.fe.queues = b.fe.queues := Block.unpin_queues e r.pin
  have hupdated : updated.fe.queues = b.fe.queues := by
    refine Eq.trans ?_ hunpinned
    unfold updated
    split
    · split <;> rfl
    · rfl
  have hstopped : stopped.fe.queues = b.fe.queues := by
    refine Eq.trans ?_ hupdated
    unfold stopped
    split
    · rfl
    · split <;> rfl
  split
  · exact hupdated
  · exact hstopped

theorem Block.setLine_queues (b : Block) (k : Nat) (st : LineState) : (b.setLine k st).fe.queues = b.fe.queues := rfl

theorem Block.syncEvent_queues (b : Block) (code id part obj : Nat) (more : List (Nat × Nat × Nat)) :
    (b.syncEvent e code id part obj more).fe.queues = b.fe.queues := by
  unfold Block.syncEvent
  extract_lets key
  split
  · rfl
  · exact (post_reports _ _ _).queues_eq

/-- A lock that its holder abandons takes staged lines and a record with it, and no queue. -/
theorem Block.orphanLock_queues (b : Block) (n : Nat) : (b.orphanLock e n).fe.queues = b.fe.queues := by
  unfold Block.orphanLock
  extract_lets o k staged lines unstaged invalidated
  have hunstaged : unstaged.fe.queues = b.fe.queues := by
    unfold unstaged
    cases k <;> rfl
  have hinvalidated : invalidated.fe.queues = b.fe.queues :=
    (foldl_queues (fun b l => Block.setLine_queues b l .i) _ _).trans hunstaged
  split
  · rfl
  · split
    · exact (Block.syncEvent_queues e _ _ _ _ _ _).trans hinvalidated
    · exact Block.syncEvent_queues e _ _ _ _ _ _

end Queues

/-! ## Doorbells (R304) -/

section Doorbell
variable {b : Block} {e : Env} {f q v : Nat} {x : Queue} (hreach : b.reachesQueue f q = true) (hx : x = b.queue q)

theorem Block.doDoorbell_unreached (h : b.reachesQueue f q = false) : b.doDoorbell e f q v = b := by
  simp only [Block.doDoorbell, h, Bool.not_false, if_true]

include hreach hx

theorem Block.doDoorbell_ignored (hjob : x.job = true) : b.doDoorbell e f q v = b.bumpFe 0x828 1 := by
  subst hx
  simp only [Block.doDoorbell, hreach, hjob, Bool.not_true, Bool.false_eq_true, if_false, if_true]

variable (hjob : x.job = false)
include hjob

theorem Block.doDoorbell_taken (hlow : x.submitted ≤ v) (hhigh : v ≤ x.completed + 64 * 2 ^ x.size) (hmax : v < 2 ^ 56) :
    b.doDoorbell e f q v = b.setQueue q { x with submitted := v } := by
  subst hx
  have hin : (v < (b.queue q).submitted || (b.queue q).completed + (b.queue q).cap < v || 2 ^ 56 ≤ v) = false := by
    simp only [Bool.or_eq_false_iff, decide_eq_false_iff_not]
    exact ⟨⟨Nat.not_lt.mpr hlow, Nat.not_lt.mpr hhigh⟩, Nat.not_le.mpr hmax⟩
  simp only [Block.doDoorbell, hreach, hjob, hin, Bool.not_true, Bool.false_eq_true, if_false]

theorem Block.doDoorbell_outOfRange (h : v < x.submitted ∨ x.completed + 64 * 2 ^ x.size < v ∨ 2 ^ 56 ≤ v) :
    b.doDoorbell e f q v = (b.bumpFe 0x820 1).queueEvent e q 4 1 0 [(40, 8, v)] := by
  subst hx
  have hout : (v < (b.queue q).submitted || (b.queue q).completed + (b.queue q).cap < v || 2 ^ 56 ≤ v) = true := by
    simp only [Bool.or_eq_true, decide_eq_true_eq, or_assoc]
    exact h
  simp only [Block.doDoorbell, hreach, hjob, hout, Bool.not_true, Bool.false_eq_true, if_false, if_true]

end Doorbell

/-! ## The binding table (R312) -/

theorem Block.mayBind_iff {b : Block} {eng part : Nat} : b.mayBind eng part = true ↔
    (eng < 8 ∧ part < 8 ∧ (mget ({} : Part) b.fe.parts part).valid = true ∧ (mget ({} : Part) b.fe.parts part).first = eng) ∨
      (8 ≤ eng ∧ eng ≤ 46 ∧ (part < 8 ∨ part = 15)) ∨ (eng = 47 ∧ part = 15) := by
  unfold Block.mayBind
  split
  case isTrue hplate =>
    simp only [Bool.and_eq_true, decide_eq_true_eq]
    grind
  case isFalse hplate =>
    split
    case isTrue hother => simp only [Bool.or_eq_true, decide_eq_true_eq]; omega
    case isFalse hmgmt => simp only [Bool.and_eq_true, decide_eq_true_eq]; omega

/-! ## Writes of a queue's control register (R304, R311, R312) -/

/-- A queue whose register fields SIZE and VECTOR were written with their own values: each keeps to its range (R335). -/
def Queue.fitted (x : Queue) : Queue := { x with size := min 10 x.size, vector := x.vector % 128 }

section Control
variable {b : Block} {e : Env} {f q : Nat} {x : Queue}

theorem Block.queueCtl_unreached {enable : Bool} {part engine size vector : Nat} (h : b.reachesQueue f q = false) :
    b.queueCtl e f q enable part engine size vector = b := by
  simp only [Block.queueCtl, h, Bool.not_false, if_true]

theorem Block.doQueueBind_unreached {engine part : Nat} (h : b.reachesQueue f q = false) : b.doQueueBind e f q engine part = b := by
  simp only [Block.doQueueBind, h, Bool.false_and, Bool.false_eq_true, if_false, Block.queueCtl_unreached h]

variable (hreach : b.reachesQueue f q = true) (hx : x = b.queue q)
include hreach hx

/-- A write that names the engine and the partition the queue has is checked against the table only where it enables the queue. -/
theorem Block.queueCtl_unmoved (enable : Bool) : b.queueCtl e f q enable x.part x.engine x.size x.vector =
    if enable && !x.enable && !b.mayBind x.engine x.part then b.bumpFe 0x830 1
    else if enable && !x.enable then (b.setQueue q x.fitted).enableQueue q
    else if !enable && x.enable then
      ((((b.setQueue q x.fitted).setQueue q { x.fitted with enable := false }).abandonQueue e q).setQueue q
        { (((b.setQueue q x.fitted).setQueue q { x.fitted with enable := false }).abandonQueue e q).queue q with
          state := 0 }).wakeEngine e x.engine
    else b.setQueue q x.fitted := by
  subst hx
  simp [Block.queueCtl, hreach, Block.bindRefused, Queue.fitted]

theorem Block.doQueueEnable_enabled (h : x.enable = true) : b.doQueueEnable e f q = b.setQueue q x.fitted := by
  subst hx
  simp [Block.doQueueEnable, Block.queueCtl_unmoved hreach rfl, h]

theorem Block.doQueueEnable_refused (h : x.enable = false) (hbind : b.mayBind x.engine x.part = false) :
    b.doQueueEnable e f q = b.bumpFe 0x830 1 := by
  subst hx
  simp [Block.doQueueEnable, Block.queueCtl_unmoved hreach rfl, h, hbind]

theorem Block.doQueueEnable_starts (h : x.enable = false) (hbind : b.mayBind x.engine x.part = true) :
    b.doQueueEnable e f q = (b.setQueue q x.fitted).enableQueue q := by
  subst hx
  simp [Block.doQueueEnable, Block.queueCtl_unmoved hreach rfl, h, hbind]

theorem Block.doQueueDisable_disabled (h : x.enable = false) : b.doQueueDisable e f q = b.setQueue q x.fitted := by
  subst hx
  simp [Block.doQueueDisable, Block.queueCtl_unmoved hreach rfl, h]

theorem Block.doQueueDisable_enabled (h : x.enable = true) {d : Block}
    (hd : d = (b.setQueue q x.fitted).setQueue q { x.fitted with enable := false }) : b.doQueueDisable e f q =
      ((d.abandonQueue e q).setQueue q { (d.abandonQueue e q).queue q with state := 0 }).wakeEngine e x.engine := by
  subst hx hd
  simp [Block.doQueueDisable, Block.queueCtl_unmoved hreach rfl, h]

variable {engine part p : Nat} (hp : p = if f = 0 then part else x.part)
include hp

theorem Block.doQueueBind_refused
    (h : b.mayBind engine p = false ∨ (x.enable = true ∧ (p ≠ x.part ∨ engine ≠ x.engine))) :
    b.doQueueBind e f q engine part = b.bumpFe 0x830 1 := by
  subst hx
  rw [Block.doQueueBind, Block.queueCtl]
  simp only [hreach, ← hp]
  obtain hbind | ⟨henable, hmoved⟩ := h
  · simp [hbind, Block.bindRefused]
  · simp [henable, hmoved, Block.bindRefused]

theorem Block.doQueueBind_binds (hbind : b.mayBind engine p = true)
    (hstill : ¬(x.enable = true ∧ (p ≠ x.part ∨ engine ≠ x.engine))) :
    b.doQueueBind e f q engine part = b.setQueue q { x.fitted with part := p, engine := engine } := by
  subst hx
  rw [Block.doQueueBind, Block.queueCtl]
  simp only [hreach, ← hp, hbind]
  cases henable : (b.queue q).enable with
  | false => simp [henable, Queue.fitted]
  | true =>
    obtain ⟨hpart, hengine⟩ : p = (b.queue q).part ∧ engine = (b.queue q).engine := by simpa [henable] using hstill
    simp [henable, hpart, hengine, Queue.fitted]

end Control

/-! ## Abandoning a queue (R311) -/

section Abandon
variable {b : Block} {e : Env} {q : Nat} {x : Queue} (hx : x = b.queue q)
include hx

theorem Block.abandonQueue_done (h : x.submitted ≤ x.completed) : b.abandonQueue e q = b.setQueue q { x with running := [] } := by
  subst hx
  exact if_pos h

/-- Up to its completion write, abandoning changes of all queues this one alone. -/
theorem Block.abandonQueue_pending (h : x.completed < x.submitted) : ∃ c : Block, b.abandonQueue e q = c.completionWrite e q ∧
    c.fe.queues = (b.setQueue q { x with
      running := [], abnd := x.submitted, abndSeqs := (x.completed + 1, x.submitted) :: x.abndSeqs
      completed := x.submitted, state := if x.enable then 1 else 0 }).fe.queues := by
  subst hx
  refine ⟨_, if_neg (Nat.not_le.mpr h), (post_reports _ _ _).queues_eq.trans ?_⟩
  exact (foldl_queues (Block.orphanLock_queues e) _ _).trans
    (Block.setQueue_queues q (foldl_queues (Block.quit_queues e q) _ _) _)

end Abandon

end Sys2Proof.Machine

namespace Sys2Proof
open Machine

/-- Settles O34: each write by what the queue was before it; what disabling abandons is the queue's own
(`Block.abandonQueue_pending`). -/
theorem queuesAcceptAndBind : Obligations.QueuesAcceptAndBind := by
  unfold Obligations.QueuesAcceptAndBind
  refine ⟨fun s f q v eng part hup hunreached => ?unreached,
    fun s f q v x hup hreach hx => ⟨fun hjob => ?ignored, fun hjob hlow hhigh hmax => ?taken, fun hjob hout => ?outOfRange⟩,
    fun s f q x y hup hreach hx hy => ⟨fun hon => ?enabled, fun hoff hbind => ?refused, fun hoff hbind => ?starts,
      fun hoff => ?disabled, fun hon => ?disables⟩⟩
  case unreached =>
    simp only [List.forall_mem_cons, List.not_mem_nil, false_implies, implies_true, and_true]
    refine ⟨?_, ?_, ?_, ?_⟩
    · rw [exec_doorbell_up hup, Block.doDoorbell_unreached hunreached]
    · rw [exec_queueEnable_up hup, Block.doQueueEnable, Block.queueCtl_unreached hunreached]
    · rw [exec_queueDisable_up hup, Block.doQueueDisable, Block.queueCtl_unreached hunreached]
    · rw [exec_queueBind_up hup, Block.doQueueBind_unreached hunreached]
  case ignored => rw [exec_doorbell_up hup, Block.doDoorbell_ignored hreach hx hjob]
  case taken => rw [exec_doorbell_up hup, Block.doDoorbell_taken hreach hx hjob hlow hhigh hmax]
  case outOfRange => rw [exec_doorbell_up hup, Block.doDoorbell_outOfRange hreach hx hjob hout]
  case enabled => rw [exec_queueEnable_up hup, Block.doQueueEnable_enabled hreach hx hon, hy, Queue.fitted]
  case refused => rw [exec_queueEnable_up hup, Block.doQueueEnable_refused hreach hx hoff hbind]
  case starts =>
    refine ⟨_, by rw [exec_queueEnable_up hup, Block.doQueueEnable_starts hreach hx hoff hbind], fun k hk => ?_, ?_⟩
    · rw [Block.enableQueue, Block.queue_setQueue_other _ _ hk, Block.queue_setQueue_other _ _ hk]
    · rw [Block.enableQueue, Block.queue_setQueue_self, Block.queue_setQueue_self, hy, Queue.fitted]
  case disabled => rw [exec_queueDisable_up hup, Block.doQueueDisable_disabled hreach hx hoff, hy, Queue.fitted]
  case disables =>
    have hfit : y = x.fitted := hy
    subst hfit
    obtain ⟨d, hd⟩ : ∃ d, d = (s.blk.setQueue q x.fitted).setQueue q { x.fitted with enable := false } := ⟨_, rfl⟩
    have hdq : { x.fitted with enable := false } = d.queue q := by rw [hd, Block.queue_setQueue_self]
    have hother (k : Nat) (hk : k ≠ q) : d.queue k = s.blk.queue k := by
      rw [hd, Block.queue_setQueue_other _ _ hk, Block.queue_setQueue_other _ _ hk]
    have hexec := exec_queueDisable_up hup f q
    rw [Block.doQueueDisable_enabled hreach hx hon hd] at hexec
    by_cases hdone : x.submitted ≤ x.completed
    · refine ⟨d.setQueue q { x.fitted with enable := false, running := [] }, d, hd, ?_, fun h => absurd hdone (Nat.not_le.mpr h),
        fun _ => Block.queue_setQueue_self _ _ _, fun k hk => ?_, hexec⟩
      · rw [if_neg (Nat.not_lt.mpr hdone)]
        exact Block.abandonQueue_done hdq hdone
      · rw [Block.queue_setQueue_other _ _ hk, hother k hk]
    · have hpending := Nat.not_le.mp hdone
      obtain ⟨c, hc, hqueues⟩ := Block.abandonQueue_pending (e := s.env) hdq hpending
      refine ⟨c, d, hd, ?_, fun _ => ?_, fun h => absurd h hdone, fun k hk => ?_, hexec⟩
      · rw [if_pos hpending, hc]
      · rw [Block.queue_congr hqueues, Block.queue_setQueue_self]; rfl
      · rw [Block.queue_congr hqueues, Block.queue_setQueue_other _ _ hk, hother k hk]

/-- Settles O55: `Block.mayBind_iff` is the table; a refused write counts and does nothing else, and any other sets the queue. -/
theorem bindingsFollowTheTable : Obligations.BindingsFollowTheTable := by
  unfold Obligations.BindingsFollowTheTable
  intro s f q eng part x p allowed hup hreach hx hp hallowed
  rw [← Block.mayBind_iff] at hallowed
  refine ⟨fun hrefused => ?refused, fun hok hstill => ?binds⟩
  case refused =>
    have hrefused' : s.blk.mayBind eng p = false ∨ (x.enable = true ∧ (p ≠ x.part ∨ eng.val ≠ x.engine)) :=
      hrefused.imp_left fun h => Bool.eq_false_iff.mpr fun hbind => h (hallowed.mpr hbind)
    refine ⟨s.blk.bumpFe 0x830 1, ?_, rfl, ?_, fun k hk => ?_⟩
    · rw [exec_queueBind_up hup, Block.doQueueBind_refused hreach hx hp hrefused']
    · rw [Block.counters_bumpFe, if_pos rfl]
    · rw [Block.counters_bumpFe, if_neg hk.symm]
  case binds =>
    refine ⟨s.blk.setQueue q { x.fitted with part := p, engine := eng }, ?_, ?_, ?_, ?_, rfl,
      fun k hk => Block.queue_setQueue_other _ _ hk⟩
    · rw [exec_queueBind_up hup, Block.doQueueBind_binds hreach hx hp (hallowed.mp hok) hstill]
    all_goals rw [Block.queue_setQueue_self]
    rfl

end Sys2Proof
end

section
/-! PROOFS. The commands that the front end executes itself, and how a command completes (R305, R306, R308, R309, R311, R317). -/
namespace Sys2Proof.Machine

/-! ## The commands on a running module -/

section Commands
variable {s : State} (hup : s.Up) (q : Fin 256)
include hup

theorem exec_cmdNop_up : exec (.cmdNop q) s = .next { s with blk := s.blk.doCmdNop q } :=
  congrArg Host.Outcome.next (s.onBlock_up _ hup)

theorem exec_sync_up : exec (.sync q) s = .next { s with blk := s.blk.doSync q } :=
  congrArg Host.Outcome.next (s.onBlock_up _ hup)

theorem exec_run_up : exec (.run q) s = .next { s with blk := s.blk.doRun s.env q } :=
  congrArg Host.Outcome.next (s.onBlock_up _ hup)

theorem exec_commandComplete_up : exec (.commandComplete q) s = .next { s with blk := s.blk.doCommandComplete s.env q } :=
  congrArg Host.Outcome.next (s.onBlock_up _ hup)

end Commands

/-! ## NOP, SYNC and RUN (R306, R317) -/

section Execute
variable {b : Block} {e : Env} {q : Nat} {r : Running}

theorem Block.doCmdNop_idle (h : b.activeOpc q 0 = none) : b.doCmdNop q = b := by simp only [Block.doCmdNop, h]

theorem Block.doCmdNop_retires (h : b.activeOpc q 0 = some r) : b.doCmdNop q = b.retireCmd q r.seq := by
  simp only [Block.doCmdNop, h]

theorem Block.doSync_idle (h : b.activeOpc q 6 = none) : b.doSync q = b := by simp only [Block.doSync, h]

theorem Block.doSync_retires (h : b.activeOpc q 6 = some r) : b.doSync q = b.retireCmd q r.seq := by
  simp only [Block.doSync, h]

theorem Block.doRun_idle (h : b.activeOpc q 3 = none) : b.doRun e q = b := by simp only [Block.doRun, h]

variable (hrun : b.activeOpc q 3 = some r)
include hrun

theorem Block.doRun_busy (hbusy : (b.image r.part).runCmd ≠ none) : b.doRun e q = b := by
  simp only [Block.doRun, hrun, Option.isSome_iff_ne_none.mpr hbusy, if_true]

variable (hfree : (b.image r.part).runCmd = none)
include hfree

theorem Block.doRun_refused (h : (b.image r.part).loaded = false ∨ (b.image r.part).commands ≤ r.desc.imm) :
    b.doRun e q = b.refuseCmd e q r.seq 2 60 := by
  have hbad : (!(b.image r.part).loaded || (b.image r.part).commands ≤ r.desc.imm) = true := by simpa using h
  simp only [Block.doRun, hrun, hfree, hbad, Option.isSome_none, Bool.false_eq_true, if_false, if_true]

theorem Block.doRun_loads (hloaded : (b.image r.part).loaded = true) (hindex : r.desc.imm < (b.image r.part).commands) :
    b.doRun e q = ((b.setImage r.part { b.image r.part with runCmd := some r.desc.imm }).liveRegions r.part).foldl
      (fun (b : Block) n => b.loadRegion r.part n) (b.setImage r.part { b.image r.part with runCmd := some r.desc.imm }) := by
  have hgood : (!(b.image r.part).loaded || (b.image r.part).commands ≤ r.desc.imm) = false := by
    simp [hloaded, Nat.not_le.mpr hindex]
  simp only [Block.doRun, hrun, hfree, hgood, Option.isSome_none, Bool.false_eq_true, if_false]

end Execute

/-! ## Completion (R308, R309) -/

section Complete
variable {b : Block} {e : Env} {q : Nat} {r : Running}

/-- The operation of SIG_SO: none, a release, or an add of what a SYNC names and of 1 otherwise. -/
theorem Block.signal_eq (x : Queue) : b.signal e x r =
    if r.desc.sigEn = false then b
    else if r.desc.rel = true then b.syncRelease e (engineReq x.engine) r.part r.desc.sigObj
    else b.syncAdd e (engineReq x.engine) r.part r.desc.sigObj (if r.desc.opc = 6 ∧ r.desc.imm ≠ 0 then r.desc.imm else 1) := by
  simp [Block.signal]

theorem Block.doCommandComplete_none (h : b.completing q = none) : b.doCommandComplete e q = b := by
  simp only [Block.doCommandComplete, h]

theorem Block.doCommandComplete_some (h : b.completing q = some r) {c d : Block}
    (hc : c = (b.signal e (b.queue q) r).setQueue q (((b.signal e (b.queue q) r).queue q).update r.seq (fun r => { r with
      phase := .finished, lock := none, pin := none })))
    (hd : d = (c.unpin e r.pin).releaseEngine e q) :
    b.doCommandComplete e q = ((r.pin.elim d (fun p => d.progress e p.1)).stepProgress e r).retire e q := by
  subst hc hd
  simp only [Block.doCommandComplete, h]
  cases r.pin <;> rfl

end Complete

/-! ## COMPLETED advances (R308, R309) -/

section Retire
variable {b : Block} {e : Env} {q : Nat} (n : Nat) {x : Queue} (hx : x = b.queue q)
include hx

theorem Block.retireFuel_empty (h : x.running = []) : Block.retireFuel e q n b = b := by
  subst hx
  cases n with
  | zero => rfl
  | succ n => simp only [Block.retireFuel, h]

variable {r : Running} {rs : List Running} (hrunning : x.running = r :: rs)
include hrunning

/-- A command that is not done holds the ones behind it back. -/
theorem Block.retireFuel_waits (hfinished : r.phase ≠ .finished) (habandoned : r.phase ≠ .abandoned) :
    Block.retireFuel e q n b = b := by
  subst hx
  cases n with
  | zero => rfl
  | succ n => simp only [Block.retireFuel, hrunning, if_neg hfinished, if_neg habandoned]

variable {c : Block}
  (hc : c = b.setQueue q { x with running := rs, completed := x.completed + 1, state := if rs = [] then 1 else x.state })
include hc

theorem Block.retireFuel_finished (hphase : r.phase = .finished) {d : Block}
    (hd : d = if r.desc.evt then (c.completionWrite e q).queueEvent e q 9 0 r.seq [] else c.completionWrite e q) :
    Block.retireFuel e q (n + 1) b =
      Block.retireFuel e q n (if r.desc.irq then d.fireMsix (funcOf x.part) x.vector else d) := by
  subst hx hc hd
  simp only [Block.retireFuel, hrunning, hphase, if_true, List.isEmpty_iff]

theorem Block.retireFuel_abandoned (hphase : r.phase = .abandoned) :
    Block.retireFuel e q (n + 1) b = Block.retireFuel e q n (c.completionWrite e q) := by
  subst hx hc
  simp only [Block.retireFuel, hrunning, hphase, reduceCtorEq, if_false, if_true, List.isEmpty_iff]

end Retire

end Sys2Proof.Machine

namespace Sys2Proof
open Machine

/-- Settles O36: NOP, SYNC and RUN by the command that the queue executes; a completion by the first command that is done; COMPLETED
by the phase of the command at the front. -/
theorem commandsRetireAndComplete : Obligations.CommandsRetireAndComplete := by
  unfold Obligations.CommandsRetireAndComplete
  refine ⟨fun s q hup => ⟨fun hidle => ?nopIdle, fun r hactive => ?nop, fun hidle => ?syncIdle, fun r hactive => ?sync,
      fun hidle => ?runIdle, fun r hactive => ⟨fun hbusy => ?runBusy, fun hfree hbad => ?runRefused,
        fun hfree hloaded hindex => ?runLoads⟩, fun hnone => ?noneDone, fun r hdone => ?completes⟩,
    fun b e q n x hx => ⟨fun hempty => ?empty, fun r rs hrunning => ⟨fun hfinished habandoned => ?waits,
      fun hphase => ?finished, fun hphase => ?abandoned⟩⟩⟩
  case nopIdle => rw [exec_cmdNop_up hup, Block.doCmdNop_idle hidle]
  case nop => rw [exec_cmdNop_up hup, Block.doCmdNop_retires hactive]
  case syncIdle => rw [exec_sync_up hup, Block.doSync_idle hidle]
  case sync => rw [exec_sync_up hup, Block.doSync_retires hactive]
  case runIdle => rw [exec_run_up hup, Block.doRun_idle hidle]
  case runBusy => rw [exec_run_up hup, Block.doRun_busy hactive hbusy]
  case runRefused => rw [exec_run_up hup, Block.doRun_refused hactive hfree hbad]
  case runLoads => exact ⟨_, rfl, by rw [exec_run_up hup, Block.doRun_loads hactive hfree hloaded hindex]⟩
  case noneDone => rw [exec_commandComplete_up hup, Block.doCommandComplete_none hnone]
  case completes =>
    refine ⟨s.blk.signal s.env (s.blk.queue q) r, _, _, Block.signal_eq _, rfl, rfl, ?_⟩
    rw [exec_commandComplete_up hup, Block.doCommandComplete_some hdone rfl rfl]
    cases r.pin <;> rfl
  case empty => exact Block.retireFuel_empty n hx hempty
  case waits => exact Block.retireFuel_waits n hx hrunning hfinished habandoned
  case finished => exact ⟨_, _, rfl, rfl, Block.retireFuel_finished n hx hrunning rfl hphase rfl⟩
  case abandoned => exact Block.retireFuel_abandoned n hx hrunning rfl hphase

end Sys2Proof
end

section
/-! PROOFS. Deadlines that expire, resets that hang, and the ends of time slices (R313 to R316). -/
namespace Sys2Proof.Machine

/-! ## The commands at the moments they stand for -/

section Commands
variable {s s' : State}

theorem exec_deadlineExpiry_up {q : Fin 256} (hs : s' = s.scheduled (s.blk.deadlineDue q)) (hup : s'.Up) :
    exec (.deadlineExpiry q) s = .next { s' with blk := s'.blk.doDeadline s'.env q } := by
  subst hs; exact congrArg Host.Outcome.next (State.onBlock_up _ _ hup)

theorem exec_hangEscalation_up {p : Fin 8} (hs : s' = s.eventAt (s.blk.hangDue p)) (hup : s'.Up) :
    exec (.hangEscalation p) s = .next { s' with blk := s'.blk.doHang s'.env p } := by
  subst hs; exact congrArg Host.Outcome.next (State.onBlock_up _ _ hup)

theorem exec_timeSliceEnd_up {en : Fin 48} (hs : s' = s.scheduled (s.blk.sliceDue en)) (hup : s'.Up) :
    exec (.timeSliceEnd en) s = .next { s' with blk := s'.blk.doSliceEnd s'.env en } := by
  subst hs; exact congrArg Host.Outcome.next (State.onBlock_up _ _ hup)

end Commands

/-! ## Deadlines (R315, R316) -/

section Deadline
variable {b : Block} {e : Env} {q : Nat} {x : Queue} (hx : x = b.queue q)
include hx

theorem Block.doDeadline_none (h : b.deadlinesRun x = false ∨ x.firstDue = none) : b.doDeadline e q = b := by
  subst hx
  have hnone : (if b.deadlinesRun (b.queue q) then (b.queue q).firstDue else none) = none := by
    obtain hstill | hnone := h
    · simp [hstill]
    · simp [hnone]
  simp only [Block.doDeadline, hnone]

variable {r : Running} (hruns : b.deadlinesRun x = true) (hfirst : x.firstDue = some r)
include hruns hfirst

theorem Block.doDeadline_early (h : e.clk.now < r.due) : b.doDeadline e q = b := by
  subst hx
  simp only [Block.doDeadline, hruns, hfirst, h, if_true]

theorem Block.doDeadline_expires (h : r.due ≤ e.clk.now) {wide : Bool}
    (hwide : wide = (decide (8 ≤ x.part) || decide (46 ≤ x.engine))) : b.doDeadline e q =
      (((b.bumpFe 0x810 1).queueEvent e q 3 2 r.seq [(25, 1, x.engine), (26, 1, b2n wide)]).abandonCmd e q r.seq).askSheet e
        { trigger := 0, scope := if wide then 256 else 2 ^ x.part, stop := true, tick := e.clk.now, queue := q, seq := r.seq } := by
  subst hx hwide
  simp only [Block.doDeadline, hruns, hfirst, Nat.not_lt.mpr h, if_true, if_false]

end Deadline

/-! ## Hangs (R316) -/

section Hang
variable {b : Block} {e : Env} {p t : Nat}

theorem Block.doHang_none (h : b.hangDue p = none) : b.doHang e p = b := by simp only [Block.doHang, h]

theorem Block.doHang_early (hdue : b.hangDue p = some t) (h : e.clk.now < t) : b.doHang e p = b := by
  simp only [Block.doHang, hdue, h, if_true]

theorem Block.doHang_overdue (hdue : b.hangDue p = some t) (h : t ≤ e.clk.now) :
    b.doHang e p = (b.bumpFe 0x818 1).retainedReset e 3 := by
  simp only [Block.doHang, hdue, Nat.not_lt.mpr h, if_false]

end Hang

/-! ## Time slices (R313, R314) -/

section Slice
variable {b c : Block} {e : Env} {en : Nat} {x : Engine} (hc : c = b.wakeEngine e en) (hx : x = c.engine en)
include hc hx

theorem Block.doSliceEnd_other (h : x.serving = none ∨ x.sliceOver = true ∨ 46 ≤ en ∨ e.clk.now < x.sliceEnd) :
    b.doSliceEnd e en = c := by
  subst hc hx
  cases hserving : ((b.wakeEngine e en).engine en).serving with
  | none => simp only [Block.doSliceEnd, hserving]
  | some q =>
    have hother : (((b.wakeEngine e en).engine en).sliceOver || 46 ≤ en ||
        e.clk.now < ((b.wakeEngine e en).engine en).sliceEnd) = true := by
      simpa [hserving, or_assoc] using h
    simp only [Block.doSliceEnd, hserving, hother, if_true]

variable {q : Nat} (hserving : x.serving = some q) (hover : x.sliceOver = false) (hend : x.sliceEnd ≤ e.clk.now)
include hserving hover hend

section Rounds
variable (hlow : 8 ≤ en) (hhigh : en < 46)
include hlow hhigh

theorem Block.doSliceEnd_alone (hnext : c.nextServed en q = none) : b.doSliceEnd e en = c.serve e q := by
  subst hc hx
  simp only [Block.doSliceEnd, rounds, hserving, hover, hnext, hlow, hhigh, Nat.not_lt.mpr hend, Nat.not_le.mpr hhigh, decide_true,
    decide_false, Bool.and_self, Bool.or_self, Bool.false_eq_true, if_true, if_false]

theorem Block.doSliceEnd_turns {n : Nat} (hnext : c.nextServed en q = some n) {d : Block}
    (hd : d = ((c.setQueue q { c.queue q with state := 5 }).pauseQueue e q).serve e n) :
    b.doSliceEnd e en = d.setQueue n { d.queue n with state := 4 } := by
  subst hc hx hd
  simp only [Block.doSliceEnd, rounds, hserving, hover, hnext, hlow, hhigh, Nat.not_lt.mpr hend, Nat.not_le.mpr hhigh, decide_true,
    decide_false, Bool.and_self, Bool.or_self, Bool.false_eq_true, if_true, if_false]

end Rounds

section Plate
variable (hplate : en < 8)
include hplate

theorem Block.doSliceEnd_servesOn (h : c.rivals en q = [] ∨ x.suspended ≠ none) : b.doSliceEnd e en = c.serve e q := by
  subst hc hx
  have hon : (((b.wakeEngine e en).rivals en q).isEmpty || ((b.wakeEngine e en).engine en).suspended.isSome) = true := by
    simpa [Option.isSome_iff_ne_none] using h
  have hlater : ¬46 ≤ en := by omega
  simp only [Block.doSliceEnd, rounds, hserving, hover, hon, hlater, Nat.not_lt.mpr hend, Nat.not_le.mpr hplate, decide_false,
    Bool.false_and, Bool.or_self, Bool.false_eq_true, if_true, if_false]

theorem Block.doSliceEnd_drains (hrivals : c.rivals en q ≠ []) (hnone : x.suspended = none) (hpart : (c.queue q).part < 8) :
    b.doSliceEnd e en = (c.setEngine en { x with sliceOver := true }).requestDrainAll ⟨(c.queue q).part, hpart⟩ := by
  subst hc hx
  have hoff : (((b.wakeEngine e en).rivals en q).isEmpty || ((b.wakeEngine e en).engine en).suspended.isSome) = false := by
    simp [hrivals, hnone]
  have hlater : ¬46 ≤ en := by omega
  simp only [Block.doSliceEnd, rounds, hserving, hover, hoff, hlater, hpart, Nat.not_lt.mpr hend, Nat.not_le.mpr hplate, decide_false,
    Bool.false_and, Bool.or_self, Bool.false_eq_true, if_false, dif_pos]

end Plate

end Slice

end Sys2Proof.Machine

namespace Sys2Proof
open Machine

/-- Settles O40: a deadline and a hang by whether their moment has come; a slice end by what the engine serves once it has looked at
its queues again, and by the kind of engine. -/
theorem deadlinesAndSlices : Obligations.DeadlinesAndSlices := by
  unfold Obligations.DeadlinesAndSlices
  refine ⟨fun s s' q x hs hup hx => ⟨fun hnone => ?noDeadline, fun r hruns hfirst => ⟨fun hearly => ?early, fun hdue => ?expires⟩⟩,
    fun s s' p hs hup => ⟨fun hnone => ?noHang, fun t hdue hearly => ?hangEarly, fun t hdue hlate => ?hangs⟩,
    fun s s' en b x hs hup hb hx => ⟨fun hother => ?noSlice, fun q hserving hover hend =>
      ⟨fun hlow hhigh => ⟨fun hnext => ?alone, fun n hnext => ?turns⟩,
        fun hplate => ⟨fun hon => ?servesOn, fun hrivals hnone hpart => ?drains⟩⟩⟩⟩
  case noDeadline => rw [exec_deadlineExpiry_up hs hup, Block.doDeadline_none hx hnone]
  case early => rw [exec_deadlineExpiry_up hs hup, Block.doDeadline_early hx hruns hfirst hearly]
  case expires =>
    refine ⟨decide (8 ≤ x.part) || decide (46 ≤ x.engine), _, by simp, rfl, ?_⟩
    rw [exec_deadlineExpiry_up hs hup, Block.doDeadline_expires hx hruns hfirst hdue rfl]; rfl
  case noHang => rw [exec_hangEscalation_up hs hup, Block.doHang_none hnone]
  case hangEarly => rw [exec_hangEscalation_up hs hup, Block.doHang_early hdue hearly]
  case hangs => rw [exec_hangEscalation_up hs hup, Block.doHang_overdue hdue hlate]
  case noSlice => rw [exec_timeSliceEnd_up hs hup, Block.doSliceEnd_other hb hx hother]
  case alone => rw [exec_timeSliceEnd_up hs hup, Block.doSliceEnd_alone hb hx hserving hover hend hlow hhigh hnext]
  case turns =>
    exact ⟨_, _, rfl, rfl, by
      rw [exec_timeSliceEnd_up hs hup, Block.doSliceEnd_turns hb hx hserving hover hend hlow hhigh hnext rfl]⟩
  case servesOn => rw [exec_timeSliceEnd_up hs hup, Block.doSliceEnd_servesOn hb hx hserving hover hend hplate hon]
  case drains => rw [exec_timeSliceEnd_up hs hup, Block.doSliceEnd_drains hb hx hserving hover hend hplate hrivals hnone hpart]

end Sys2Proof
end

section
/-! PROOFS. Sync objects through the host's registers, and guard slots (R300, R322 to R325, R332, R336). -/
namespace Sys2Proof.Machine

/-! ## The commands on a module that takes register writes -/

section Commands
variable {s : State} (hup : s.Up) (f : Fin 9) (n : Fin 8192)
include hup

theorem exec_add_up (a : Fin (2 ^ 28)) : exec (.add f n a) s = .next { s with blk := s.blk.doAdd s.env f n a } :=
  congrArg Host.Outcome.next (s.onBlock_up _ hup)

theorem exec_release_up : exec (.release f n) s = .next { s with blk := s.blk.doRelease s.env f n } :=
  congrArg Host.Outcome.next (s.onBlock_up _ hup)

theorem exec_acquire_up : exec (.acquire f n) s = .next { s with blk := s.blk.doAcquire s.env f n } :=
  congrArg Host.Outcome.next (s.onBlock_up _ hup)

theorem exec_set_up (v : Fin (2 ^ 64)) : exec (.set f n v) s = .next { s with blk := s.blk.doSet s.env f n v } :=
  congrArg Host.Outcome.next (s.onBlock_up _ hup)

theorem exec_synCtlMode_up (m : Fin 4) : exec (.synCtlMode f n m) s = .next { s with blk := s.blk.doSynMode s.env f n m } :=
  congrArg Host.Outcome.next (s.onBlock_up _ hup)

theorem exec_guardSlotWrite_up (k : Fin 64) (base : Fin (2 ^ 48)) (part : Fin 16) (len : Fin (2 ^ 32)) (valid : Bool)
    (obj : Fin 8192) : exec (.guardSlotWrite f k base part len valid obj) s =
      .next { s with blk := s.blk.doGuardSlot s.env f k base part len valid obj } :=
  congrArg Host.Outcome.next (s.onBlock_up _ hup)

end Commands

/-! ## Reading objects -/

@[simp] theorem Block.obj_setObj_self (b : Block) (n : Nat) (o : SyncObj) : (b.setObj n o).obj n = o := mget_mset_self _ _ _ _

/-- A record of the sync unit touches no object. -/
theorem Block.syncEvent_obj (b : Block) (e : Env) (code id part obj : Nat) (more : List (Nat × Nat × Nat)) (n : Nat) :
    (b.syncEvent e code id part obj more).obj n = b.obj n := by
  unfold Block.syncEvent
  extract_lets key
  split
  · rfl
  · rw [Block.obj, (post_reports _ _ _).syn_eq, Block.obj]

/-! ## Operations of a requester that may reach the object (R322 to R324) -/

section Reach
variable {b : Block} {e : Env} {id part n : Nat} {o : SyncObj} (ho : o = b.obj n) (hreach : o.reach part = true)
include ho hreach

section Counter
variable (hmode : o.mode = 0)
include hmode

theorem Block.syncAdd_counter (amount : Nat) :
    b.syncAdd e id part n amount = b.setObj n { o with val := (o.val + amount) % 2 ^ 64 } := by
  subst ho
  simp only [Block.syncAdd, hreach, hmode, Bool.not_true, Bool.false_eq_true, ne_eq, not_true_eq_false, if_false]

theorem Block.syncSet_counter {v : Nat} (hv : v < 2 ^ 64) : b.syncSet e id part n v = b.setObj n { o with val := v } := by
  subst ho
  simp only [Block.syncSet, hreach, hmode, Nat.mod_eq_of_lt hv, Bool.not_true, Bool.false_eq_true, ne_eq, not_true_eq_false, if_false]

theorem Block.syncRelease_counter : b.syncRelease e id part n = b.syncRefuse e id part n 1 := by
  subst ho
  simp only [Block.syncRelease, hreach, hmode, Bool.not_true, Bool.false_eq_true, if_false, if_true]

end Counter

section Lock
variable (hmode : o.mode ≠ 0)
include hmode

theorem Block.syncAdd_lock (amount : Nat) : b.syncAdd e id part n amount = b.syncRefuse e id part n 1 := by
  subst ho
  simp only [Block.syncAdd, hreach, hmode, Bool.not_true, Bool.false_eq_true, ne_eq, not_false_eq_true, if_false, if_true]

theorem Block.syncSet_lock (v : Nat) : b.syncSet e id part n v = b.syncRefuse e id part n 1 := by
  subst ho
  simp only [Block.syncSet, hreach, hmode, Bool.not_true, Bool.false_eq_true, ne_eq, not_false_eq_true, if_false, if_true]

theorem Block.syncAcquire_held (h : o.state = 1) : b.syncAcquire e id part n = (b, .busy) := by
  subst ho
  simp only [Block.syncAcquire, hreach, hmode, h, Bool.not_true, Bool.false_eq_true, if_false, if_true]

variable {c : Block} (hc : c = b.setObj n { o with state := 1, holder := id, holderPart := part })
include hc in
theorem Block.syncAcquire_orphan (h : o.state = 2) : b.syncAcquire e id part n = (c.syncEvent e 3 id part n [], .orphan) := by
  subst ho hc
  simp only [Block.syncAcquire, hreach, hmode, h, Bool.not_true, Bool.false_eq_true, OfNat.ofNat_ne_one, if_false, if_true]

include hc in
theorem Block.syncAcquire_free (h1 : o.state ≠ 1) (h2 : o.state ≠ 2) : b.syncAcquire e id part n = (c, .granted) := by
  subst ho hc
  simp only [Block.syncAcquire, hreach, hmode, h1, h2, Bool.not_true, Bool.false_eq_true, if_false]

theorem Block.syncRelease_foreign (h : ¬(o.state = 1 ∧ o.holder = id ∧ o.holderPart = part)) :
    b.syncRelease e id part n = b.syncRefuse e id part n 3 := by
  subst ho
  have hforeign : (decide ((b.obj n).state = 1) && decide ((b.obj n).holder = id) && decide ((b.obj n).holderPart = part)) = false :=
    Bool.eq_false_iff.mpr fun hheld => h (by simpa [and_assoc] using hheld)
  simp only [Block.syncRelease, hreach, hmode, hforeign, Bool.not_true, Bool.not_false, Bool.false_eq_true, if_false, if_true]

variable {d : Block} (hd : d = b.setObj n { o with state := 0, holder := 0, holderPart := 0 }) (hstate : o.state = 1)
  (hholder : o.holder = id) (hpart : o.holderPart = part)
include hd hstate hholder hpart

theorem Block.syncRelease_plain (h : o.mode ≠ 2 ∨ d.slotOf n = none) : b.syncRelease e id part n = d := by
  subst ho hd
  simp only [Block.syncRelease, hreach, hmode, hstate, hholder, hpart, decide_true, Bool.and_self, Bool.not_true, Bool.false_eq_true,
    if_false]
  obtain hmode2 | hslot := h
  · rw [if_neg hmode2]
  · rw [hslot, ite_self]

theorem Block.syncRelease_publishes (h : o.mode = 2) {k : Nat} (hslot : d.slotOf n = some k) :
    b.syncRelease e id part n = d.publish e k := by
  subst ho hd
  simp only [Block.syncRelease, hreach, hmode, hstate, hholder, hpart, decide_true, Bool.and_self, Bool.not_true, Bool.false_eq_true,
    if_false]
  rw [if_pos h, hslot]

end Lock

/-! ## Writes of MODE (R322) -/

section Mode
variable {mode : Nat}

theorem Block.syncMode_reserved (h : mode = 3) : b.syncMode e id part n mode = b.syncRefuse e id part n 4 := by
  subst ho
  simp only [Block.syncMode, hreach, h, Bool.not_true, Bool.false_eq_true, if_false, if_true]

variable (hvalid : mode ≠ 3)
include hvalid

theorem Block.syncMode_same (h : mode = o.mode) : b.syncMode e id part n mode = b := by
  subst ho
  simp only [Block.syncMode, hreach, hvalid, h.symm, Bool.not_true, Bool.false_eq_true, if_false, if_true]

variable (hnew : mode ≠ o.mode)
include hnew

theorem Block.syncMode_locked (hmode : o.mode ≠ 0) (hstate : o.state ≠ 0) :
    b.syncMode e id part n mode = b.syncRefuse e id part n 4 := by
  subst ho
  simp only [Block.syncMode, hreach, hvalid, hnew, hmode, hstate, Bool.not_true, Bool.false_eq_true, ne_eq, not_false_eq_true,
    decide_true, Bool.and_self, if_false, if_true]

variable (hfree : o.mode = 0 ∨ o.state = 0)
include hfree

theorem Block.syncMode_free : b.syncMode e id part n mode =
    if mode = 2 ∧ b.slotOf n = none then b.syncRefuse e id part n 2
    else b.setObj n { o with mode := mode, val := 0, state := 0, holder := 0, holderPart := 0 } := by
  subst ho
  have hunlocked : ((b.obj n).mode ≠ 0 && (b.obj n).state ≠ 0) = false := by
    obtain h | h := hfree
    · simp [h]
    · simp [h]
  simp only [Block.syncMode, hreach, hvalid, hnew, hunlocked, Bool.not_true, Bool.false_eq_true, if_false, Bool.and_eq_true,
    decide_eq_true_eq, Option.isNone_iff_eq_none]

end Mode

end Reach

/-! ## The host's registers (R300, R336) -/

section Registers
variable {b : Block} {e : Env} {f n : Nat} (hbar : b.barUp = true)
include hbar

theorem Block.reachesObj_up : b.reachesObj f n = (b.obj n).reach (funcPart f) := by
  rw [Block.reachesObj, hbar, Bool.true_and]

section Foreign
variable (hreach : (b.obj n).reach (funcPart f) = false)
include hreach

theorem Block.doAdd_foreign (amount : Nat) : b.doAdd e f n amount = b := by
  simp only [Block.doAdd, Block.reachesObj_up hbar, hreach, Bool.not_false, if_true]

theorem Block.doRelease_foreign : b.doRelease e f n = b := by
  simp only [Block.doRelease, Block.reachesObj_up hbar, hreach, Bool.false_eq_true, if_false]

theorem Block.doSet_foreign (v : Nat) : b.doSet e f n v = b := by
  simp only [Block.doSet, Block.reachesObj_up hbar, hreach, Bool.false_eq_true, if_false]

theorem Block.doSynMode_foreign (mode : Nat) : b.doSynMode e f n mode = b := by
  simp only [Block.doSynMode, Block.reachesObj_up hbar, hreach, Bool.false_eq_true, if_false]

end Foreign

/-- A read of SYN_OP has no effect on an object that the function may not operate on, and none on a counter. -/
theorem Block.doAcquire_zero (h : (b.obj n).reach (funcPart f) = false ∨ (b.obj n).mode = 0) :
    b.doAcquire e f n = b.emit (.completion f (zeros 4) false) := by
  have hzero : (!b.reachesObj f n || (b.obj n).mode = 0) = true := by
    simpa [Block.reachesObj_up hbar] using h
  simp only [Block.doAcquire, hbar, hzero, Block.answerRead, Bool.not_true, Bool.false_eq_true, if_false, if_true]

variable (hreach : (b.obj n).reach (funcPart f) = true)
include hreach

theorem Block.doAdd_zero : b.doAdd e f n 0 = b.bumpSyn 0 1 := by
  simp only [Block.doAdd, Block.reachesObj_up hbar, hreach, Bool.not_true, Bool.false_eq_true, if_false, if_true]

theorem Block.doAdd_adds {amount : Nat} (h : amount ≠ 0) :
    b.doAdd e f n amount = b.syncAdd e (funcReq f) (funcPart f) n amount := by
  simp only [Block.doAdd, Block.reachesObj_up hbar, hreach, h, Bool.not_true, Bool.false_eq_true, if_false]

theorem Block.doRelease_reached : b.doRelease e f n = b.syncRelease e (funcReq f) (funcPart f) n := by
  simp only [Block.doRelease, Block.reachesObj_up hbar, hreach, if_true]

theorem Block.doSet_reached (v : Nat) : b.doSet e f n v = b.syncSet e (funcReq f) (funcPart f) n v := by
  simp only [Block.doSet, Block.reachesObj_up hbar, hreach, if_true]

theorem Block.doSynMode_reached (mode : Nat) : b.doSynMode e f n mode = b.syncMode e (funcReq f) (funcPart f) n mode := by
  simp only [Block.doSynMode, Block.reachesObj_up hbar, hreach, if_true]

theorem Block.doAcquire_lock (hmode : (b.obj n).mode ≠ 0) {c : Block} {r : Acquired}
    (h : b.syncAcquire e (funcReq f) (funcPart f) n = (c, r)) :
    b.doAcquire e f n = c.emit (.completion f (leBytes 4 (c.synOpWord n r)) false) := by
  simp only [Block.doAcquire, hbar, Block.reachesObj_up hbar, hreach, hmode, h, Block.answerRead, Bool.not_true, decide_false,
    Bool.or_self, Bool.false_eq_true, if_false]

end Registers

/-! ## Guard slots (R325) -/

section Slots
variable {b : Block} {e : Env} {f k base part len obj : Nat} {valid : Bool} (hbar : b.barUp = true)
include hbar

theorem Block.doGuardSlot_foreign (hf : f ≠ 0) (hpart : (b.slot k).part ≠ funcPart f) :
    b.doGuardSlot e f k base part len valid obj = b := by
  simp only [Block.doGuardSlot, hbar, hf, hpart, Bool.not_true, ne_eq, not_false_eq_true, decide_true, Bool.and_self, Bool.false_or,
    if_true]

theorem Block.doGuardSlot_own (hown : f = 0 ∨ (b.slot k).part = funcPart f) {x : Slot}
    (hx : x = { base := base, part := if f = 0 then part else (b.slot k).part, len := len, valid := valid, obj := obj }) :
    b.doGuardSlot e f k base part len valid obj =
      if b.slotOk (funcPart f) k x = true then b.setSlot k { x with staged := (b.slot k).staged }
      else b.syncRefuse e (funcReq f) (funcPart f) obj 5 := by
  subst hx
  have hreached : (!b.barUp || (f ≠ 0 && (b.slot k).part ≠ funcPart f)) = false := by
    obtain h | h := hown
    · simp [hbar, h]
    · simp [hbar, h]
  simp only [Block.doGuardSlot, hreached, Bool.false_eq_true, if_false]
  rfl

end Slots

end Sys2Proof.Machine

namespace Sys2Proof
open Machine

/-- Settles O41: each register of an object by whether the function reaches it, by the object's mode and by the lock's state; a slot
by who owns it and whether its new contents keep the rules. -/
theorem syncObjectsUpdate : Obligations.SyncObjectsUpdate := by
  unfold Obligations.SyncObjectsUpdate
  refine ⟨fun s f n a v m ⟨hup, hbar⟩ hforeign => ⟨?foreign, ?foreignRead⟩,
    fun s f n a v o ⟨hup, hbar⟩ ho hreach => ⟨fun hzero => ?addZero,
      fun hmode => ⟨fun hamount => ?counterAdd, ?counterSet, ?counterRelease, ?counterRead⟩,
      fun hmode => ⟨fun hamount => ?lockAdd, ?lockSet, fun hheld => ?busy, fun h1 h2 => ?granted, fun horphan => ?orphan,
        fun hother => ?otherRelease,
        fun hstate hholder hpart => ⟨_, rfl, fun hplain => ?plainRelease, fun hseq k hslot => ?publishes⟩⟩,
      fun m => ⟨fun h3 => ?reserved, fun h3 hsame => ?same, fun h3 hnew hmode hstate => ?locked,
        fun h3 hnew hfree => ⟨fun h2 hslot => ?noSlot, fun hok => ?changes⟩⟩⟩,
    fun s f k base part len valid obj x ⟨hup, hbar⟩ hx => ⟨fun hf hpart => ?foreignSlot,
      fun hown => ⟨fun hrules => ?slot, fun hrules => ?badSlot⟩⟩⟩
  case foreign =>
    simp only [List.forall_mem_cons, List.not_mem_nil, false_implies, implies_true, and_true]
    refine ⟨?_, ?_, ?_, ?_⟩
    · rw [exec_add_up hup, Block.doAdd_foreign hbar hforeign]
    · rw [exec_release_up hup, Block.doRelease_foreign hbar hforeign]
    · rw [exec_set_up hup, Block.doSet_foreign hbar hforeign]
    · rw [exec_synCtlMode_up hup, Block.doSynMode_foreign hbar hforeign]
  case foreignRead => rw [exec_acquire_up hup, Block.doAcquire_zero hbar (.inl hforeign)]
  case foreignSlot => rw [exec_guardSlotWrite_up hup, Block.doGuardSlot_foreign hbar hf hpart]
  case slot => rw [exec_guardSlotWrite_up hup, Block.doGuardSlot_own hbar hown hx, if_pos hrules]
  case badSlot => rw [exec_guardSlotWrite_up hup, Block.doGuardSlot_own hbar hown hx, if_neg (Bool.eq_false_iff.mp hrules)]
  all_goals have hobj : (s.blk.obj n).reach (funcPart f) = true := ho ▸ hreach
  case addZero => rw [exec_add_up hup, hzero, Block.doAdd_zero hbar hobj]
  case counterAdd => rw [exec_add_up hup, Block.doAdd_adds hbar hobj hamount, Block.syncAdd_counter ho hreach hmode]
  case counterSet => rw [exec_set_up hup, Block.doSet_reached hbar hobj, Block.syncSet_counter ho hreach hmode v.isLt]
  case counterRelease => rw [exec_release_up hup, Block.doRelease_reached hbar hobj, Block.syncRelease_counter ho hreach hmode]
  case counterRead => rw [exec_acquire_up hup, Block.doAcquire_zero hbar (.inr (ho ▸ hmode))]
  case lockAdd => rw [exec_add_up hup, Block.doAdd_adds hbar hobj hamount, Block.syncAdd_lock ho hreach hmode]
  case lockSet => rw [exec_set_up hup, Block.doSet_reached hbar hobj, Block.syncSet_lock ho hreach hmode]
  case busy =>
    rw [exec_acquire_up hup, Block.doAcquire_lock hbar hobj (ho ▸ hmode) (Block.syncAcquire_held ho hreach hmode hheld),
      Block.synOpWord, ← ho]
  case granted =>
    rw [exec_acquire_up hup, Block.doAcquire_lock hbar hobj (ho ▸ hmode) (Block.syncAcquire_free ho hreach hmode rfl h1 h2),
      Block.synOpWord, Block.obj_setObj_self]
  case orphan =>
    have hheld := (Block.syncEvent_obj (s.blk.setObj n { o with state := 1, holder := funcReq f, holderPart := funcPart f }) s.env 3
      (funcReq f) (funcPart f) n [] n).trans (Block.obj_setObj_self _ _ _)
    refine ⟨_, rfl, hheld, ?_⟩
    rw [exec_acquire_up hup, Block.doAcquire_lock hbar hobj (ho ▸ hmode) (Block.syncAcquire_orphan ho hreach hmode rfl horphan),
      Block.synOpWord, hheld]
  case otherRelease => rw [exec_release_up hup, Block.doRelease_reached hbar hobj, Block.syncRelease_foreign ho hreach hmode hother]
  case plainRelease =>
    rw [exec_release_up hup, Block.doRelease_reached hbar hobj,
      Block.syncRelease_plain ho hreach hmode rfl hstate hholder hpart hplain]
  case publishes =>
    rw [exec_release_up hup, Block.doRelease_reached hbar hobj,
      Block.syncRelease_publishes ho hreach hmode rfl hstate hholder hpart hseq hslot]
  case reserved => rw [exec_synCtlMode_up hup, Block.doSynMode_reached hbar hobj, Block.syncMode_reserved ho hreach h3]
  case same => rw [exec_synCtlMode_up hup, Block.doSynMode_reached hbar hobj, Block.syncMode_same ho hreach h3 hsame]
  case locked =>
    rw [exec_synCtlMode_up hup, Block.doSynMode_reached hbar hobj, Block.syncMode_locked ho hreach h3 hnew hmode hstate]
  case noSlot =>
    rw [exec_synCtlMode_up hup, Block.doSynMode_reached hbar hobj, Block.syncMode_free ho hreach h3 hnew hfree, if_pos ⟨h2, hslot⟩]
  case changes =>
    rw [exec_synCtlMode_up hup, Block.doSynMode_reached hbar hobj, Block.syncMode_free ho hreach h3 hnew hfree,
      if_neg fun h => hok.elim (· h.1) (· h.2)]

end Sys2Proof
end

section
/-! PROOFS. Event rings: the consumer's count, control, and moderated interrupts (R328 to R330, R333, R339). -/
namespace Sys2Proof.Machine

/-! ## The commands on a running module -/

section Commands
variable {s s' : State} (f : Fin 9) (k : Fin 36)

theorem exec_evtCons_up (hup : s.Up) (v : Fin (2 ^ 32)) :
    exec (.evtCons f k v) s = .next { s with blk := s.blk.doEvtCons s.env f k v } :=
  congrArg Host.Outcome.next (s.onBlock_up _ hup)

theorem exec_evtCtl_up (hup : s.Up) (enable mirror : Bool) (size : Fin 16) (minsev : Fin 4) (vector : Fin 128) :
    exec (.evtCtl f k enable mirror size minsev vector) s =
      .next { s with blk := s.blk.doEvtCtl s.env f k enable mirror size minsev vector } :=
  congrArg Host.Outcome.next (s.onBlock_up _ hup)

theorem exec_msixModerationExpiry_up (hs : s' = s.eventAt (s.blk.modDue k)) (hup : s'.Up) :
    exec (.msixModerationExpiry k) s = .next { s' with blk := s'.blk.doModeration s'.env k } := by
  subst hs
  exact congrArg Host.Outcome.next (State.onBlock_up _ _ hup)

end Commands

/-! ## Rings and the sequence count under each report -/

section Rings
variable (b : Block) (e : Env) (k : Nat)

@[simp] theorem Block.ring_setRing (r : Ring) : mget ({} : Ring) (b.setRing k r).evt.rings k = r := mget_mset_self _ _ _ _

theorem Block.setRing_reports (r : Ring) : Reports b (b.setRing k r) := rfl

@[simp] theorem Block.viaPort_evt (portB : Bool) : (b.viaPort portB).evt = b.evt := by
  unfold Block.viaPort
  extract_lets own other
  split <;> rfl

@[simp] theorem Block.fireMsix_rings (func vec : Nat) : (b.fireMsix func vec).evt.rings = b.evt.rings := by
  unfold Block.fireMsix
  extract_lets v
  split
  · rfl
  · exact congrArg EventUnit.rings (b.viaPort_evt false)

@[simp] theorem Block.fireMsix_seq (func vec : Nat) : (b.fireMsix func vec).evt.seq = b.evt.seq := by
  unfold Block.fireMsix
  extract_lets v
  split
  · rfl
  · exact congrArg EventUnit.seq (b.viaPort_evt false)

/-- A vector that is masked in its MSI-X entry waits in the PBA. -/
theorem Block.fireMsix_masked {func vec : Nat} (h : (mget ({} : Msix) b.evt.msix (msixKey func vec)).masked = true) :
    (mget ({} : Msix) (b.fireMsix func vec).evt.msix (msixKey func vec)).pending = true := by
  simp only [Block.fireMsix, h, if_true, mget_mset_self]

/-- A record that is written moves PROD, and PHASE where PROD wraps. -/
theorem Block.putRecord_ring (bs : List Byte) {r : Ring} (hr : r = mget {} b.evt.rings k) :
    ∃ phase, mget ({} : Ring) (b.putRecord k bs).evt.rings k = { r with prod := (r.prod + 1) % 2 ^ 32, phase := phase } := by
  subst hr
  unfold Block.putRecord
  extract_lets r bytes last r' unit written
  refine ⟨_, Eq.trans ?_ (mget_mset_self ({} : Ring) b.evt.rings k r')⟩
  show mget ({} : Ring) (written.viaPort false).evt.rings k = mget {} written.evt.rings k
  rw [Block.viaPort_evt]

theorem Block.putRecord_seq (bs : List Byte) : (b.putRecord k bs).evt.seq = b.evt.seq := by
  unfold Block.putRecord
  extract_lets r bytes last r' unit written
  show (written.viaPort false).evt.seq = written.evt.seq
  rw [Block.viaPort_evt]

/-- A ring's interrupt changes its moderation only. -/
theorem Block.ringIrq_ring (sev : Nat) {r : Ring} (hr : r = mget {} b.evt.rings k) : ∃ fireAt firePending,
    mget ({} : Ring) (b.ringIrq e k sev).evt.rings k = { r with fireAt := fireAt, firePending := firePending } := by
  subst hr
  unfold Block.ringIrq
  extract_lets r
  split
  · exact ⟨_, _, by rw [Block.fireMsix_rings, mget_mset_self]⟩
  · exact ⟨_, _, mget_mset_self _ _ _ _⟩

theorem Block.ringIrq_seq (sev : Nat) : (b.ringIrq e k sev).evt.seq = b.evt.seq := by
  unfold Block.ringIrq
  extract_lets r
  split
  · rw [Block.fireMsix_seq]
  · rfl

end Rings

/-! ## GAP records (R330, R333) -/

section Gap
variable {b : Block} {e : Env} {k : Nat}

theorem Block.gapRecord_reports : Reports b (b.gapRecord e k) := by
  unfold Block.gapRecord
  extract_lets r part seq ev unit numbered
  split
  · exact .refl b
  · exact ((Reports.evt _ _).trans (putRecord_reports _ _ _)).trans (ringIrq_reports _ _ _ _)

variable {r : Ring} (hr : r = mget {} b.evt.rings k)
include hr

theorem Block.gapRecord_none (h : r.gapCount = 0 ∨ (r.prod + 2 ^ 32 - r.cons) % 2 ^ 32 = r.cap) : b.gapRecord e k = b := by
  subst hr
  exact if_pos (by simpa only [Bool.or_eq_true, decide_eq_true_eq] using h)

variable (hgap : r.gapCount ≠ 0) (hspace : (r.prod + 2 ^ 32 - r.cons) % 2 ^ 32 ≠ r.cap)
include hgap hspace

/-- The GAP record is numbered, takes one entry of the ring, and starts the count of dropped records at 0. -/
theorem Block.gapRecord_writes : (b.gapRecord e k).evt.seq = (b.evt.seq + 1) % 2 ^ 64 ∧ ∃ phase fireAt firePending,
    mget ({} : Ring) (b.gapRecord e k).evt.rings k = { r with
      gapCount := 0, prod := (r.prod + 1) % 2 ^ 32, phase := phase, fireAt := fireAt, firePending := firePending } := by
  subst hr
  unfold Block.gapRecord
  extract_lets r part seq ev unit numbered
  rw [if_neg (by simpa only [Bool.or_eq_true, decide_eq_true_eq, not_or] using ⟨hgap, hspace⟩)]
  have hnumbered : { r with gapCount := 0 } = mget ({} : Ring) numbered.evt.rings k := (mget_mset_self _ _ _ _).symm
  obtain ⟨phase, hput⟩ := numbered.putRecord_ring k (ev.bytes e.stamp seq) hnumbered
  obtain ⟨fireAt, firePending, hirq⟩ := (numbered.putRecord k (ev.bytes e.stamp seq)).ringIrq_ring e k 1 hput.symm
  refine ⟨?_, phase, fireAt, firePending, hirq⟩
  rw [Block.ringIrq_seq, Block.putRecord_seq]

end Gap

/-! ## EVT_CONS (R330) -/

section Cons
variable {b : Block} {e : Env} {f k v : Nat} {r : Ring} (hv : v < 2 ^ 32) (hr : r = mget {} b.evt.rings k)
include hv hr

theorem Block.doEvtCons_ignored
    (h : b.reachesRing f k = false ∨ (r.prod + 2 ^ 32 - r.cons) % 2 ^ 32 < (r.prod + 2 ^ 32 - v) % 2 ^ 32) :
    b.doEvtCons e f k v = b := by
  subst hr
  refine if_pos ?_
  simpa only [Nat.mod_eq_of_lt hv, Bool.or_eq_true, Bool.not_eq_true', decide_eq_true_eq] using h

theorem Block.doEvtCons_taken (hreach : b.reachesRing f k = true)
    (h : (r.prod + 2 ^ 32 - v) % 2 ^ 32 ≤ (r.prod + 2 ^ 32 - r.cons) % 2 ^ 32) :
    b.doEvtCons e f k v = (b.setRing k { r with cons := v }).gapRecord e k := by
  subst hr
  simp only [Block.doEvtCons, Nat.mod_eq_of_lt hv, hreach, Nat.not_lt.mpr h, Bool.not_true, decide_false, Bool.or_self,
    Bool.false_eq_true, if_false]

end Cons

/-! ## EVT_CTL (R329, R339) -/

section Control
variable {b : Block} {e : Env} {f k size minsev vector : Nat} {enable mirror : Bool}

theorem Block.doEvtCtl_unreached (h : b.reachesRing f k = false) : b.doEvtCtl e f k enable mirror size minsev vector = b := by
  simp only [Block.doEvtCtl, h, Bool.not_false, if_true]

variable (hreach : b.reachesRing f k = true) (hminsev : minsev < 4) (hvector : vector < 128) {r x : Ring}
  (hr : r = mget {} b.evt.rings k)
  (hx : x = { r with enable := enable, mirror := if f = 0 ∧ k < 4 then mirror else r.mirror, size := min 10 size, minsev := minsev
                     vector := vector })
include hreach hminsev hvector hr hx

theorem Block.doEvtCtl_continues (h : enable = false ∨ r.enable = true) :
    b.doEvtCtl e f k enable mirror size minsev vector = b.setRing k x := by
  subst hr hx
  have hstarts : (enable && !(mget ({} : Ring) b.evt.rings k).enable) = false := by
    obtain h | h := h
    · simp [h]
    · simp [h]
  simp [Block.doEvtCtl, hreach, hstarts, Nat.mod_eq_of_lt hminsev, Nat.mod_eq_of_lt hvector]

theorem Block.doEvtCtl_starts (hon : enable = true) (hoff : r.enable = false) {c : Block}
    (hc : c = b.setRing k { x with prod := 0, cons := 0, phase := true, gapCount := 0 }) :
    b.doEvtCtl e f k enable mirror size minsev vector =
      if k < 4 ∧ b.evt.pf0Enabled = false then c.giveBootLog e k else c := by
  subst hr hx hc
  simp [Block.doEvtCtl, hreach, hon, hoff, Nat.mod_eq_of_lt hminsev, Nat.mod_eq_of_lt hvector]

end Control

/-! ## Moderation (R330) -/

section Moderation
variable {b : Block} {e : Env} {k : Nat} {r : Ring} (hr : r = mget {} b.evt.rings k)
include hr

theorem Block.doModeration_waits (h : r.firePending = false ∨ e.clk.now < r.fireAt) : b.doModeration e k = b := by
  subst hr
  exact if_pos (by simpa only [Bool.or_eq_true, Bool.not_eq_true', decide_eq_true_eq] using h)

theorem Block.doModeration_fires (hpending : r.firePending = true) (hdue : r.fireAt ≤ e.clk.now) : b.doModeration e k =
    (b.setRing k { r with firePending := false, fireAt := e.clk.now + r.mod }).fireMsix (k / 4) r.vector := by
  subst hr
  simp only [Block.doModeration, hpending, Nat.not_lt.mpr hdue, Bool.not_true, decide_false, Bool.or_self, Bool.false_eq_true, if_false]

end Moderation

end Sys2Proof.Machine

namespace Sys2Proof
open Machine

/-- Settles O42: EVT_CONS by its range, and what a GAP record leaves in the ring (`Block.gapRecord_writes`); EVT_CTL by whether it
starts the ring; a moderated vector by whether it is due. -/
theorem eventRingsTurn : Obligations.EventRingsTurn := by
  unfold Obligations.EventRingsTurn
  refine ⟨fun s f k v r hup hr => ⟨fun hignored => ?ignored, fun hreach hrange => ?taken⟩,
    fun s f k enable mirror size minsev vector r x hup hr hx => ⟨fun hunreached => ?unreached,
      fun hreach => ⟨fun hcontinues => ?continues, fun hon hoff => ⟨_, rfl, fun hlog => ?starts, fun hfirst hnone => ?bootLog⟩⟩⟩,
    fun s s' k r hs hup hr => ⟨fun hwaits => ?waits, fun hpending hdue => ⟨_, rfl, ?fires, Block.fireMsix_masked _⟩⟩⟩
  case ignored => rw [exec_evtCons_up f k hup, Block.doEvtCons_ignored v.isLt hr hignored]
  case taken =>
    obtain ⟨x, hx⟩ : ∃ x : Ring, x = { r with cons := v.val } := ⟨_, rfl⟩
    have hring : x = mget ({} : Ring) (s.blk.setRing k x).evt.rings k := (s.blk.ring_setRing k x).symm
    refine ⟨_, exec_evtCons_up f k hup v, rfl, ?_⟩
    dsimp only
    rw [Block.doEvtCons_taken v.isLt hr hreach hrange, ← hx]
    by_cases hnone : x.gapCount = 0 ∨ (x.prod + 2 ^ 32 - x.cons) % 2 ^ 32 = x.cap
    · rw [Block.gapRecord_none hring hnone, ← hring]
      subst hx
      exact ⟨rfl, rfl, fun _ => rfl, fun hgap hspace => (hnone.elim hgap hspace).elim⟩
    · obtain ⟨hgap, hspace⟩ := not_or.mp hnone
      obtain ⟨hseq, phase, fireAt, firePending, hwritten⟩ := Block.gapRecord_writes (e := s.env) hring hgap hspace
      rw [hwritten]
      subst hx
      exact ⟨(Block.setRing_reports _ _ _).trans Block.gapRecord_reports, rfl, fun h => absurd h hnone, fun _ _ => ⟨rfl, rfl, hseq⟩⟩
  case unreached => rw [exec_evtCtl_up f k hup, Block.doEvtCtl_unreached hunreached]
  case continues =>
    rw [exec_evtCtl_up f k hup, Block.doEvtCtl_continues hreach minsev.isLt vector.isLt hr hx hcontinues]
  case starts =>
    rw [exec_evtCtl_up f k hup, Block.doEvtCtl_starts hreach minsev.isLt vector.isLt hr hx hon hoff rfl, if_neg]
    rintro ⟨hpf0, hnone⟩
    exact hlog.elim (Nat.not_le.mpr hpf0) (by simp [hnone])
  case bootLog =>
    rw [exec_evtCtl_up f k hup, Block.doEvtCtl_starts hreach minsev.isLt vector.isLt hr hx hon hoff rfl, if_pos ⟨hfirst, hnone⟩]
  case waits => rw [exec_msixModerationExpiry_up k hs hup, Block.doModeration_waits hr hwaits]
  case fires =>
    rw [exec_msixModerationExpiry_up k hs hup, Block.doModeration_fires hr hpending hdue]
    rfl

end Sys2Proof
end

section
/-! PROOFS. Partition layouts, function-level resets, apertures, failed host reads and PCIe links (R299 to R303, R339). -/
namespace Sys2Proof.Machine

/-! ## The commands on a running module -/

section Commands
variable {s : State} (hup : s.Up)
include hup

theorem exec_fePart_up (f : Fin 9) (i : Fin 8) (valid : Bool) (first : Fin 16) (size : Fin 4) {r : Part}
    (hr : r = { valid := valid, first := first, size := size }) :
    exec (.fePart f i valid first size) s = .next { s with blk := s.blk.doFePart s.env f i r } := by
  subst hr
  exact congrArg Host.Outcome.next (s.onBlock_up _ hup)

theorem exec_flrVf_up (i : Fin 8) : exec (.flrVf i) s = .next { s with blk := s.blk.resetWithFault s.env i 5 } :=
  congrArg Host.Outcome.next (s.onBlock_up _ hup)

theorem exec_flrPf0_up : exec .flrPf0 s = .next { s with blk := s.blk.askRetained s.env 1 } :=
  congrArg Host.Outcome.next (s.onBlock_up _ hup)

theorem exec_apertureRead_up (f : Fin 9) (off : Fin (2 ^ 36)) (n : Fin 4097) :
    exec (.apertureRead f off n) s = .next { s with blk := s.blk.doApertureRead s.env f off n } :=
  congrArg Host.Outcome.next (s.onBlock_up _ hup)

theorem exec_apertureWrite_up (f : Fin 9) (off : Fin (2 ^ 36)) (bs : List Byte) (ep : Bool) :
    exec (.apertureWrite f off bs ep) s = .next { s with blk := s.blk.doApertureWrite s.env f off bs ep } :=
  congrArg Host.Outcome.next (s.onBlock_up _ hup)

theorem exec_hostReadError_up (q : Fin 256) (kind : Fin 4) (a : Fin (2 ^ 64)) (n : Nat) :
    exec (.hostReadError q kind a n) s = .next { s with blk := s.blk.doHostReadError s.env q kind a n } :=
  congrArg Host.Outcome.next (s.onBlock_up _ hup)

theorem exec_pcieLinkDown_up (portB : Bool) : exec (.pcieLinkDown portB) s = .next { s with blk := s.blk.setPcie portB false } :=
  congrArg Host.Outcome.next (s.onBlock_up _ hup)

theorem exec_perstN_up (portB : Bool) : exec (.perstN portB) s = .next { s with blk := s.blk.setPcie portB true } :=
  congrArg Host.Outcome.next (s.onBlock_up _ hup)

end Commands

/-! ## Partition layouts (R303) -/

section Layout
variable {b : Block} {e : Env} {f i : Nat} {r : Part}

theorem Block.doFePart_ignored (h : b.barUp = false ∨ f ≠ 0) : b.doFePart e f i r = b :=
  if_pos (by simpa using h)

variable (hbar : b.barUp = true) (hf : f = 0)
include hbar hf

theorem Block.doFePart_refused (h : b.holdsJob i = true ∨ b.commandActive i = true ∨ b.partOverlaps i r = true ∨
    (r.valid = true ∧ (r.first % 2 ^ r.size ≠ 0 ∨ 8 < r.first + 2 ^ r.size))) : b.doFePart e f i r = b.bumpFe 0x830 1 := by
  have hbad : (b.holdsJob i || b.commandActive i || b.partOverlaps i r ||
      (r.valid && (r.first % 2 ^ r.size ≠ 0 || 8 < r.first + 2 ^ r.size))) = true := by
    simpa [or_assoc] using h
  simp only [Block.doFePart, hbar, hf, hbad, ne_eq, not_true_eq_false, decide_false, Bool.not_true, Bool.or_self, Bool.false_eq_true,
    if_false, if_true, Block.bindRefused]

variable (hjob : b.holdsJob i = false) (hactive : b.commandActive i = false) (hoverlap : b.partOverlaps i r = false)
  (haligned : r.valid = false ∨ (r.first % 2 ^ r.size = 0 ∧ r.first + 2 ^ r.size ≤ 8))
include hjob hactive hoverlap haligned

theorem Block.doFePart_allowed : b.doFePart e f i r =
    if mget ({} : Part) b.fe.parts i = r then b
    else ({ b with fe := { b.fe with parts := mset {} b.fe.parts i r } } : Block).partitionReset e i 6 := by
  have hgood : (r.valid && (r.first % 2 ^ r.size ≠ 0 || 8 < r.first + 2 ^ r.size)) = false := by
    obtain hinvalid | ⟨hmod, hend⟩ := haligned
    · simp [hinvalid]
    · simp [hmod, hend]
  simp only [Block.doFePart, hbar, hf, hjob, hactive, hoverlap, hgood, ne_eq, not_true_eq_false, decide_false, Bool.not_true,
    Bool.or_self, Bool.false_eq_true, if_false]

end Layout

/-! ## Function-level resets (R302, R339) -/

section Reset
variable {b : Block} {e : Env}

theorem Block.resetWithFault_retained {p trigger : Nat} (h : b.clk.ret ≠ none) : b.resetWithFault e p trigger = b :=
  if_pos (Option.isSome_iff_ne_none.mpr h)

theorem Block.resetWithFault_resets {p trigger : Nat} (h : b.clk.ret = none) :
    b.resetWithFault e p trigger = (b.partitionReset e p trigger).jobFaultWith e p 5 false :=
  if_neg (by simp [h])

theorem Block.askRetained_booted {trigger : Nat} (h : b.boot.stage = 6) : b.askRetained e trigger = b.retainedReset e trigger :=
  if_pos h

theorem Block.askRetained_booting {trigger : Nat} (h : b.boot.stage ≠ 6) :
    b.askRetained e trigger = { b with boot := { b.boot with retainedAsked := some trigger } } := if_neg h

end Reset

/-! ## Apertures (R299 to R301) -/

section Aperture
variable {b : Block} {e : Env} {f off n : Nat} {bs : List Byte} {ep : Bool}

theorem Block.doApertureRead_down (h : b.barUp = false) :
    b.doApertureRead e f off n = b.emit (.completion f (List.replicate n 0xFF) false) := by
  simp only [Block.doApertureRead, h, Block.answerRead, Bool.not_false, if_true]

theorem Block.doApertureWrite_down (h : b.barUp = false) : b.doApertureWrite e f off bs ep = b := by
  rw [Block.doApertureWrite, h]
  cases b.apertureAddr f off <;> rfl

theorem Block.doApertureWrite_noMemory (h : b.apertureAddr f off = none) : b.doApertureWrite e f off bs ep = b := by
  simp only [Block.doApertureWrite, h]

variable (hbar : b.barUp = true)
include hbar

theorem Block.doApertureRead_noMemory (h : b.apertureAddr f off = none) :
    b.doApertureRead e f off n = b.emit (.completion f (zeros n) true) := by
  simp only [Block.doApertureRead, hbar, h, Block.answerRead, Bool.not_true, Bool.false_eq_true, if_false]

variable {a : Nat} (haddr : b.apertureAddr f off = some a)
include haddr

theorem Block.doApertureWrite_writes : b.doApertureWrite e f off bs ep =
    b.writeMem e { id := funcReq f, part := funcPart f } false a (bs.map (fun x => (x, ep))) := by
  simp only [Block.doApertureWrite, haddr, hbar, if_true, apertureReq]

variable {o : Block × List (Byte × Bool)} (ho : o = b.readMem e { id := funcReq f, part := funcPart f } a n)
include ho

theorem Block.doApertureRead_answers : b.doApertureRead e f off n =
    o.1.emit (.completion f (if o.2.any Prod.snd then zeros n else o.2.map Prod.fst) (o.2.any Prod.snd)) := by
  subst ho
  rw [Block.doApertureRead, hbar, haddr]
  rfl

end Aperture

/-! ## Host reads that fail (R302) -/

/-- The poison marks of `n` bytes of host memory from `a` on. -/
def markPoison (m : SMap Bool) (a n : Nat) : SMap Bool := (List.range n).foldl (fun m i => mset false m (a + i) true) m

theorem mget_markPoison (m : SMap Bool) (a n x : Nat) :
    mget false (markPoison m a n) x = true ↔ (a ≤ x ∧ x < a + n) ∨ mget false m x = true := by
  induction n with
  | zero => simp only [markPoison, List.range_zero, List.foldl_nil]; exact (or_iff_right (by omega)).symm
  | succ n ih =>
    rw [markPoison, List.range_succ, List.foldl_append, ← markPoison, List.foldl_cons, List.foldl_nil, mget_mset]
    split
    case isTrue h => exact iff_of_true rfl (.inl (by omega))
    case isFalse h => rw [ih, show (a ≤ x ∧ x < a + n) ↔ (a ≤ x ∧ x < a + (n + 1)) by omega]

section ReadError
variable {b : Block} {e : Env} {q kind a n : Nat}

theorem Block.doHostReadError_idle (h : (b.queue q).active = none) : b.doHostReadError e q kind a n = b := by
  simp only [Block.doHostReadError, h]

theorem Block.doHostReadError_marks {r : Running} (h : (b.queue q).active = some r) : b.doHostReadError e q kind a n =
    ({ b with hostPoison := markPoison b.hostPoison a n } : Block).queueEvent e q 12 1 r.seq [(25, 1, kind), (40, 8, a)] := by
  simp only [Block.doHostReadError, h, markPoison]

end ReadError

end Sys2Proof.Machine

namespace Sys2Proof
open Machine

/-- Settles O43: a layout by the checks of R303; a function-level reset by whether the device is being reset; an aperture by the
address at its offset; a failed read by the bytes it marks (`mget_markPoison`). -/
theorem hostReachesMemory : Obligations.HostReachesMemory := by
  unfold Obligations.HostReachesMemory
  refine ⟨fun s f i valid first size r hup hr => ⟨fun hignored => ?ignored, fun hbar hf => ⟨fun hbad => ?refused,
      fun hjob hactive hoverlap haligned => ⟨fun hsame => ?same, fun hnew => ?layout⟩⟩⟩,
    fun s i hup => ⟨fun hret => ?flrHeld, fun hret => ?flr, fun hbooted => ?retained, fun hbooting => ?asked⟩,
    fun s f off n bs ep hup => ⟨fun hdown => ⟨?readDown, ?writeDown⟩, fun hbar => ⟨fun hnone => ⟨?readNone, ?writeNone⟩,
      fun a o haddr ho => ⟨fun hbad => ?poisoned, fun hclean => ?clean, ?writes⟩⟩⟩,
    fun s q kind a n hup => ⟨fun hidle => ?idle, fun r hactive =>
      ⟨{ s.blk with hostPoison := markPoison s.blk.hostPoison a n }, rfl, mget_markPoison _ _ _, ?marks⟩⟩,
    fun s hup => ⟨exec_pcieLinkDown_up hup false, exec_pcieLinkDown_up hup true, exec_perstN_up hup false, exec_perstN_up hup true⟩⟩
  case ignored => rw [exec_fePart_up hup f i valid first size hr, Block.doFePart_ignored hignored]
  case refused =>
    rw [exec_fePart_up hup f i valid first size hr, Block.doFePart_refused hbar hf (hr ▸ hbad)]
  case same =>
    rw [exec_fePart_up hup f i valid first size hr, Block.doFePart_allowed hbar hf hjob hactive hoverlap (hr ▸ haligned), if_pos hsame]
  case layout =>
    rw [exec_fePart_up hup f i valid first size hr, Block.doFePart_allowed hbar hf hjob hactive hoverlap (hr ▸ haligned), if_neg hnew]
  case flrHeld => rw [exec_flrVf_up hup, Block.resetWithFault_retained hret]
  case flr => rw [exec_flrVf_up hup, Block.resetWithFault_resets hret]
  case retained => rw [exec_flrPf0_up hup, Block.askRetained_booted hbooted]
  case asked => rw [exec_flrPf0_up hup, Block.askRetained_booting hbooting]
  case readDown => rw [exec_apertureRead_up hup, Block.doApertureRead_down hdown]
  case writeDown => rw [exec_apertureWrite_up hup, Block.doApertureWrite_down hdown]
  case readNone => rw [exec_apertureRead_up hup, Block.doApertureRead_noMemory hbar hnone]
  case writeNone => rw [exec_apertureWrite_up hup, Block.doApertureWrite_noMemory hnone]
  case poisoned => rw [exec_apertureRead_up hup, Block.doApertureRead_answers hbar haddr ho, hbad, if_pos rfl]
  case clean => rw [exec_apertureRead_up hup, Block.doApertureRead_answers hbar haddr ho, hclean, if_neg Bool.false_ne_true]
  case writes => rw [exec_apertureWrite_up hup, Block.doApertureWrite_writes hbar haddr]
  case idle => rw [exec_hostReadError_up hup, Block.doHostReadError_idle hidle]
  case marks => rw [exec_hostReadError_up hup, Block.doHostReadError_marks hactive]

end Sys2Proof
end

section
/-! PROOFS. Management commands (R350, R351, R354). -/
namespace Sys2Proof.Machine

/-! ## A row of a management command: the block is read and checked first -/

/-- What a row of a management command does, with `g` what it does of an accepted block. -/
def Block.mgmtRow (b : Block) (e : Env) (q : Nat) (g : Block → Running → MgmtBlock → Block) : Block :=
  match b.activeOpc q 7 with
  | none => b
  | some r =>
    match b.mgmtOpen e q r with
    | (c, none) => c
    | (c, some k) => g c r k

section Row
variable {b c : Block} {e : Env} {q : Nat} {r : Running} {g : Block → Running → MgmtBlock → Block}

theorem Block.mgmtRow_idle (h : b.activeOpc q 7 = none) : b.mgmtRow e q g = b := by
  simp only [Block.mgmtRow, h]

theorem Block.mgmtRow_refused (hrun : b.activeOpc q 7 = some r) (h : b.mgmtOpen e q r = (c, none)) : b.mgmtRow e q g = c := by
  simp only [Block.mgmtRow, hrun, h]

theorem Block.mgmtRow_accepted {k : MgmtBlock} (hrun : b.activeOpc q 7 = some r) (h : b.mgmtOpen e q r = (c, some k)) :
    b.mgmtRow e q g = g c r k := by
  simp only [Block.mgmtRow, hrun, h]

theorem Block.doMgmt_eq_mgmtRow : b.doMgmt e q = b.mgmtRow e q (fun c r k =>
    if k.op = 2 then c.setBoot { c.boot with update := some { target := k.arg, queue := q, seq := r.seq } } else c) := by
  cases hrun : b.activeOpc q 7 with
  | none => rw [Block.mgmtRow_idle hrun, Block.doMgmt, hrun]
  | some r =>
    obtain ⟨⟨c, k⟩, hopen⟩ : ∃ o, b.mgmtOpen e q r = o := ⟨_, rfl⟩
    cases k with
    | none => simp only [Block.mgmtRow_refused hrun hopen, Block.doMgmt, hrun, hopen]
    | some k => simp only [Block.mgmtRow_accepted hrun hopen, Block.doMgmt, hrun, hopen]

theorem Block.mgmtWork_eq_mgmtRow (op : Nat) (f : Block → Running → MgmtBlock → Block) : b.mgmtWork e q op f = b.mgmtRow e q (fun c r k =>
    if k.op ≠ op then c else (f c r k).retireCmd q r.seq) := rfl

theorem Block.doRetainedReset_eq_mgmtRow : b.doRetainedReset e q = b.mgmtRow e q (fun c r k =>
    if k.op ≠ 3 then c else ((c.retireCmd q r.seq).doCommandComplete e q).retainedReset e 2) := rfl

end Row

/-! ## The commands on a running module -/

section Commands
variable {s : State} (hup : s.Up) (q : Fin 256)
include hup

theorem exec_mgmt_up : exec (.mgmt q) s = .next { s with blk := s.blk.doMgmt s.env q } := congrArg Host.Outcome.next (s.onBlock_up _ hup)
theorem exec_info_up : exec (.info q) s = .next { s with blk := s.blk.doInfo s.env q } := congrArg Host.Outcome.next (s.onBlock_up _ hup)

theorem exec_override_up : exec (.override q) s = .next { s with blk := s.blk.doOverride s.env q } :=
  congrArg Host.Outcome.next (s.onBlock_up _ hup)

theorem exec_flashWrite_up : exec (.flashWrite q) s = .next { s with blk := s.blk.doFlashWrite s.env q } :=
  congrArg Host.Outcome.next (s.onBlock_up _ hup)

theorem exec_retainedReset_up : exec (.retainedReset q) s = .next { s with blk := s.blk.doRetainedReset s.env q } :=
  congrArg Host.Outcome.next (s.onBlock_up _ hup)

theorem exec_measure_up : exec (.measure q) s = .next { s with blk := s.blk.doMeasure s.env q } :=
  congrArg Host.Outcome.next (s.onBlock_up _ hup)

theorem exec_ownerKey_up : exec (.ownerKey q) s = .next { s with blk := s.blk.doOwnerKey s.env q } :=
  congrArg Host.Outcome.next (s.onBlock_up _ hup)

/-- The rows of the operations, each with its number. -/
def mgmtOperations (q : Fin 256) : List (Nat × Instr) :=
  [(0, .info q), (1, .override q), (2, .flashWrite q), (3, .retainedReset q), (4, .measure q), (5, .ownerKey q)]

theorem exec_mgmtOperation {n : Nat} {i : Instr} (hi : (n, i) ∈ mgmtOperations q) :
    ∃ f : Block → Running → MgmtBlock → Block, exec i s = .next { s with
      blk := s.blk.mgmtRow s.env q (fun c r k => if k.op ≠ n then c else f c r k) } := by
  simp only [mgmtOperations, List.mem_cons, List.not_mem_nil, or_false, Prod.mk.injEq] at hi
  obtain ⟨rfl, rfl⟩ | ⟨rfl, rfl⟩ | ⟨rfl, rfl⟩ | ⟨rfl, rfl⟩ | ⟨rfl, rfl⟩ | ⟨rfl, rfl⟩ := hi
  · exact ⟨_, by rw [exec_info_up hup, Block.doInfo, Block.mgmtWork_eq_mgmtRow]⟩
  · exact ⟨_, by rw [exec_override_up hup, Block.doOverride, Block.mgmtWork_eq_mgmtRow]⟩
  · exact ⟨_, by rw [exec_flashWrite_up hup, Block.doFlashWrite, Block.mgmtWork_eq_mgmtRow]⟩
  · exact ⟨_, by rw [exec_retainedReset_up hup, Block.doRetainedReset_eq_mgmtRow]⟩
  · exact ⟨_, by rw [exec_measure_up hup, Block.doMeasure, Block.mgmtWork_eq_mgmtRow]⟩
  · exact ⟨_, by rw [exec_ownerKey_up hup, Block.doOwnerKey, Block.mgmtWork_eq_mgmtRow]⟩

theorem exec_mgmtRow {i : Instr}
    (hi : i ∈ [Instr.mgmt q, .info q, .override q, .flashWrite q, .retainedReset q, .measure q, .ownerKey q]) :
    ∃ g, exec i s = .next { s with blk := s.blk.mgmtRow s.env q g } := by
  obtain rfl | hi := List.mem_cons.mp hi
  · exact ⟨_, by rw [exec_mgmt_up hup, Block.doMgmt_eq_mgmtRow]⟩
  · have hoperation : i ∈ (mgmtOperations q).map Prod.snd := hi
    obtain ⟨⟨n, i⟩, hn, rfl⟩ := List.mem_map.mp hoperation
    obtain ⟨f, hexec⟩ := exec_mgmtOperation hup q hn
    exact ⟨_, hexec⟩

end Commands

/-! ## An accepted operation (R350, R351, R354) -/

section Accepted
variable {b c : Block} {e : Env} {q : Nat} {r : Running} {k : MgmtBlock} (hrun : b.activeOpc q 7 = some r)
  (hopen : b.mgmtOpen e q r = (c, some k))
include hrun hopen

theorem Block.mgmtWork_works {op : Nat} (hop : k.op = op) (f : Block → Running → MgmtBlock → Block) :
    b.mgmtWork e q op f = (f c r k).retireCmd q r.seq := by
  rw [Block.mgmtWork_eq_mgmtRow, Block.mgmtRow_accepted hrun hopen, if_neg (not_not.mpr hop)]

theorem Block.doMgmt_notes : b.doMgmt e q =
    if k.op = 2 then c.setBoot { c.boot with update := some { target := k.arg, queue := q, seq := r.seq } } else c := by
  rw [Block.doMgmt_eq_mgmtRow, Block.mgmtRow_accepted hrun hopen]

theorem Block.doInfo_writes (hop : k.op = 0) : b.doInfo e q = (c.mgmtWrite e q r k (c.mgmtOutput e k)).retireCmd q r.seq :=
  Block.mgmtWork_works hrun hopen hop _

theorem Block.doMeasure_writes (hop : k.op = 4) : b.doMeasure e q = (c.mgmtWrite e q r k (c.mgmtOutput e k)).retireCmd q r.seq :=
  Block.mgmtWork_works hrun hopen hop _

theorem Block.doOverride_cancels (hop : k.op = 1) (harg : k.arg = 0xFF) :
    b.doOverride e q = (c.setBoot { c.boot with override := none }).retireCmd q r.seq := by
  rw [Block.doOverride, Block.mgmtWork_works hrun hopen hop, if_pos harg]

theorem Block.doOverride_names (hop : k.op = 1) (harg : k.arg ≠ 0xFF) : b.doOverride e q =
    ((c.setBoot { c.boot with override := some k.arg }).bootEvent e 0x105 0 k.arg []).retireCmd q r.seq := by
  rw [Block.doOverride, Block.mgmtWork_works hrun hopen hop, if_neg harg]

theorem Block.doFlashWrite_applies (hop : k.op = 2) {d : Block}
    (hd : d = (c.mgmtRead e q r k).1.applyUpdate e k.arg (c.mgmtRead e q r k).2) :
    b.doFlashWrite e q = (d.setBoot { d.boot with update := none }).retireCmd q r.seq := by
  rw [Block.doFlashWrite, Block.mgmtWork_works hrun hopen hop, hd]

theorem Block.doOwnerKey_programs (hop : k.op = 5) {o : Block × List Byte} (ho : o = c.mgmtRead e q r k) {f : Flash}
    (hf : f = { o.1.boot.flash with
      programmed := o.1.boot.flash.programmed ||| 2 ^ k.arg
      owners := mset [] o.1.boot.flash.owners k.arg o.2, ownerRec := some k.arg }) :
    b.doOwnerKey e q = (o.1.setBoot { o.1.boot with flash := f, opened := f.isOpen }).retireCmd q r.seq := by
  rw [Block.doOwnerKey, Block.mgmtWork_works hrun hopen hop, hf, ho]

theorem Block.doRetainedReset_resets (hop : k.op = 3) :
    b.doRetainedReset e q = ((c.retireCmd q r.seq).doCommandComplete e q).retainedReset e 2 := by
  rw [Block.doRetainedReset_eq_mgmtRow, Block.mgmtRow_accepted hrun hopen, if_neg (not_not.mpr hop)]

end Accepted

/-! ## The checks of a block (R33, R350, R351) -/

section Checks
variable {b : Block} {e : Env} {q seq : Nat} {k : MgmtBlock}

theorem refusal_eq_none_iff {α : Type} {P : Prop} [Decidable P] {r : α} {rest : Option α} :
    (if P then some r else rest) = none ↔ ¬P ∧ rest = none := by
  by_cases h : P <;> simp [h]

/-- What a block that no check refuses keeps to. -/
theorem Block.mgmtFault_none (h : b.mgmtFault e q seq k = none) : k.op ≤ 5 ∧ k.argOk = true ∧ k.low = 0 ∧ k.len ≤ 2 ^ 24 ∧
    (b.mgmtOutput e k).length ≤ k.dstLen ∧ (k.op = 1 → k.arg < 4 → b.overrideFits k.arg = true) := by
  simp only [Block.mgmtFault, refusal_eq_none_iff, Nat.not_lt, Bool.not_eq_true', Bool.not_eq_false, not_not] at h
  obtain ⟨hop, harg, hlow, -, -, -, hlen, hdst, hrest⟩ := h
  refine ⟨hop, harg, hlow, hlen, hdst, fun hone hprofile => ?_⟩
  rw [hone] at hrest
  simpa [hprofile] using hrest

end Checks

/-- An update of which a check fails is counted as rejected, and of the start-up state changes no more. -/
theorem Block.applyUpdate_rejected {b : Block} {e : Env} {target why : Nat} {bs : List Byte} (h : b.boot.flash.take target bs = .error why) :
    (b.applyUpdate e target bs).boot = (b.bumpBoot 0x110 1).boot := by
  simp only [Block.applyUpdate, h]
  exact (post_reports _ _ _).boot_eq

end Sys2Proof.Machine

namespace Sys2Proof
open Machine

/-- Settles O39: a management command by whether its block is refused (`Block.mgmtRow`), an accepted one by its operation. -/
theorem managementCommandsAct : Obligations.ManagementCommandsAct := by
  unfold Obligations.ManagementCommandsAct
  refine ⟨fun s q hup hidle i hi => ?idle, fun s q r c hup hrun => ⟨fun hrefused i hi => ?refused, fun k hopen => ⟨?notes,
      fun n i hi hop => ?other, fun n i hi hop => ?writes, fun hop harg => ?cancels, fun hop harg => ?names, fun hop => ⟨_, rfl, ?flash⟩,
      fun hop => ⟨_, _, rfl, rfl, ?owner⟩, fun hop => ?resets⟩⟩,
    fun b e q seq k hbad hnone => ?checks, fun b e target why bs => Block.applyUpdate_rejected⟩
  case idle =>
    obtain ⟨g, hexec⟩ := exec_mgmtRow hup q hi
    rw [hexec, Block.mgmtRow_idle hidle]
  case refused =>
    obtain ⟨g, hexec⟩ := exec_mgmtRow hup q hi
    rw [hexec, Block.mgmtRow_refused hrun hrefused]
  case notes => rw [exec_mgmt_up hup, Block.doMgmt_notes hrun hopen]
  case other =>
    obtain ⟨f, hexec⟩ := exec_mgmtOperation hup q hi
    rw [hexec, Block.mgmtRow_accepted hrun hopen, if_pos hop]
  case writes =>
    simp only [List.mem_cons, List.not_mem_nil, or_false, Prod.mk.injEq] at hi
    obtain ⟨rfl, rfl⟩ | ⟨rfl, rfl⟩ := hi
    · rw [exec_info_up hup, Block.doInfo_writes hrun hopen hop]
    · rw [exec_measure_up hup, Block.doMeasure_writes hrun hopen hop]
  case cancels => rw [exec_override_up hup, Block.doOverride_cancels hrun hopen hop harg]
  case names => rw [exec_override_up hup, Block.doOverride_names hrun hopen hop harg]
  case flash => rw [exec_flashWrite_up hup, Block.doFlashWrite_applies hrun hopen hop rfl]
  case owner => rw [exec_ownerKey_up hup, Block.doOwnerKey_programs hrun hopen hop rfl rfl]
  case resets => rw [exec_retainedReset_up hup, Block.doRetainedReset_resets hrun hopen hop]
  case checks =>
    obtain ⟨hop, harg, hlow, hlen, hdst, hfits⟩ := Block.mgmtFault_none hnone
    obtain h | h | h | h | h | ⟨hone, hprofile, h⟩ := hbad
    · omega
    · simp [harg] at h
    · exact h hlow
    · omega
    · omega
    · simp [hfits hone hprofile] at h

end Sys2Proof
end

section
/-! PROOFS. The management endpoint: MCTP control, PLDM and SPDM requests (R344, R353, R354). -/
namespace Sys2Proof.Machine

/-! ## The commands on a running module -/

section Commands
variable {s : State} (hup : s.Up)
include hup

theorem exec_setEndpointId_up (eid : Fin 256) : exec (.setEndpointId eid) s = .next { s with blk := s.blk.doSetEndpointId eid } :=
  congrArg Host.Outcome.next (s.onBlock_up _ hup)

theorem exec_getEndpointId_up : exec .getEndpointId s = .next { s with blk := s.blk.doGetEndpointId } :=
  congrArg Host.Outcome.next (s.onBlock_up _ hup)

theorem exec_getVersionSupport_up : exec .getVersionSupport s = .next { s with blk := s.blk.doVersionSupport } :=
  congrArg Host.Outcome.next (s.onBlock_up _ hup)

theorem exec_getMessageTypeSupport_up : exec .getMessageTypeSupport s = .next { s with blk := s.blk.doTypeSupport } :=
  congrArg Host.Outcome.next (s.onBlock_up _ hup)

theorem exec_pldmDiscovery_up : exec .pldmDiscovery s = .next { s with blk := s.blk.doPldmDiscovery } :=
  congrArg Host.Outcome.next (s.onBlock_up _ hup)

theorem exec_pldmSensorRead_up (x : Sensor) : exec (.pldmSensorRead x) s = .next { s with blk := s.blk.doSensorRead x } :=
  congrArg Host.Outcome.next (s.onBlock_up _ hup)

theorem exec_pldmFirmwareUpdate_up (target : Fin 5) (image : List Byte) :
    exec (.pldmFirmwareUpdate target image) s = .next { s with blk := s.blk.doPldmUpdate s.env target image } :=
  congrArg Host.Outcome.next (s.onBlock_up _ hup)

end Commands

/-! ## Whether the endpoint is served (R344, R353) -/

theorem Block.endpointUp_iff {b : Block} : b.endpointUp = true ↔ b.boot.recovery = true ∨ 3 ≤ b.boot.stage := by
  simp [Block.endpointUp]

theorem Block.fullyUp_iff {b : Block} : b.fullyUp = true ↔ b.boot.recovery = false ∧ 3 ≤ b.boot.stage := by
  cases h : b.boot.recovery
  · simp [Block.fullyUp, Block.endpointUp, h]
  · simp [Block.fullyUp, h]

/-! ## MCTP control and PLDM (R353) -/

section Unserved
variable {b : Block} {e : Env} (h : b.endpointUp = false)
include h

theorem Block.doSetEndpointId_unserved (eid : Nat) : b.doSetEndpointId eid = b := if_neg (by simp [h])
theorem Block.doGetEndpointId_unserved : b.doGetEndpointId = b := if_neg (by simp [h])
theorem Block.doVersionSupport_unserved : b.doVersionSupport = b := if_neg (by simp [h])
theorem Block.doTypeSupport_unserved : b.doTypeSupport = b := if_neg (by simp [h])
theorem Block.doPldmDiscovery_unserved : b.doPldmDiscovery = b := if_neg (by simp [h])
theorem Block.doPldmUpdate_unserved (target : Nat) (bs : List Byte) : b.doPldmUpdate e target bs = b := if_pos (by simp [h])

end Unserved

section Served
variable {b : Block} {e : Env} (h : b.endpointUp = true)
include h

theorem Block.doSetEndpointId_served (eid : Nat) : b.doSetEndpointId eid =
    (b.setBoot { b.boot with endpoint := { b.boot.endpoint with eid := eid } }).emit (.answer 1 [eid] []) := if_pos h

theorem Block.doGetEndpointId_served : b.doGetEndpointId = b.emit (.answer 2 [b.boot.endpoint.eid] []) := if_pos h

theorem Block.doVersionSupport_served : b.doVersionSupport = b.emit (.answer 3 [1, 3] []) := if_pos h

theorem Block.doTypeSupport_served : b.doTypeSupport = b.emit (.answer 4 (if b.boot.recovery then [0, 1] else [0, 1, 2]) []) := if_pos h

theorem Block.doPldmDiscovery_served : b.doPldmDiscovery = b.emit (.answer 5 (if b.boot.recovery then [0, 5] else [0, 2, 5]) []) := if_pos h

variable {target : Nat} {bs : List Byte}

theorem Block.doPldmUpdate_busy (hupdate : b.boot.update ≠ none) : b.doPldmUpdate e target bs = b.emit (.answer 7 [1] []) :=
  (if_neg (by simp [h])).trans (if_pos (Option.isSome_iff_ne_none.mpr hupdate))

theorem Block.doPldmUpdate_applies (hupdate : b.boot.update = none) :
    b.doPldmUpdate e target bs = (b.applyUpdate e target bs).emit (.answer 7 [0] []) :=
  (if_neg (by simp [h])).trans (if_neg (by simp [hupdate]))

end Served

theorem Block.doSensorRead_unserved {b : Block} (h : b.fullyUp = false) (x : Sensor) : b.doSensorRead x = b := if_neg (by simp [h])

theorem Block.doSensorRead_served {b : Block} (h : b.fullyUp = true) (x : Sensor) :
    b.doSensorRead x = b.emit (.answer 6 (b.sensor x) []) := if_pos h

theorem exec_endpointRequest_unserved {s : State} {i : Instr} {eid : Fin 256} {x : Sensor} {target : Fin 5} {image : List Byte} (hup : s.Up)
    (h : s.blk.endpointUp = false)
    (hi : i ∈ [Instr.setEndpointId eid, .getEndpointId, .getVersionSupport, .getMessageTypeSupport, .pldmDiscovery, .pldmSensorRead x,
      .pldmFirmwareUpdate target image]) : exec i s = .next s := by
  simp only [List.mem_cons, List.not_mem_nil, or_false] at hi
  obtain rfl | rfl | rfl | rfl | rfl | rfl | rfl := hi
  · rw [exec_setEndpointId_up hup, Block.doSetEndpointId_unserved h]
  · rw [exec_getEndpointId_up hup, Block.doGetEndpointId_unserved h]
  · rw [exec_getVersionSupport_up hup, Block.doVersionSupport_unserved h]
  · rw [exec_getMessageTypeSupport_up hup, Block.doTypeSupport_unserved h]
  · rw [exec_pldmDiscovery_up hup, Block.doPldmDiscovery_unserved h]
  · rw [exec_pldmSensorRead_up hup, Block.doSensorRead_unserved (by simp [Block.fullyUp, h])]
  · rw [exec_pldmFirmwareUpdate_up hup, Block.doPldmUpdate_unserved h]

/-! ## SPDM (R353, R354) -/

section Spdm
variable {b : Block} {c need : Nat} {f : Block → Block}

theorem Block.spdm_unserved (h : b.fullyUp = false) : b.spdm c need f = b := if_pos (by simp [h])

theorem Block.spdm_early (h : b.fullyUp = true) (hplace : b.boot.endpoint.spdm < need) : b.spdm c need f = b.emit (.answer 0 [c] []) :=
  (if_neg (by simp [h])).trans (if_pos hplace)

theorem Block.spdm_inOrder (h : b.fullyUp = true) (hplace : need ≤ b.boot.endpoint.spdm) : b.spdm c need f = f b :=
  (if_neg (by simp [h])).trans (if_neg (Nat.not_lt.mpr hplace))

end Spdm

section Requests
variable {s : State} (hup : s.Up)
include hup

/-- The SPDM requests, each with its number and the place in the exchange that it needs. -/
def spdmRequests (a h : Bool) (off len : Fin 65536) (nonce : List Byte) (index : Fin 256) : List (Nat × Nat × Instr) :=
  [(9, 1, .getCapabilities), (10, 2, .negotiateAlgorithms a h), (11, 3, .getDigests), (12, 3, .getCertificate off len),
    (13, 3, .challenge nonce), (14, 3, .getMeasurements index nonce)]

theorem exec_spdmRequest {a h : Bool} {off len : Fin 65536} {nonce : List Byte} {index : Fin 256} {c need : Nat} {i : Instr}
    (hi : (c, need, i) ∈ (8, 0, .getVersion) :: spdmRequests a h off len nonce index) :
    ∃ f, exec i s = .next { s with blk := s.blk.spdm c need f } := by
  simp only [spdmRequests, List.mem_cons, List.not_mem_nil, or_false, Prod.mk.injEq] at hi
  obtain ⟨rfl, rfl, rfl⟩ | ⟨rfl, rfl, rfl⟩ | ⟨rfl, rfl, rfl⟩ | ⟨rfl, rfl, rfl⟩ | ⟨rfl, rfl, rfl⟩ | ⟨rfl, rfl, rfl⟩ |
    ⟨rfl, rfl, rfl⟩ := hi
  all_goals exact ⟨_, congrArg Host.Outcome.next (s.onBlock_up _ hup)⟩

variable (hfull : s.blk.fullyUp = true)
include hfull

theorem exec_getVersion_served : exec .getVersion s = .next { s with blk := (s.blk.setSpdm 1).emit (.answer 8 [1, 2] []) } := by
  refine (congrArg Host.Outcome.next (s.onBlock_up _ hup)).trans ?_
  rw [Block.doGetVersion, Block.spdm_inOrder hfull (Nat.zero_le _), Block.tell]

theorem exec_getCapabilities_inOrder (hplace : 1 ≤ s.blk.boot.endpoint.spdm) : exec .getCapabilities s = .next { s with
    blk := (s.blk.setSpdm (max 2 s.blk.boot.endpoint.spdm)).emit (.answer 9 [8, 9, 10, 11, 12, 13, 14] []) } := by
  refine (congrArg Host.Outcome.next (s.onBlock_up _ hup)).trans ?_
  rw [Block.doGetCapabilities, Block.spdm_inOrder hfull hplace, Block.tell]

theorem exec_negotiateAlgorithms_inOrder (hplace : 2 ≤ s.blk.boot.endpoint.spdm) (a h : Bool) : exec (.negotiateAlgorithms a h) s = .next { s with
    blk := (if a = true ∧ h = true then s.blk.setSpdm 3 else s.blk).emit (.answer 10 [b2n a, b2n h] []) } := by
  refine (congrArg Host.Outcome.next (s.onBlock_up _ hup)).trans ?_
  simp only [Block.doNegotiate, Block.spdm_inOrder hfull hplace, Block.tell, Bool.and_eq_true]

variable (hplace : 3 ≤ s.blk.boot.endpoint.spdm)
include hplace

theorem exec_getDigests_inOrder :
    exec .getDigests s = .next { s with blk := s.blk.emit (.answer 11 [] (Config.sha384 s.blk.boot.flash.cert)) } := by
  refine (congrArg Host.Outcome.next (s.onBlock_up _ hup)).trans ?_
  rw [Block.doGetDigests, Block.spdm_inOrder hfull hplace, Block.tell]

theorem exec_getCertificate_inOrder (off len : Fin 65536) {bs : List Byte} (hbs : bs = (s.blk.boot.flash.cert.drop off).take len) :
    exec (.getCertificate off len) s = .next { s with
      blk := s.blk.emit (.answer 12 [bs.length, s.blk.boot.flash.cert.length - off - bs.length] bs) } := by
  subst hbs
  refine (congrArg Host.Outcome.next (s.onBlock_up _ hup)).trans ?_
  rw [Block.doGetCertificate, Block.spdm_inOrder hfull hplace, Block.tell]

theorem exec_challenge_inOrder (nonce : List Byte) {parts : List (List Byte)} (hparts : parts = [Config.sha384 s.blk.boot.flash.cert, nonce]) :
    exec (.challenge nonce) s = .next { s with
      blk := s.blk.emit (.answer 13 [] (parts.flatten ++ Config.identitySign (Config.spdmTranscript 13 parts))) } := by
  subst hparts
  refine (congrArg Host.Outcome.next (s.onBlock_up _ hup)).trans ?_
  rw [Block.doChallenge, Block.spdm_inOrder hfull hplace, Block.tell]

theorem exec_getMeasurements_count {index : Fin 256} (hindex : index.val = 0) (nonce : List Byte) :
    exec (.getMeasurements index nonce) s = .next { s with
      blk := s.blk.emit (.answer 14 [5] (Config.identitySign (Config.spdmTranscript 14 [[], nonce]))) } := by
  refine (congrArg Host.Outcome.next (s.onBlock_up _ hup)).trans ?_
  simp only [Block.doGetMeasurements, Block.spdm_inOrder hfull hplace, Block.tell, hindex, if_true, List.nil_append]

theorem exec_getMeasurements_signed {index : Fin 256} {l : List Nat} (nonce : List Byte)
    (hl : (index.val = 255 ∧ l = [1, 2, 3, 4, 5]) ∨ (index.val ≠ 0 ∧ index.val ≠ 255 ∧ l = [index.val])) :
    exec (.getMeasurements index nonce) s = .next { s with blk := s.blk.emit (.answer 14 l
      (s.blk.measureBlocks l ++ Config.identitySign (Config.spdmTranscript 14 [s.blk.measureBlocks l, nonce]))) } := by
  refine (congrArg Host.Outcome.next (s.onBlock_up _ hup)).trans ?_
  simp only [Block.doGetMeasurements, Block.spdm_inOrder hfull hplace, Block.tell]
  obtain ⟨hall, rfl⟩ | ⟨hnone, hone, rfl⟩ := hl
  · simp only [hall, if_true, Nat.reduceEqDiff, if_false]
  · simp only [hnone, hone, if_false]

end Requests

end Sys2Proof.Machine

namespace Sys2Proof
open Machine

/-- Settles O49: nothing is answered before the endpoint is served; each request by its effect where it is. -/
theorem endpointServesItsProtocols : Obligations.EndpointServesItsProtocols := by
  unfold Obligations.EndpointServesItsProtocols
  refine ⟨fun s eid x target image hup => ⟨fun hrecovery hstage i hi => ?unserved, fun hserves => ?served⟩,
    fun b => ⟨rfl, rfl, rfl, rfl, fun p => rfl, fun p t ht => ?plate, fun p t ht => ?stack⟩⟩
  case unserved =>
    refine exec_endpointRequest_unserved hup (Bool.eq_false_iff.mpr fun h => ?_) hi
    obtain h | h := Block.endpointUp_iff.mp h
    · exact absurd h (by simp [hrecovery])
    · exact absurd h (Nat.not_le.mpr hstage)
  case served =>
    have h : s.blk.endpointUp = true := Block.endpointUp_iff.mpr hserves
    refine ⟨⟨_, rfl, ?setEid⟩, ?eid, ?version, ?types, ?discovery, fun hrecovery => ?noSensor, fun hrecovery => ?sensor,
      fun hbusy => ?busy, fun hfree => ?update⟩
    case setEid => rw [exec_setEndpointId_up hup, Block.doSetEndpointId_served h]
    case eid => rw [exec_getEndpointId_up hup, Block.doGetEndpointId_served h]
    case version => rw [exec_getVersionSupport_up hup, Block.doVersionSupport_served h]
    case types => rw [exec_getMessageTypeSupport_up hup, Block.doTypeSupport_served h]
    case discovery => rw [exec_pldmDiscovery_up hup, Block.doPldmDiscovery_served h]
    case noSensor => rw [exec_pldmSensorRead_up hup, Block.doSensorRead_unserved (by simp [Block.fullyUp, hrecovery])]
    case sensor => rw [exec_pldmSensorRead_up hup, Block.doSensorRead_served (by simp [Block.fullyUp, h, hrecovery])]
    case busy => rw [exec_pldmFirmwareUpdate_up hup, Block.doPldmUpdate_busy h hbusy]
    case update => rw [exec_pldmFirmwareUpdate_up hup, Block.doPldmUpdate_applies h hfree]
  case plate => simp only [Block.sensor, ht, Option.map_some, Option.toList_some]
  case stack => simp only [Block.sensor, ht, Option.map_some, Option.toList_some]

/-- Settles O50: every SPDM request by whether the endpoint serves it, and by its place in the exchange. -/
theorem spdmFollowsItsOrder : Obligations.SpdmFollowsItsOrder := by
  unfold Obligations.SpdmFollowsItsOrder
  intro s a h off len nonce index hup
  refine ⟨fun hunserved i hi => ?unserved, fun hrecovery hstage => ?served⟩
  case unserved =>
    have hnot : s.blk.fullyUp = false := Bool.eq_false_iff.mpr fun hfull => by
      obtain ⟨hrecovery, hstage⟩ := Block.fullyUp_iff.mp hfull
      exact hunserved.elim (by simp [hrecovery]) (Nat.not_lt.mpr hstage)
    have hrequest : i ∈ ((8, 0, Instr.getVersion) :: spdmRequests a h off len nonce index).map (fun x => x.2.2) := hi
    obtain ⟨⟨c, need, i⟩, hmem, rfl⟩ := List.mem_map.mp hrequest
    obtain ⟨f, hexec⟩ := exec_spdmRequest hup hmem
    rw [hexec, Block.spdm_unserved hnot]
  case served =>
    have hfull : s.blk.fullyUp = true := Block.fullyUp_iff.mpr ⟨hrecovery, hstage⟩
    refine ⟨fun c need i hi hearly => ?early, exec_getVersion_served hup hfull, exec_getCapabilities_inOrder hup hfull,
      fun hplace => exec_negotiateAlgorithms_inOrder hup hfull hplace a h, fun hplace => ⟨exec_getDigests_inOrder hup hfull hplace,
        ⟨_, rfl, exec_getCertificate_inOrder hup hfull hplace off len rfl⟩, ⟨_, rfl, exec_challenge_inOrder hup hfull hplace nonce rfl⟩,
        fun hindex => exec_getMeasurements_count hup hfull hplace hindex nonce,
        fun l hl => exec_getMeasurements_signed hup hfull hplace nonce hl⟩⟩
    case early =>
      obtain ⟨f, hexec⟩ := exec_spdmRequest (a := a) (h := h) hup (List.mem_cons_of_mem _ hi)
      rw [hexec, Block.spdm_early hfull hearly]

end Sys2Proof
end

section
/-! PROOFS. Clock domains, power states and clock failures (R358 to R372). -/
namespace Sys2Proof.Machine

/-! ## The commands on a running module -/

section Commands
variable {s : State} (hup : s.Up)
include hup

theorem exec_gate_up (d : Fin 128) : exec (.gate d) s = .next { s with blk := s.blk.doGate s.env d } :=
  congrArg Host.Outcome.next (s.onBlock_up _ hup)

theorem exec_ungate_up (d : Fin 128) : exec (.ungate d) s = .next { s with blk := s.blk.doUngate s.env d } :=
  congrArg Host.Outcome.next (s.onBlock_up _ hup)

theorem exec_domainReset_up (d : Fin 128) : exec (.domainReset d) s = .next { s with blk := s.blk.doDomainReset s.env d } :=
  congrArg Host.Outcome.next (s.onBlock_up _ hup)

theorem exec_guardRejoined_up (d : Fin 128) : exec (.guardRejoined d) s = .next { s with blk := s.blk.doGuardRejoined s.env d } :=
  congrArg Host.Outcome.next (s.onBlock_up _ hup)

theorem exec_pstate_up {keep : Bool} {target : Nat} {slLs : Bool} {i : Instr}
    (hi : (target, slLs, i) ∈ [(0, false, Instr.active), (1, false, .hold), (2, keep, .safelight keep), (3, false, .off)]) :
    exec i s = .next { s with blk := s.blk.doPstate s.env target slLs } := by
  simp only [List.mem_cons, List.not_mem_nil, or_false, Prod.mk.injEq] at hi
  obtain ⟨rfl, rfl, rfl⟩ | ⟨rfl, rfl, rfl⟩ | ⟨rfl, rfl, rfl⟩ | ⟨rfl, rfl, rfl⟩ := hi
  all_goals exact congrArg Host.Outcome.next (s.onBlock_up _ hup)

theorem exec_pstateEntered_up : exec .pstateEntered s = .next { s with blk := s.blk.doPstateEntered s.env } :=
  congrArg Host.Outcome.next (s.onBlock_up _ hup)

theorem exec_switch_up (p : Fin 8) (fstep : Fin 32) : exec (.switch p fstep) s = .next { s with blk := s.blk.doSwitch s.env p fstep } :=
  congrArg Host.Outcome.next (s.onBlock_up _ hup)

theorem exec_clockLost_up (n : Fin 33) (missing : Bool) :
    exec (.clockLost n missing) s = .next { s with blk := s.blk.doClockLost s.env n missing } :=
  congrArg Host.Outcome.next (s.onBlock_up _ hup)

theorem exec_clockRecovery_up (n : Fin 33) : exec (.clockRecovery n) s = .next { s with blk := s.blk.doClockRecovery s.env n } :=
  congrArg Host.Outcome.next (s.onBlock_up _ hup)

end Commands

theorem Block.clkEvent_clk (b : Block) (e : Env) (code sev part src cls dom : Nat) (more : List (Nat × Nat × Nat)) :
    (b.clkEvent e code sev part src cls dom more).clk = b.clk := (post_reports _ _ _).clk_eq

/-! ## Gating (R360) -/

section Gating
variable {b c : Block} {e : Env} {d : Nat}

theorem Block.doGate_gates (hc : c = b.setClk { b.clk with gateDom := d, gateRes := b.gateCode d }) (h : b.gateCode d = 0) :
    b.doGate e d = c.setDom d { c.dom d with state := 1 } := by
  subst hc
  exact if_pos h

theorem Block.doGate_refused (hc : c = b.setClk { b.clk with gateDom := d, gateRes := b.gateCode d }) (h : b.gateCode d ≠ 0) :
    b.doGate e d = c.gateRefused e d (b.gateCode d) := by
  subst hc
  exact if_neg h

theorem Block.doUngate_runs (hc : c = b.setClk { b.clk with gateDom := d, gateRes := b.ungateCode d }) (h : b.ungateCode d = 0) :
    b.doUngate e d = c.setDom d { c.dom d with state := 0 } := by
  subst hc
  exact if_pos h

theorem Block.doUngate_refused (hc : c = b.setClk { b.clk with gateDom := d, gateRes := b.ungateCode d }) (h : b.ungateCode d ≠ 0) :
    b.doUngate e d = c.gateRefused e d (b.ungateCode d) := by
  subst hc
  exact if_neg h

theorem Block.doDomainReset_starts (hc : c = b.setClk { b.clk with drstRes := b.drstCode d }) (h : b.drstCode d = 0) :
    b.doDomainReset e d = c.domainReset e d 9 := by
  subst hc
  exact if_pos h

theorem Block.doDomainReset_refused (hc : c = b.setClk { b.clk with drstRes := b.drstCode d }) (h : b.drstCode d ≠ 0) :
    b.doDomainReset e d = c := by
  subst hc
  exact if_neg h

end Gating

/-! ## The codes of gating and resets (R360, R370) -/

section Codes
variable {b : Block} {d : Nat}

theorem Block.gateCode_noDomain (hd : 100 ≤ d) : b.gateCode d = 6 := if_pos hd
theorem Block.ungateCode_noDomain (hd : 100 ≤ d) : b.ungateCode d = 6 := if_pos hd
theorem Block.drstCode_noDomain (hd : 100 ≤ d) : b.drstCode d = 6 := if_pos hd

theorem Block.drstCode_never (hd : d = 95 ∨ (48 ≤ d ∧ d ≤ 79) ∨ (88 ≤ d ∧ d ≤ 91)) : b.drstCode d = 3 :=
  (if_neg (by omega)).trans (if_pos (by simpa [or_assoc] using hd))

/-- The domains that the host may gate and reset: those of the plates and of Ciosh. -/
theorem hostDom_iff : hostDom d = true ↔ d < 48 ∨ (80 ≤ d ∧ d ≤ 87) := by simp [hostDom]

theorem Block.drstCode_absorbed (hhost : hostDom d = true) (hret : b.clk.ret ≠ none) : b.drstCode d = 0 := by
  have hrange := hostDom_iff.mp hhost
  rw [Block.drstCode, if_neg (by omega), if_neg (by simp; omega), if_neg (by simp [hhost]), if_pos (Option.isSome_iff_ne_none.mpr hret)]

theorem Block.domainReset_absorbed {e : Env} {trigger : Nat} (hret : b.clk.ret ≠ none) : b.domainReset e d trigger = b :=
  if_pos (Option.isSome_iff_ne_none.mpr hret)

variable (hd : d < 100)
include hd

theorem Block.gateCode_notHost (hhost : hostDom d = false) : b.gateCode d = 4 :=
  (if_neg (Nat.not_le.mpr hd)).trans (if_pos (by simp [hhost]))

theorem Block.ungateCode_notHost (hhost : hostDom d = false) : b.ungateCode d = 4 :=
  (if_neg (Nat.not_le.mpr hd)).trans (if_pos (by simp [hhost]))

variable (hhost : hostDom d = true)
include hhost

theorem Block.gateCode_busy (hbusy : b.domBusy d = true) : b.gateCode d = 7 := by
  rw [Block.gateCode, if_neg (Nat.not_le.mpr hd), if_neg (by simp [hhost]), if_pos hbusy]

theorem Block.ungateCode_busy (hbusy : b.domBusy d = true) : b.ungateCode d = 7 := by
  rw [Block.ungateCode, if_neg (Nat.not_le.mpr hd), if_neg (by simp [hhost]), if_pos hbusy]

variable (hbusy : b.domBusy d = false)
include hbusy

theorem Block.gateCode_childRuns (hchild : ∃ c < 100, domParent c = d ∧ (b.dom c).state = 0) : b.gateCode d = 1 := by
  rw [Block.gateCode, if_neg (Nat.not_le.mpr hd), if_neg (by simp [hhost]), if_neg (by simp [hbusy]), if_pos (by simpa using hchild)]

theorem Block.gateCode_noChildRuns (hchild : ∀ c < 100, domParent c = d → (b.dom c).state ≠ 0) :
    b.gateCode d = if b.domInUse d then 3 else 0 := by
  rw [Block.gateCode, if_neg (Nat.not_le.mpr hd), if_neg (by simp [hhost]), if_neg (by simp [hbusy]), if_neg (by simpa using hchild)]

theorem Block.ungateCode_parentStopped (hparent : b.domRuns (domParent d) = false) : b.ungateCode d = 2 := by
  rw [Block.ungateCode, if_neg (Nat.not_le.mpr hd), if_neg (by simp [hhost]), if_neg (by simp [hbusy]), if_pos (by simp [hparent])]

theorem Block.ungateCode_parentRuns (hparent : b.domRuns (domParent d) = true) {n : Nat} (hsource : b.domSource d = some n) :
    b.ungateCode d = if b.sourceReady n then 0 else 5 := by
  rw [Block.ungateCode, if_neg (Nat.not_le.mpr hd), if_neg (by simp [hhost]), if_neg (by simp [hbusy]), if_neg (by simp [hparent]),
    hsource]
  cases hready : b.sourceReady n <;> simp [hready]

end Codes

/-! ## The rejoin of a guard (R366) -/

section Rejoin
variable {b : Block} {e : Env} {d : Nat} {x : Dom} (hx : x = b.dom d)
include hx

theorem Block.doGuardRejoined_waits (h : b.clk.ret ≠ none ∨ b.domRuns (domParent d) = false ∨
    (∃ n, b.domSource d = some n ∧ b.sourceReady n = false) ∨ (x.state ≠ 4 ∧ ¬(x.state = 2 ∧ 0 < x.since))) :
    b.doGuardRejoined e d = b := by
  subst hx
  refine if_pos ?_
  obtain hret | hparent | ⟨n, hsource, hready⟩ | ⟨hstate, hreset⟩ := h
  · simp [Option.isSome_iff_ne_none.mpr hret]
  · simp [hparent]
  · simp [hsource, hready]
  · simp only [hstate, decide_false, Bool.or_false, Bool.or_eq_true, Bool.not_eq_true', Bool.and_eq_false_iff, decide_eq_false_iff_not]
    exact .inr (not_and_or.mp hreset)

/-- A rejoin that may take place, as it ends with `c` the block where the domain runs and a reset's end is recorded. -/
theorem Block.doGuardRejoined_rejoins (hret : b.clk.ret = none) (hparent : b.domRuns (domParent d) = true)
    (hready : ∀ n, b.domSource d = some n → b.sourceReady n = true) (hisolated : x.state = 4 ∨ (x.state = 2 ∧ 0 < x.since)) {c f : Block}
    (hc : c = b.setDom d { x with state := 0, since := 0, dropsNew := 0, synthNew := 0 })
    (hf : f = if x.state = 2 ∧ 0 < x.since then c.clkEvent e 5 0 15 0xFF 3 d [(28, 4, e.clk.now + 1 - x.since)] else c) :
    b.doGuardRejoined e d = if x.dropsNew = 0 ∧ x.synthNew = 0 then f
      else f.clkEvent e 8 0 15 0xFF 0xFF d [(32, 8, x.dropsNew), (40, 8, x.synthNew)] := by
  have hclocked : ((b.domSource d).map b.sourceReady).getD true = true := by
    cases hsource : b.domSource d with
    | none => rfl
    | some n => exact hready n hsource
  have hends : (decide (x.state = 2) && decide (0 < x.since) || decide (x.state = 4)) = true := by simpa using hisolated.symm
  subst hx hc hf
  rw [Block.doGuardRejoined, if_neg]
  · simp only [Bool.and_eq_true, decide_eq_true_eq]
  · simp only [hret, hparent, hclocked, hends, Option.isSome_none, Bool.not_true, Bool.or_self, Bool.false_eq_true, not_false_eq_true]

end Rejoin

/-! ## Power states (R371, R372) -/

section PowerStates
variable {b c : Block} {e : Env} {target : Nat} {slLs : Bool}

theorem Block.doPstate_begins (hc : c = b.setClk { b.clk with pstateRes := b.pstateCode target }) (h : b.pstateCode target = 0) :
    b.doPstate e target slLs = c.setClk { c.clk with moving := some { target := target, slLs := slLs } } := by
  subst hc
  exact if_pos h

theorem Block.doPstate_refused (hc : c = b.setClk { b.clk with pstateRes := b.pstateCode target }) (h : b.pstateCode target ≠ 0) :
    b.doPstate e target slLs = c.clkEvent e 10 1 15 0xFF target 0xFFFF [(28, 1, b.pstateCode target)] := by
  subst hc
  exact if_neg h

theorem Block.pstateCode_retained (hret : b.clk.ret ≠ none) : b.pstateCode target = 4 := if_pos (Option.isSome_iff_ne_none.mpr hret)

theorem Block.pstateCode_moving (hret : b.clk.ret = none) (hmoving : b.clk.moving ≠ none) : b.pstateCode target = 3 :=
  (if_neg (by simp [hret])).trans (if_pos (Option.isSome_iff_ne_none.mpr hmoving))

theorem Block.pstateCode_holds (hret : b.clk.ret = none) (hmoving : b.clk.moving = none) (h : b.clk.pstate = target) :
    b.pstateCode target = 2 := by
  rw [Block.pstateCode, if_neg (by simp [hret]), if_neg (by simp [hmoving]), if_pos h]

section Idle
variable (hret : b.clk.ret = none) (hmoving : b.clk.moving = none) (h : b.clk.pstate ≠ target)
include hret hmoving h

theorem Block.pstateCode_job (hjob : ∃ p < 8, ((target = 1 ∨ target = 2) ∧ 2 ≤ (b.gen p).regs.state ∨
    target = 3 ∧ 1 ≤ (b.gen p).regs.state) ∧ (b.gen p).regs.state ≤ 5) : b.pstateCode target = 1 := by
  rw [Block.pstateCode, if_neg (by simp [hret]), if_neg (by simp [hmoving]), if_neg h]
  obtain ⟨p, hp, ⟨hlow, hstate⟩ | ⟨rfl, hstate⟩, hlast⟩ := hjob
  · rw [if_pos (by simpa using ⟨hlow, p, hp, hstate, hlast⟩)]
  · rw [if_neg (by simp), if_pos (by simpa using ⟨p, hp, hstate, hlast⟩)]

theorem Block.pstateCode_allowed (hnone : (∀ p < 8, (b.gen p).regs.state = 0 ∨ 5 < (b.gen p).regs.state) ∨ target = 0) :
    b.pstateCode target = 0 := by
  rw [Block.pstateCode, if_neg (by simp [hret]), if_neg (by simp [hmoving]), if_neg h]
  obtain hidle | rfl := hnone
  · have hjobs (lo : Nat) (hlo : 0 < lo) : (List.range 8).any (fun p =>
        decide (lo ≤ (b.gen p).regs.state) && decide ((b.gen p).regs.state ≤ 5)) = false := by
      simp only [List.any_eq_false, List.mem_range, Bool.and_eq_true, decide_eq_true_eq]
      intro p hp
      have := hidle p hp
      omega
    simp only [hjobs 2 (by decide), hjobs 1 (by decide), Bool.and_false, Bool.false_eq_true, if_false]
  · rfl

end Idle

theorem Block.pstateDone_clk : (b.pstateDone e target).clk =
    { b.clk with pstate := target % 3, moving := none, off := decide (target = 3) } := Block.clkEvent_clk _ _ _ _ _ _ _ _ _

variable {m : PstateRun}

theorem Block.doPstateEntered_none (h : b.clk.moving = none) : b.doPstateEntered e = b := by
  simp only [Block.doPstateEntered, h]

theorem Block.doPstateEntered_active (h : b.clk.moving = some m) (htarget : m.target = 0) :
    b.doPstateEntered e = (b.enterActive e).pstateDone e 0 := by
  simp only [Block.doPstateEntered, h, htarget]

theorem Block.doPstateEntered_hold (h : b.clk.moving = some m) (htarget : m.target = 1) :
    b.doPstateEntered e = (if b.clk.pstate = 2 then (b.enterActive e).enterHold else b.enterHold).pstateDone e 1 := by
  simp only [Block.doPstateEntered, h, htarget]

theorem Block.doPstateEntered_safelight (h : b.clk.moving = some m) (htarget : m.target = 2) :
    b.doPstateEntered e = (b.enterSafelight e m.slLs).pstateDone e 2 := by
  simp only [Block.doPstateEntered, h, htarget]

theorem Block.doPstateEntered_off (h : b.clk.moving = some m) (htarget : m.target = 3) :
    b.doPstateEntered e = { b.pstateDone e 3 with module := { (b.pstateDone e 3).module with up := false } } := by
  simp only [Block.doPstateEntered, h, htarget]

end PowerStates

/-! ## Switches of plate sources (R362) -/

section Switch
variable {b : Block} {e : Env} {p fstep : Nat}

theorem Block.doSwitch_refused {n : Nat} (h : b.switchReqCode p fstep = n) (hn : n ≠ 0) : b.doSwitch e p fstep = b.refuseSwitch e p n := by
  subst h
  exact if_pos hn

theorem Block.doSwitch_schedules (h : b.switchReqCode p fstep = 0) {c : Block} (hc : c = b.retune p fstep) {run : SwitchRun}
    (hrun : run = { fstep := fstep, tick := (e.clk.now / 1000 + 1) * 1000, pf0 := true }) :
    b.doSwitch e p fstep = c.setClk { c.clk with switches := mset none b.clk.switches p (some run) } := by
  subst hc hrun
  exact if_neg (not_not.mpr h)

theorem Block.switchReqCode_badStep (hstep : 18 ≤ fstep) : b.switchReqCode p fstep = 5 := if_pos hstep

variable (hp : p < 8) (hstep : fstep < 18)
include hstep

theorem Block.switchReqCode_noPartition (hplates : b.platesOf p = []) : b.switchReqCode p fstep = 2 :=
  (if_neg (Nat.not_le.mpr hstep)).trans (if_pos (by simp [hplates]))

variable (hplates : b.platesOf p ≠ [])
include hp hplates

theorem Block.switchReqCode_holdsJob (hjob : b.holdsJob p = true) : b.switchReqCode p fstep = 6 := by
  rw [Block.switchReqCode, if_neg (Nat.not_le.mpr hstep), if_neg (by simp [hp, hplates]), if_pos hjob]

variable (hjob : b.holdsJob p = false)
include hjob

theorem Block.switchReqCode_stopped (hstopped : ∃ k ∈ b.platesOf p, ∃ d ∈ plateDoms k, (b.dom d).state ≠ 0) :
    b.switchReqCode p fstep = 3 := by
  rw [Block.switchReqCode, if_neg (Nat.not_le.mpr hstep), if_neg (by simp [hp, hplates]), if_neg (by simp [hjob]),
    if_pos (by simpa using hstopped)]

theorem Block.switchReqCode_runs (hruns : ∀ k ∈ b.platesOf p, ∀ d ∈ plateDoms k, (b.dom d).state = 0) :
    b.switchReqCode p fstep = if (mget none b.clk.switches p).isSome then 4 else 0 := by
  rw [Block.switchReqCode, if_neg (Nat.not_le.mpr hstep), if_neg (by simp [hp, hplates]), if_neg (by simp [hjob]),
    if_neg (by simpa using hruns)]

end Switch

/-! ## Clock failures (R352, R363, R364) -/

section Lost
variable {b : Block} {e : Env} {n : Nat} {missing : Bool}

theorem Block.mgmtTakeover_done (h : b.clk.mgmtH1 = true) : b.mgmtTakeover e = b := if_pos h

theorem Block.mgmtTakeover_moves (h : b.clk.mgmtH1 = false) :
    b.mgmtTakeover e = (b.setClk { b.clk with mgmtH1 := true }).clkEvent e 11 3 15 0xFF 0xFF 0xFFFF [] := if_neg (by simp [h])

/-- A standby PLL takes no domain. -/
theorem Block.lostDoms_standby (hn : n < 16) (hstandby : b.standby (n / 2) = n) : b.lostDoms n = [] := by
  rw [Block.lostDoms, if_pos hn, if_pos hstandby]

/-- The failure of a source: `c` where domains have lost their clock, `d` where stacks and directions are safe, `f` where a PCIe
link is down, `t` where it is recorded. -/
theorem Block.doClockLost_eq {c d f t : Block}
    (hc : c = (b.lostDoms n).foldl (fun (b : Block) d => if (b.dom d).state = 2 then b else b.setDom d { b.dom d with state := 3 })
      ((lostSource b n missing).bumpClk 0x218 1))
    (hd : d = ({ c with mem := { c.mem with hbm := c.mem.hbm.map (fun x =>
      (x.1, if (lostStacks n).contains x.1 then { x.2 with selfRefresh := true } else x.2)) } } : Block).resetPorts e (lostDirs n))
    (hf : f = if n = 30 then d.setPcie false false else if n = 31 then d.setPcie true false else d)
    (ht : t = (f.setClk { f.clk with lost := f.clk.lost.filter (fun x => x ≠ n) ++ [n], alert := f.clk.alert || decide (n ≠ 32)
      }).clkEvent e 1 3 15 n 0xFF 0xFFFF [(28, 1, b2n (!missing))]) :
    b.doClockLost e n missing = if n < 16 ∧ b.standby (n / 2) = n then t.clkEvent e 3 1 15 n 0xFF 0xFFFF []
      else if n = 24 then t.mgmtTakeover e else t := by
  subst hc hd hf ht
  by_cases h : n < 16 ∧ b.standby (n / 2) = n
  · have h24 : n ≠ 24 := by omega
    simp only [Block.doClockLost, h, h24, and_self, decide_true, Bool.and_self, if_true, if_false]
  · have hactive : (decide (n < 16) && decide (b.standby (n / 2) = n)) = false := by simpa using h
    simp only [Block.doClockLost, hactive, h, Bool.false_eq_true, if_false]

end Lost

section Recovery
variable {b : Block} {e : Env} {n : Nat}

theorem Block.doClockRecovery_notLost (h : n ∉ b.clk.lost) : b.doClockRecovery e n = b := if_pos (by simpa using h)

/-- The recovery of a lost source: `c` where it is READY, `d` where that is recorded and its domains are reset, `f` where the
wider reset has begun. -/
theorem Block.doClockRecovery_lost (h : n ∈ b.clk.lost) {c d f : Block}
    (hc : c = if n < 28 then b.setPll n { mget {} b.clk.plls n with lock := true, ready := true }
      else b.setClk { b.clk with
        refs := mset {} b.clk.refs (n - 28) { mget {} b.clk.refs (n - 28) with present := true, ready := true } })
    (hd : d = (recoveryDoms n).foldl (fun (b : Block) d => b.domainReset e d 4)
      ((c.setClk { c.clk with lost := c.clk.lost.filter (fun x => x ≠ n), alert := (c.clk.lost.filter (fun x => x ≠ n)).any (fun x => x ≠ 32)
        }).clkEvent e 2 0 15 n 0xFF 0xFFFF [(28, 1, b.recoveryOf n)]))
    (hf : f = if b.recoveryOf n = 2 then d.resetWithFault e (d.partOfPlate (n / 2)) 4
      else if b.recoveryOf n = 3 then d.retainedReset e 4 else d) :
    b.doClockRecovery e n = f.clocksBack := by
  subst hc hd hf
  exact if_neg (by simpa using h)

/-! ### What each source's recovery is (R364) -/

theorem Block.recoveryOf_standby (hn : n < 16) (h : b.standby (n / 2) = n) : b.recoveryOf n = 0 :=
  (if_pos hn).trans (if_neg (by simp [h]))

theorem Block.recoveryOf_active (hn : n < 16) (h : b.standby (n / 2) ≠ n) (hpart : b.partOfPlate (n / 2) < 8) : b.recoveryOf n = 2 :=
  (if_pos hn).trans (if_pos (by simp [h, hpart]))

theorem Block.recoveryOf_retained (h : (16 ≤ n ∧ n < 24) ∨ n = 24 ∨ n = 26 ∨ n = 28) : b.recoveryOf n = 3 :=
  (if_neg (by omega)).trans (if_pos (by simp; omega))

theorem Block.recoveryOf_domains (h : n = 25 ∨ n = 27 ∨ n = 29 ∨ n = 30 ∨ n = 31) : b.recoveryOf n = 1 := by
  obtain rfl | rfl | rfl | rfl | rfl := h
  all_goals rfl

end Recovery

end Sys2Proof.Machine

namespace Sys2Proof
open Machine

/-- Settles O44: each request by its code, each code by the first check that applies, a rejoin by whether both sides may. -/
theorem domainsGateAndReset : Obligations.DomainsGateAndReset := by
  unfold Obligations.DomainsGateAndReset
  refine ⟨fun s d n c hup => ⟨fun hn hc => ⟨fun hzero => ?gates, fun hcode => ?gateRefused⟩,
      fun hn hc => ⟨fun hzero => ?runs, fun hcode => ?ungateRefused⟩, fun hn hc => ⟨fun hzero => ?starts, fun hcode => ?resetRefused⟩⟩,
    fun b d => ⟨fun hd => ⟨Block.gateCode_noDomain hd, Block.ungateCode_noDomain hd, Block.drstCode_noDomain hd⟩,
      fun hd hhost => ⟨Block.gateCode_notHost hd hhost, Block.ungateCode_notHost hd hhost⟩,
      fun hd hhost hbusy => ⟨Block.gateCode_busy hd hhost hbusy, Block.ungateCode_busy hd hhost hbusy⟩,
      fun hd hhost hfree => ⟨Block.gateCode_childRuns hd hhost hfree, Block.gateCode_noChildRuns hd hhost hfree,
        Block.ungateCode_parentStopped hd hhost hfree, fun hparent n => Block.ungateCode_parentRuns hd hhost hfree hparent⟩,
      Block.drstCode_never,
      fun hhost hret => ⟨Block.drstCode_absorbed hhost hret, fun e => Block.domainReset_absorbed hret⟩⟩,
    fun s d x hup hx => ⟨fun hwaits => ?waits, fun hret hparent hready hisolated => ⟨_, _, rfl, rfl, fun hdrops hsynth => ?silent,
      fun hlost => ?recorded⟩⟩⟩
  case gates => subst hn; rw [exec_gate_up hup, Block.doGate_gates hc hzero]
  case gateRefused => subst hn; rw [exec_gate_up hup, Block.doGate_refused hc hcode, Block.gateRefused]
  case runs => subst hn; rw [exec_ungate_up hup, Block.doUngate_runs hc hzero]
  case ungateRefused => subst hn; rw [exec_ungate_up hup, Block.doUngate_refused hc hcode, Block.gateRefused]
  case starts => subst hn; rw [exec_domainReset_up hup, Block.doDomainReset_starts hc hzero]
  case resetRefused => subst hn; rw [exec_domainReset_up hup, Block.doDomainReset_refused hc hcode]
  case waits => rw [exec_guardRejoined_up hup, Block.doGuardRejoined_waits hx hwaits]
  case silent =>
    rw [exec_guardRejoined_up hup, Block.doGuardRejoined_rejoins hx hret hparent hready hisolated rfl rfl, if_pos ⟨hdrops, hsynth⟩]
    rfl
  case recorded =>
    rw [exec_guardRejoined_up hup, Block.doGuardRejoined_rejoins hx hret hparent hready hisolated rfl rfl, if_neg (not_and_or.mpr hlost)]
    rfl

/-- Settles O45: a request by its code, an entry by its target, a switch by the first check that refuses it. -/
theorem powerStatesChange : Obligations.PowerStatesChange := by
  unfold Obligations.PowerStatesChange
  refine ⟨fun s keep hup target slLs i hi n b hn hb => ⟨fun hzero => ?begins, fun hcode => ?refused⟩,
    fun b target htarget => ⟨Block.pstateCode_retained, Block.pstateCode_moving, Block.pstateCode_holds,
      fun hret hmoving hother => ⟨Block.pstateCode_job hret hmoving hother, Block.pstateCode_allowed hret hmoving hother⟩⟩,
    fun s hup => ⟨fun hnone => ?none, fun m hm => ⟨fun htarget => ?active, fun htarget hother => ?hold, fun htarget hsafe => ?holdFromSafelight,
      fun htarget => ?safelight, fun htarget => ⟨_, exec_pstateEntered_up hup, rfl, ?down, ?off⟩⟩⟩,
    fun b e target => by simp only [Block.pstateDone_clk, and_self],
    fun s p fstep hup => ⟨fun hstep => ?badStep, fun hstep hplates => ?noPartition, fun hstep hplates hjob => ?holdsJob,
      fun hstep hplates hjob hstopped => ?stopped, fun hstep hplates hjob hruns => ⟨fun hsome => ?scheduled,
        fun hnone => ⟨_, _, rfl, rfl, ?schedules⟩⟩⟩⟩
  case begins => subst hn; rw [exec_pstate_up hup hi, Block.doPstate_begins hb hzero]
  case refused => subst hn; rw [exec_pstate_up hup hi, Block.doPstate_refused hb hcode]
  case none => rw [exec_pstateEntered_up hup, Block.doPstateEntered_none hnone]
  case active => rw [exec_pstateEntered_up hup, Block.doPstateEntered_active hm htarget]
  case hold =>
    rw [exec_pstateEntered_up hup, Block.doPstateEntered_hold hm htarget, if_neg hother]
    rfl
  case holdFromSafelight => rw [exec_pstateEntered_up hup, Block.doPstateEntered_hold hm htarget, if_pos hsafe]
  case safelight => rw [exec_pstateEntered_up hup, Block.doPstateEntered_safelight hm htarget]
  case down => rw [Block.doPstateEntered_off hm htarget]
  case off =>
    rw [Block.doPstateEntered_off hm htarget]
    exact congrArg ClockUnit.off Block.pstateDone_clk
  case badStep => rw [exec_switch_up hup, Block.doSwitch_refused (Block.switchReqCode_badStep hstep) (by decide)]
  case noPartition => rw [exec_switch_up hup, Block.doSwitch_refused (Block.switchReqCode_noPartition hstep hplates) (by decide)]
  case holdsJob => rw [exec_switch_up hup, Block.doSwitch_refused (Block.switchReqCode_holdsJob p.isLt hstep hplates hjob) (by decide)]
  case stopped =>
    rw [exec_switch_up hup, Block.doSwitch_refused (Block.switchReqCode_stopped p.isLt hstep hplates hjob hstopped) (by decide)]
  case scheduled =>
    have hcode := Block.switchReqCode_runs p.isLt hstep hplates hjob hruns
    rw [if_pos (Option.isSome_iff_ne_none.mpr hsome)] at hcode
    rw [exec_switch_up hup, Block.doSwitch_refused hcode (by decide)]
  case schedules =>
    have hcode := Block.switchReqCode_runs p.isLt hstep hplates hjob hruns
    rw [hnone] at hcode
    rw [exec_switch_up hup, Block.doSwitch_schedules hcode rfl rfl]
    rfl

/-- Settles O46: a failure by whether the source is a standby PLL or feeds the management core (`Block.doClockLost_eq`), a recovery
by whether the source was lost, and what recovery each source asks for. -/
theorem clocksFailAndRecover : Obligations.ClocksFailAndRecover := by
  unfold Obligations.ClocksFailAndRecover
  refine ⟨fun s n missing b c d hup hb hc hd => ⟨_, rfl, ?lost, fun hother => ?alert,
      fun hn hstandby => ⟨Block.lostDoms_standby hn hstandby, ?standby⟩,
      fun hactive => ⟨fun hn => ?other, fun hn hmoved => ?moved, fun hn hmoves => ?moves⟩⟩,
    fun s n hup => ⟨fun hnot => ?notLost, fun hlost => ⟨_, _, _, rfl, rfl, rfl, ?recovers, by simp⟩⟩,
    fun b n hn => ⟨Block.recoveryOf_standby, Block.recoveryOf_active, Block.recoveryOf_retained, Block.recoveryOf_domains,
      fun hlast => hlast ▸ rfl⟩⟩
  case lost => rw [Block.clkEvent_clk, Block.setClk]
  case alert => simp [Block.clkEvent_clk, Block.setClk, hother]
  case standby => rw [exec_clockLost_up hup, Block.doClockLost_eq hb hc hd rfl, if_pos ⟨hn, hstandby⟩]
  case notLost => rw [exec_clockRecovery_up hup, Block.doClockRecovery_notLost hnot]
  case recovers => rw [exec_clockRecovery_up hup, Block.doClockRecovery_lost hlost rfl rfl rfl]
  all_goals
    have hboth : ¬(n.val < 16 ∧ s.blk.standby (n / 2) = n) := fun h => hactive.elim (Nat.not_le.mpr h.1) (fun hne => hne h.2)
    rw [exec_clockLost_up hup, Block.doClockLost_eq hb hc hd rfl, if_neg hboth]
  case other => rw [if_neg hn]
  case moved => rw [if_pos hn, Block.mgmtTakeover_done hmoved]
  case moves => rw [if_pos hn, Block.mgmtTakeover_moves hmoves]

end Sys2Proof
end

section
/-! PROOFS. Bracketing, proof kernels and the health of rows (R376, R383, R387 to R392). -/
namespace Sys2Proof.Machine

/-! ## The commands on a running module -/

section Commands
variable {s : State} (hup : s.Up)
include hup

theorem exec_bracketCompare_up (k : Nat) (ox : Fin 640) (oy : Fin 512) (equal : Bool) :
    exec (.bracketCompare k ox oy equal) s = .next { s with blk := s.blk.doBracketCompare s.env k ox oy equal } :=
  congrArg Host.Outcome.next (s.onBlock_up _ hup)

theorem exec_bracketVote_up (k : Nat) (vote : Fin 4) :
    exec (.bracketVote k vote) s = .next { s with blk := s.blk.doBracketVote s.env k vote } :=
  congrArg Host.Outcome.next (s.onBlock_up _ hup)

theorem exec_proofKernelDone_up (p : Fin 8) (col : Fin 160) (row : Fin 258) (kernel : Fin 256) (ok : Bool) :
    exec (.proofKernelDone p col row kernel ok) s = .next { s with blk := s.blk.doProofDone s.env p col row kernel ok } :=
  congrArg Host.Outcome.next (s.onBlock_up _ hup)

theorem exec_proofOverdueHour_up : exec .proofOverdueHour s = .next { s with blk := s.blk.doProofOverdue } :=
  congrArg Host.Outcome.next (s.onBlock_up _ hup)

theorem exec_uncorrectedControl_up (kind : Fin 256) :
    exec (.uncorrectedControl kind) s = .next { s with blk := s.blk.doUncorrectedControl s.env kind } :=
  congrArg Host.Outcome.next (s.onBlock_up _ hup)

theorem exec_fogChargeExpiry_up (p : Fin 8) (row : Fin 258) :
    exec (.fogChargeExpiry p row) s = .next { s with blk := s.blk.doFogExpiry p row } :=
  congrArg Host.Outcome.next (s.onBlock_up _ hup)

end Commands

/-! ## Bracketing (R387) -/

section Bracket
variable {b : Block} {e : Env} {k : Nat} {r : Bracket}

theorem Block.doBracketCompare_idle {ox oy : Nat} (equal : Bool)
    (h : mget none b.int.brackets k = none ∨ ∃ r, mget none b.int.brackets k = some r ∧ r.other ≠ none) :
    b.doBracketCompare e k ox oy equal = b := by
  obtain hnone | ⟨r, hr, hother⟩ := h
  · simp only [Block.doBracketCompare, hnone]
  · simp only [Block.doBracketCompare, hr, Option.isSome_iff_ne_none.mpr hother, if_true]

theorem Block.doBracketVote_idle (vote : Nat)
    (h : mget none b.int.brackets k = none ∨ ∃ r, mget none b.int.brackets k = some r ∧ r.other = none) :
    b.doBracketVote e k vote = b := by
  obtain hnone | ⟨r, hr, hother⟩ := h
  · simp only [Block.doBracketVote, hnone]
  · simp only [Block.doBracketVote, hr, hother]

variable (hr : mget none b.int.brackets k = some r)
include hr

theorem Block.doBracketCompare_equal {ox oy : Nat} (hother : r.other = none) :
    b.doBracketCompare e k ox oy true = (b.bumpInt 0x188 1).dropBracket e k r := by
  simp only [Block.doBracketCompare, hr, hother, Option.isSome_none, Bool.false_eq_true, if_false, if_true]

theorem Block.doBracketCompare_differs {ox oy : Nat} (hother : r.other = none) {c d : Block}
    (hc : c = ((b.bumpInt 0x188 1).setBracket k (some { r with other := some (ox, oy) })).bumpInt 0x140 1)
    (hd : d = (c.setCell r.x r.y ((c.cell r.x r.y).count 8 1)).intEvent e 4 (c.fogSev r.part) r.part (plateOf r.x r.y) r.x r.y
      [(32, 2, ox), (34, 2, oy), (36, 1, 0)]) :
    b.doBracketCompare e k ox oy false = if r.part < 8 then d.jobFault e r.part 1 else d := by
  have hsev (x : Cell) : (c.setCell r.x r.y x).fogSev r.part = c.fogSev r.part := rfl
  simp only [Block.doBracketCompare, Block.bracketEvent, hr, hother, ← hc, hsev, ← hd, Option.isSome_none, Bool.false_eq_true, if_false]

theorem Block.doBracketVote_charges {ox oy vote : Nat} (hother : r.other = some (ox, oy)) {c d : Block}
    (hc : c = (b.dropBracket e k r).bracketEvent e r ox oy vote)
    (hd : d = if vote = 1 ∨ vote = 3 then c.chargeCell e r.x r.y else c) :
    b.doBracketVote e k vote = if vote = 2 ∨ vote = 3 then d.chargeCell e ox oy else d := by
  subst hc hd
  simp only [Block.doBracketVote, hr, hother, Bool.or_eq_true, decide_eq_true_eq]

end Bracket

/-! ## Proof kernels (R389, R390) -/

section Proof
variable {b c : Block} {e : Env} {plate col row kernel : Nat}

/-- The end of a proof kernel, with `f again` the block where the run is counted and the repeat noted. -/
theorem Block.doProofDone_eq {k : Nat} (hk : k = (258 * plate + row) * 160 + col) {f : Bool → Block}
    (hf : ∀ again, f again =
      { b.bumpInt 0x158 1 with int := { (b.bumpInt 0x158 1).int with proofTry := mset false b.int.proofTry k again } }) (ok : Bool) :
    b.doProofDone e plate col row kernel ok = if mget false b.int.proofTry k then
      (if ok then (f false).bumpInt 0x150 1 else (f false).proofFailed e plate col row kernel) else f (!ok) := by
  subst hk
  cases hrun : mget false b.int.proofTry ((258 * plate + row) * 160 + col)
  case false => cases ok <;> simp [Block.doProofDone, tryKey, hrun, hf, Block.bumpInt]
  case true => cases ok <;> simp [Block.doProofDone, tryKey, hrun, hf, Block.bumpInt]

variable {part x : Nat} (hc : c = b.bumpInt 0x148 1) (hpart : part = c.partOfPlate plate) (hx : x = 160 * (plate % 4) + col)
include hc hpart hx

theorem Block.proofFailed_spare (hrow : b.logicalRow plate row = none) : b.proofFailed e plate col row kernel =
    (c.intEvent e 5 (c.fogSev part) part plate x 0xFFFF [(32, 2, kernel)]).chargeRow e plate row 1 := by
  have hplate : part = b.partOfPlate plate := by rw [hpart, hc]; rfl
  simp only [Block.proofFailed, ← hplate, ← hc, hrow, plateX, ← hx, Option.isSome_none, Option.map_none, Option.getD_none, Bool.and_false,
    Bool.false_eq_true, if_false]

theorem Block.proofFailed_used {r y : Nat} (hrow : b.logicalRow plate row = some r) (hy : y = 256 * (plate / 4) + r) {d : Block}
    (hd : d = (c.setCell x y ((c.cell x y).count 8 1)).intEvent e 5 (c.fogSev part) part plate x y [(32, 2, kernel)]) :
    b.proofFailed e plate col row kernel = (if part < 8 then d.jobFault e part 1 else d).chargeRow e plate row 1 := by
  have hplate : part = b.partOfPlate plate := by rw [hpart, hc]; rfl
  have hsev (k : Cell) : (c.setCell x y k).fogSev part = c.fogSev part := rfl
  simp only [Block.proofFailed, ← hplate, ← hc, hrow, plateX, plateY, ← hx, ← hy, hsev, ← hd, Option.isSome_some, Option.map_some,
    Option.getD_some, Bool.and_true, decide_eq_true_eq]

end Proof

/-! ## The health of rows (R391, R392) -/

section Rows
variable {b c : Block} {e : Env} {plate row why : Nat} {h : RowHealth} (hh : h = b.rowHealth plate row)
include hh

section Charge
variable (hc : c = b.setRow plate row { h with
  fog := if why = 0 then min 255 (h.fog + 1) else h.fog, proof := if why = 0 then h.proof else min 255 (h.proof + 1), state := max 1 h.state })
include hc

theorem Block.chargeRow_eq : b.chargeRow e plate row why =
    if h.state < 2 ∧ ((why = 0 ∧ b.int.fogLimit ≤ min 255 (h.fog + 1)) ∨ (why = 0 ∧ 0 < h.proof) ∨ why ≠ 0)
    then c.failRow e plate row why else c := by
  subst hh hc
  by_cases hwhy : why = 0
  · simp [Block.chargeRow, hwhy, Block.setRow]
  · simp [Block.chargeRow, hwhy, Block.setRow]

end Charge

theorem Block.doFogExpiry_good (hgood : h.state = 1 ∧ h.fog ≤ 1 ∧ h.proof = 0) :
    b.doFogExpiry plate row = b.setRow plate row { h with fog := 0, state := 0 } := by
  subst hh
  obtain ⟨hstate, hfog, hproof⟩ := hgood
  simp [Block.doFogExpiry, hstate, hproof, Nat.sub_eq_zero_of_le hfog]

theorem Block.doFogExpiry_lowers (hbad : ¬(h.state = 1 ∧ h.fog ≤ 1 ∧ h.proof = 0)) :
    b.doFogExpiry plate row = b.setRow plate row { h with fog := h.fog - 1 } := by
  subst hh
  have hstays : ((b.rowHealth plate row).state = 1 && (b.rowHealth plate row).fog - 1 = 0 && (b.rowHealth plate row).proof = 0) = false := by
    simpa [Nat.sub_eq_zero_iff_le, and_assoc] using hbad
  simp only [Block.doFogExpiry, hstays, Bool.false_eq_true, if_false]

end Rows

end Sys2Proof.Machine

namespace Sys2Proof
open Machine

/-- Settles O51: a comparison and a vote by the record they find, a proof kernel by its outcome and whether it is the repeat, a charge
by whether the row fails for it. -/
theorem fogIsFoundAndCharged : Obligations.FogIsFoundAndCharged := by
  unfold Obligations.FogIsFoundAndCharged
  refine ⟨fun s k ox oy hup => ⟨fun hidle equal => ?compareIdle, fun r b hr hother hb => ⟨?equal, fun c hc => ⟨_, rfl, fun hpart => ?differs,
      fun hpart => ?faults⟩⟩⟩,
    fun s k hup => ⟨fun hidle v => ?voteIdle, fun r ox oy b hr hother hb => ⟨?none, ?sampled, ?recomputing, ?both⟩⟩,
    fun s p col row kernel k b hup hk hb => ⟨fun hfirst => ⟨?passes, ?repeats⟩, fun hagain => ⟨?passesAgain, ?failsAgain,
      fun c part x hc hpart hx => ⟨Block.proofFailed_spare hc hpart hx,
        fun r y hrow hy => ⟨_, rfl, Block.proofFailed_used hc hpart hx hrow hy rfl⟩⟩⟩⟩,
    fun b c e plate row why h hh hc => ⟨fun hstate hwhy => ?fails, fun hstays => ?stays⟩,
    fun s p row h hup hh => ⟨fun hgood => ?good, fun hbad => ?lowers⟩, fun s hup => exec_proofOverdueHour_up hup,
    fun s kind hup => exec_uncorrectedControl_up hup kind⟩
  case compareIdle => rw [exec_bracketCompare_up hup, Block.doBracketCompare_idle equal hidle]
  case equal => rw [exec_bracketCompare_up hup, Block.doBracketCompare_equal hr hother, ← hb, Block.dropBracket]
  case differs =>
    subst hb
    rw [exec_bracketCompare_up hup, Block.doBracketCompare_differs hr hother hc rfl, if_neg (Nat.not_lt.mpr hpart)]
  case faults =>
    subst hb
    rw [exec_bracketCompare_up hup, Block.doBracketCompare_differs hr hother hc rfl, if_pos hpart]
  case voteIdle => rw [exec_bracketVote_up hup, Block.doBracketVote_idle v hidle]
  case none =>
    subst hb
    rw [exec_bracketVote_up hup, Block.doBracketVote_charges hr hother rfl rfl, if_neg (by decide), if_neg (by decide)]
    rfl
  case sampled =>
    subst hb
    rw [exec_bracketVote_up hup, Block.doBracketVote_charges hr hother rfl rfl, if_neg (by decide), if_pos (by decide)]
    rfl
  case recomputing =>
    subst hb
    rw [exec_bracketVote_up hup, Block.doBracketVote_charges hr hother rfl rfl, if_pos (by decide), if_neg (by decide)]
    rfl
  case both =>
    subst hb
    rw [exec_bracketVote_up hup, Block.doBracketVote_charges hr hother rfl rfl, if_pos (by decide), if_pos (by decide)]
    rfl
  case passes | repeats =>
    rw [exec_proofKernelDone_up hup, Block.doProofDone_eq hk hb, hfirst]
    rfl
  case passesAgain | failsAgain =>
    rw [exec_proofKernelDone_up hup, Block.doProofDone_eq hk hb, hagain]
    rfl
  case fails =>
    rw [Block.chargeRow_eq hh hc, if_pos]
    refine ⟨hstate, ?_⟩
    obtain ⟨hfog, hlimit, hcap⟩ | hproof := hwhy
    · exact .inl ⟨hfog, Nat.le_min.mpr ⟨hcap, hlimit⟩⟩
    · exact .inr (.inr hproof)
  case stays =>
    rw [Block.chargeRow_eq hh hc, if_neg]
    rintro ⟨hstate, hwhy⟩
    omega
  case good => rw [exec_fogChargeExpiry_up hup, Block.doFogExpiry_good hh hgood]
  case lowers => rw [exec_fogChargeExpiry_up hup, Block.doFogExpiry_lowers hh hbad]

end Sys2Proof
end

section
/-! PROOFS. Snapshots, contact sheets and breakpoints (R400 to R408). -/
namespace Sys2Proof.Machine

/-! ## The commands -/

theorem State.onObs_early {s : State} (h : s.blk.boot.stage ≠ 6) (f : Env → Block → Block) : s.onObs f = s := by
  cases hup : s.blk.module.up
  · simp [State.onObs, State.onBlock, hup]
  · simp [State.onObs, State.onBlock, hup, h]

theorem exec_snapshotTick_none {s : State} (h : s.blk.obs.snap = none) : exec .snapshotTick s = .next s := by
  have hstays : s.blk.doSnapTick s.env = s.blk := by simp only [Block.doSnapTick, h]
  have hexec : exec .snapshotTick s = .next (s.onBlock (fun e b => b.doSnapTick e)) := by
    show Host.Outcome.next ((s.eventAt (s.blk.obs.snap.map SnapReq.tick)).onBlock _) = _
    rw [h]
    rfl
  rw [hexec, State.onBlock, hstays]
  exact congrArg Host.Outcome.next (ite_self _)

theorem exec_snapshotTick_up {s s' : State} {r : SnapReq} (h : s.blk.obs.snap = some r) (hs : s' = s.eventAt (some r.tick)) (hup : s'.Up) :
    exec .snapshotTick s = .next { s' with blk := s'.blk.doSnapTick s'.env } := by
  subst hs
  refine (congrArg Host.Outcome.next ?_).trans (congrArg Host.Outcome.next (State.onBlock_up _ (fun e b => b.doSnapTick e) hup))
  rw [h]
  rfl

theorem exec_contactSheet_up {s : State} (hup : s.Up) (n : Nat) :
    exec (.contactSheet n) s = .next { s with blk := s.blk.doContactSheet s.env n } := congrArg Host.Outcome.next (s.onBlock_up _ hup)

section Requests
variable {s : State} (hup : s.Up) (hstage : s.blk.boot.stage = 6)
include hup hstage

theorem exec_obsSnapReq_up (p : Fin 256) (cells hub : Bool) :
    exec (.obsSnapReq p cells hub) s = .next { s with blk := s.blk.doSnapReq s.env p cells hub } :=
  congrArg Host.Outcome.next (s.onObs_up _ hup hstage)

theorem exec_obsCsReq_up (scope : Fin 512) (stop : Bool) :
    exec (.obsCsReq scope stop) s = .next { s with blk := s.blk.doCsReq s.env scope stop } :=
  congrArg Host.Outcome.next (s.onObs_up _ hup hstage)

theorem exec_obsBpArm_up (k : Fin 16) (arm sc : Bool) (part : Fin 16) (pl : Fin 8) (cl : Fin 1024) (pc : Fin 2048) :
    exec (.obsBpArm k arm sc part pl cl pc) s = .next { s with blk := s.blk.doBpArm k arm sc part pl cl pc } :=
  congrArg Host.Outcome.next (s.onObs_up _ hup hstage)

theorem exec_obsBpResume_up (m : Fin 256) (n : Nat) :
    exec (.obsBpResume m n) s = .next { s with blk := s.blk.doBpResume s.env m n } :=
  congrArg Host.Outcome.next (s.onObs_up _ hup hstage)

end Requests

/-! ## Snapshots (R405) -/

section Snapshot
variable {b : Block} {e : Env} {plates : Nat} {cells hub : Bool}

theorem Block.doSnapReq_busy (h : b.obs.snap ≠ none) : b.doSnapReq e plates cells hub = b.bumpObs 0x428 1 :=
  if_pos (Option.isSome_iff_ne_none.mpr h)

theorem Block.doSnapReq_schedules (h : b.obs.snap = none) (hplates : plates < 256) {t : Nat}
    (hahead : e.clk.now < b.obs.snapTick → t = b.obs.snapTick) (hpassed : b.obs.snapTick ≤ e.clk.now → t = e.clk.now + 1) :
    b.doSnapReq e plates cells hub =
      b.setObs { b.obs with snap := some { tick := t, plates := plates, cells := cells, hub := hub } } := by
  have ht : t = if e.clk.now < b.obs.snapTick then b.obs.snapTick else e.clk.now + 1 := by
    split
    case isTrue hlt => exact hahead hlt
    case isFalse hnlt => exact hpassed (Nat.not_lt.mp hnlt)
  rw [Block.doSnapReq, if_neg (by simp [h]), ← ht, Nat.mod_eq_of_lt hplates]

theorem Block.doSnapTick_latches {r : SnapReq} (h : b.obs.snap = some r) {l : List (Nat × Nat)} (hl : l = b.snapEntries e r) :
    b.doSnapTick e =
      (b.setObs { b.obs with snap := none, snapTrunc := decide (65536 < l.length), snapBuf := l.take 65536 }).post e
        { cls := 0, sev := 0, code := 0x106, part := 15, source := 0x1F
          payload := [(25, 1, if 65536 < l.length then 1 else 0), (28, 4, min 65536 l.length)] } := by
  subst hl
  have htrunc : b2n (decide (65536 < (b.snapEntries e r).length)) = if 65536 < (b.snapEntries e r).length then 1 else 0 := by
    simp only [b2n, decide_eq_true_eq]
  simp only [Block.doSnapTick, h, htrunc, List.length_take]

end Snapshot

/-! ## Requests for contact sheets (R406) -/

section SheetRequest
variable {b : Block} {e : Env} {r : SheetReq}

theorem Block.doCsReq_asks {scope : Nat} (hscope : scope < 512) {stop : Bool}
    (hr : r = { trigger := 1, scope := scope, stop := stop, tick := e.clk.now, queue := 0, seq := 0 }) :
    b.doCsReq e scope stop = b.askSheet e r := by
  rw [Block.doCsReq, Nat.mod_eq_of_lt hscope, hr]

theorem Block.askSheet_begins (h : b.obs.sheet = none) : b.askSheet e r = b.startSheet e r := by
  simp only [Block.askSheet, h]

variable {q : SheetReq} (hq : b.obs.sheet = some q)
include hq

theorem Block.askSheet_served (htrigger : r.trigger = 1)
    (hwithin : bit q.scope 8 = true ∨ (bit r.scope 8 = false ∧ r.scope % 256 &&& q.scope % 256 = r.scope % 256)) :
    b.askSheet e r = b := by
  have h : (bit q.scope 8 || (!bit r.scope 8 && decide (r.scope % 256 &&& q.scope % 256 = r.scope % 256))) = true := by simpa using hwithin
  simp only [Block.askSheet, hq, h, htrigger, Bool.not_true, Bool.false_eq_true, if_false, if_true]

theorem Block.askSheet_waits (hq8 : bit q.scope 8 = false)
    (hbeyond : bit r.scope 8 = true ∨ r.scope % 256 &&& q.scope % 256 ≠ r.scope % 256) :
    b.askSheet e r = b.setObs { b.obs with waiting := b.obs.waiting ++ [r] } := by
  have h : (bit q.scope 8 || (!bit r.scope 8 && decide (r.scope % 256 &&& q.scope % 256 = r.scope % 256))) = false := by
    rw [hq8, Bool.false_or, Bool.and_eq_false_iff, Bool.not_eq_false', decide_eq_false_iff_not]
    exact hbeyond
  simp only [Block.askSheet, hq, h, Bool.not_false, if_true]

end SheetRequest

/-! ## Taking a contact sheet (R406, R407) -/

/-- A sheet is written into the next free slot, or dropped where every slot is kept. -/
def Block.putSheet (b : Block) (e : Env) (r : SheetReq) : Block :=
  match b.obs.freeSlot with
  | some k =>
    let w := (b.writeSheet e r k).bumpObs 0x400 1
    (w.setObs { w.obs with lastSlot := k, nextSlot := (k + 1) % 8 }).obsEvent e 0x101 1 (sheetPart r.scope) k
      [(25, 1, r.trigger), (28, 2, ((b.scopeStates r.scope).filter (fun x => !stillState x && x ≠ .idle)).length)]
  | none => (b.bumpObs 0x408 1).obsEvent e 0x102 1 (sheetPart r.scope) 0 [(25, 1, r.trigger)]

section Sheet
variable {b : Block} {e : Env} {r : SheetReq} {n : Nat}

theorem Block.putSheet_written {k : Nat} (h : b.obs.freeSlot = some k) {w : Block} (hw : w = (b.writeSheet e r k).bumpObs 0x400 1) :
    b.putSheet e r = (w.setObs { w.obs with lastSlot := k, nextSlot := (k + 1) % 8 }).obsEvent e 0x101 1 (sheetPart r.scope) k
      [(25, 1, r.trigger), (28, 2, ((b.scopeStates r.scope).filter (fun x => !stillState x && x ≠ .idle)).length)] := by
  subst hw
  simp only [Block.putSheet, h]

theorem Block.putSheet_dropped (h : b.obs.freeSlot = none) :
    b.putSheet e r = (b.bumpObs 0x408 1).obsEvent e 0x102 1 (sheetPart r.scope) 0 [(25, 1, r.trigger)] := by
  simp only [Block.putSheet, h]

theorem Block.doContactSheet_none (h : b.obs.sheet = none) : b.doContactSheet e n = b := by
  simp only [Block.doContactSheet, h]

/-- What follows a sheet that was put away: the resume and the resets that its triggers ask for, and the next sheet. -/
def Block.closeSheet (b : Block) (e : Env) (r : SheetReq) (n : Nat) : Block :=
  let c := b.setObs { b.obs with sheet := none, after := [], waiting := b.obs.waiting.drop 1 }
  let d := ((if r.trigger = 0 then [r] else []) ++ b.obs.after).foldl (fun x a => x.afterDeadline e a)
    (if r.trigger = 1 && r.stop then c.resumeScope r.scope n else c)
  match b.obs.waiting with
  | [] => d
  | q :: _ => d.startSheet e q

theorem Block.doContactSheet_taken (hr : b.obs.sheet = some r) : b.doContactSheet e n = (b.putSheet e r).closeSheet e r n := by
  rw [Block.doContactSheet, hr]
  rfl

section Close
variable {c d : Block} (hc : c = b.setObs { b.obs with sheet := none, after := [], waiting := b.obs.waiting.drop 1 })
  (hd : d = ((if r.trigger = 0 then [r] else []) ++ b.obs.after).foldl (fun x a => x.afterDeadline e a)
    (if r.trigger = 1 ∧ r.stop = true then c.resumeScope r.scope n else c))
include hc hd

theorem Block.closeSheet_last (hwaiting : b.obs.waiting = []) : b.closeSheet e r n = d := by
  subst hc hd
  simp only [Block.closeSheet, hwaiting, Bool.and_eq_true, decide_eq_true_eq]

theorem Block.closeSheet_next {q : SheetReq} {l : List SheetReq} (hwaiting : b.obs.waiting = q :: l) :
    b.closeSheet e r n = d.startSheet e q := by
  subst hc hd
  simp only [Block.closeSheet, hwaiting, Bool.and_eq_true, decide_eq_true_eq]

end Close
end Sheet

/-! ## The bytes of a sheet (R407) -/

theorem mget_filter {α : Type} (d : α) (p : Nat → Bool) (m : SMap α) (j : Nat) :
    mget d (m.filter (fun x => p x.1)) j = if p j then mget d m j else d := by
  induction m with
  | nil => simp
  | cons x m ih =>
    obtain ⟨i, v⟩ := x
    by_cases hij : i = j
    · subst hij
      cases hp : p i <;> simp [hp, mget, ih]
    · cases hp : p i <;> simp [hp, mget, ih, hij]

/-- The bytes that `f` gives, one after another from `a` on. -/
theorem mget_foldl_mset (f : Nat → Byte) (m : SMap Byte) (a n x : Nat) :
    mget 0 ((List.range n).foldl (fun m i => mset 0 m (a + i) (f i)) m) x = if a ≤ x ∧ x < a + n then f (x - a) else mget 0 m x := by
  induction n with
  | zero => rw [if_neg (by omega)]; rfl
  | succ n ih =>
    rw [List.range_succ, List.foldl_append, List.foldl_cons, List.foldl_nil, mget_mset, ih]
    by_cases hlast : a + n = x
    · rw [if_pos hlast, if_pos (by omega), ← hlast, Nat.add_sub_cancel_left]
    · rw [if_neg hlast]
      exact if_congr (by omega) rfl rfl

section SheetBytes
variable {b : Block} {e : Env} {r : SheetReq} {k x : Nat}

theorem Block.writeSheet_byte : mget 0 (b.writeSheet e r k).mem.bytes x =
    if sheetAddr k ≤ x ∧ x < sheetAddr k + 0x300000 then b.sheetByte e r (x - sheetAddr k)
    else if sheetAddr k ≤ x ∧ x < sheetAddr k + 0x2000000 then 0 else mget 0 b.mem.bytes x := by
  rw [Block.writeSheet]
  dsimp only
  rw [mget_foldl_mset, mget_filter 0 (fun a => !(decide (sheetAddr k ≤ a) && decide (a < sheetAddr k + 0x2000000)))]
  refine if_congr Iff.rfl rfl ?_
  by_cases hwindow : sheetAddr k ≤ x ∧ x < sheetAddr k + 0x2000000
  · rw [if_neg (by simpa using hwindow), if_pos hwindow]
  · rw [if_pos (by simp only [Bool.not_eq_true', Bool.and_eq_false_iff, decide_eq_false_iff_not]; omega), if_neg hwindow]

theorem Block.writeSheet_byte_outside (h : x < sheetAddr k ∨ sheetAddr k + 0x2000000 ≤ x) :
    mget 0 (b.writeSheet e r k).mem.bytes x = mget 0 b.mem.bytes x := by
  rw [Block.writeSheet_byte, if_neg (by omega), if_neg (by omega)]

theorem Block.writeSheet_byte_inside {o : Nat} (ho : o < 0x2000000) :
    mget 0 (b.writeSheet e r k).mem.bytes (sheetAddr k + o) = if o < 0x300000 then b.sheetByte e r o else 0 := by
  rw [Block.writeSheet_byte, if_pos (c := _ ∧ _ < _ + 0x2000000) (by omega), Nat.add_sub_cancel_left]
  by_cases hsection : o < 0x300000
  · rw [if_pos (by omega), if_pos hsection]
  · rw [if_neg (by omega), if_neg hsection]

theorem Block.writeSheet_rest : b.writeSheet e r k = { b with mem := { b.mem with
    bytes := (b.writeSheet e r k).mem.bytes, poison := (b.writeSheet e r k).mem.poison } } := by
  rw [Block.writeSheet]

end SheetBytes

/-! ## Breakpoints (R408) -/

section Breakpoint
variable {b : Block} {k part plate cluster pc : Nat} {arm scope : Bool} {u : BpUnit}

section Arm
variable (hu : u = { b.bp k with arm := arm, scope := scope, part := part, plate := plate, cluster := cluster, pc := pc })
include hu

theorem Block.doBpArm_disarms (harm : arm = false) :
    b.doBpArm k arm scope part plate cluster pc = b.setBp k { u with state := 0, reason := 0 } := by
  subst hu harm
  simp only [Block.doBpArm, Bool.not_false, if_true]

theorem Block.doBpArm_arms (harm : arm = true) (h : b.armRefusal u = 0) :
    b.doBpArm k arm scope part plate cluster pc = b.setBp k { u with state := 1, reason := 0, hits := 0 } := by
  subst hu harm
  simp only [Block.doBpArm, Bool.not_true, Bool.false_eq_true, h, if_false, if_true]

theorem Block.doBpArm_refused (harm : arm = true) (h : b.armRefusal u ≠ 0) :
    b.doBpArm k arm scope part plate cluster pc = b.setBp k { u with state := 5, reason := b.armRefusal u } := by
  subst hu harm
  simp only [Block.doBpArm, Bool.not_true, Bool.false_eq_true, h, if_false]

end Arm

theorem Block.armRefusal_noPartition (h : 8 ≤ u.part) : b.armRefusal u = 3 := if_pos h

theorem Block.armRefusal_manyDevices (hpart : u.part < 8) (h : 1 < (b.gen u.part).job.devices.length) : b.armRefusal u = 1 :=
  (if_neg (Nat.not_le.mpr hpart)).trans (if_pos h)

theorem Block.armRefusal_oneDevice (hpart : u.part < 8) (h : (b.gen u.part).job.devices.length ≤ 1) :
    b.armRefusal u = if b.holdsPlate u.part u.plate = true ∧ u.cluster < 640 then 0 else 2 := by
  rw [Block.armRefusal, if_neg (Nat.not_le.mpr hpart), if_neg (Nat.not_lt.mpr h)]
  by_cases hinside : b.holdsPlate u.part u.plate = true ∧ u.cluster < 640
  · rw [if_pos hinside, if_neg (by simpa using hinside)]
  · rw [if_neg hinside, if_pos]
    rw [Bool.or_eq_true, Bool.not_eq_true', decide_eq_true_eq, ← Nat.not_lt, ← Bool.not_eq_true]
    exact not_and_or.mp hinside

theorem Block.doBpResume_eq {e : Env} (m n : Nat) :
    b.doBpResume e m n = ((List.finRange 8).filter (fun p => bit m p.val)).foldl (fun b p => b.resumePart e p n) b :=
  List.foldl_filter.symm

theorem foldl_eq_self {α β : Type} {f : β → α → β} {b : β} {l : List α} (h : ∀ x ∈ l, f b x = b) : l.foldl f b = b := by
  induction l with
  | nil => rfl
  | cons x l ih =>
    rw [List.foldl_cons, h x List.mem_cons_self]
    exact ih (fun y hy => h y (List.mem_cons_of_mem _ hy))

/-- A resume of a partition without units that stopped it, stopped time or a slice that is over only restarts its regions. -/
theorem Block.resumePart_restarts {c : Block} {e : Env} {p : Fin 8} {n : Nat}
    (hc : c = (b.liveRegions p).foldl (fun b i => b.doResumeStop ⟨p, i⟩ n) b)
    (hunits : ∀ k < 16, ¬((c.bp k).part = p.val ∧ (c.bp k).state = 3)) (hsince : mget 0 c.obs.bpFrom p = 0)
    (hslice : (c.engine (mget ({} : Part) c.fe.parts p).first).sliceOver = false) (hfrom : c.obs.bpFrom = mset 0 c.obs.bpFrom p 0) :
    b.resumePart e p n = c := by
  have hkept : (List.range 16).foldl (fun (b : Block) k =>
      if (b.bp k).part = p.val && (b.bp k).state = 3 then b.setBp k { b.bp k with state := 1, hits := 0 } else b) c = c :=
    foldl_eq_self fun k hk => if_neg (by simpa using hunits k (List.mem_range.mp hk))
  rw [Block.resumePart, ← hc]
  dsimp only
  rw [hkept, if_pos hsince, ← hfrom]
  exact if_neg (by simp only [Block.setObs]; exact ne_true_of_eq_false hslice)

end Breakpoint

end Sys2Proof.Machine

namespace Sys2Proof
open Machine

/-- Settles O52: snapshots by whether one is busy, contact sheets by the sheet being taken and the free slots, the bytes of a sheet by
its window (`Block.writeSheet_byte`), breakpoints by what refuses them. -/
theorem observationActs : Obligations.ObservationActs := by
  unfold Obligations.ObservationActs
  refine ⟨fun s p cells hub scope stop u arm sc part pl cl pc m n hstage => ⟨?snapEarly, ?sheetEarly, ?armEarly, ?resumeEarly⟩,
    fun s p cells hub hup hstage => ⟨fun hbusy => ?busy, fun hfree t hahead hpassed => ?schedules⟩,
    fun s => ⟨exec_snapshotTick_none, fun r s' hr hs hup hsnap l hl => ?latches⟩,
    fun s scope stop r hup hstage hr => ⟨fun hnone => ⟨_, rfl, ?begins⟩, fun q hq => ⟨fun hwithin => ?served, fun hq8 hbeyond => ?waits⟩⟩,
    fun s n hup => ⟨fun hnone => ?noSheet, fun r b c d live hr hlive hwritten hdropped hc hd => ?taken⟩,
    fun b c e r k hc => ⟨fun a ha => ?outside, fun o ho => ?inside, ?frame⟩,
    fun s k sc part pl cl pc u hup hstage hu => ⟨?disarms, fun c hc => ⟨fun hzero => ?arms, fun hcode => ?refused, fun hpart => ?noPartition,
      fun hpart hmany => ?manyDevices, fun hpart hone => ?oneDevice⟩⟩,
    fun s m n hup hstage => ?resumes, fun b c e p n => Block.resumePart_restarts⟩
  case snapEarly | sheetEarly | armEarly | resumeEarly => exact congrArg Host.Outcome.next (State.onObs_early hstage _)
  case busy => rw [exec_obsSnapReq_up hup hstage, Block.doSnapReq_busy hbusy, Block.bumpObs]
  case schedules =>
    rw [exec_obsSnapReq_up hup hstage, Block.doSnapReq_schedules hfree p.isLt hahead hpassed, Block.setObs]
  case latches => rw [exec_snapshotTick_up hr hs hup, Block.doSnapTick_latches hsnap hl, Block.setObs]
  case begins =>
    rw [exec_obsCsReq_up hup hstage, Block.doCsReq_asks scope.isLt hr, Block.askSheet_begins hnone, hr]
    rfl
  case served =>
    have hserved : s.blk.askSheet s.env r = s.blk := Block.askSheet_served hq (by rw [hr]) (by rw [hr]; exact hwithin)
    rw [exec_obsCsReq_up hup hstage, Block.doCsReq_asks scope.isLt hr, hserved]
  case waits =>
    have hlater : s.blk.askSheet s.env r = s.blk.setObs { s.blk.obs with waiting := s.blk.obs.waiting ++ [r] } :=
      Block.askSheet_waits hq hq8 (by rw [hr]; exact hbeyond)
    rw [exec_obsCsReq_up hup hstage, Block.doCsReq_asks scope.isLt hr, hlater, Block.setObs]
  case noSheet => rw [exec_contactSheet_up hup, Block.doContactSheet_none hnone]
  case taken =>
    have hb : b = s.blk.putSheet s.env r := by
      subst hlive
      cases hslot : s.blk.obs.freeSlot with
      | none => rw [Block.putSheet_dropped hslot, hdropped hslot]
      | some k => rw [Block.putSheet_written hslot rfl, hwritten k _ hslot rfl]
    refine ⟨fun hlast => ?last, fun q l hnext => ?next⟩
    case last => rw [exec_contactSheet_up hup, Block.doContactSheet_taken hr, ← hb, Block.closeSheet_last hc hd hlast]
    case next => rw [exec_contactSheet_up hup, Block.doContactSheet_taken hr, ← hb, Block.closeSheet_next hc hd hnext]
  case outside => rw [hc, Block.writeSheet_byte_outside ha]
  case inside => rw [hc, Block.writeSheet_byte_inside ho]
  case frame => rw [hc]; exact Block.writeSheet_rest
  case disarms => rw [exec_obsBpArm_up hup hstage, Block.doBpArm_disarms (hu false) rfl]
  case arms => rw [exec_obsBpArm_up hup hstage, Block.doBpArm_arms (hu true) rfl (hc ▸ hzero)]
  case refused => rw [exec_obsBpArm_up hup hstage, Block.doBpArm_refused (hu true) rfl (hc ▸ hcode), hc]
  case noPartition => rw [hc, hu, Block.armRefusal_noPartition hpart]
  case manyDevices => rw [hc, hu, Block.armRefusal_manyDevices hpart hmany]
  case oneDevice => rw [hc, hu, Block.armRefusal_oneDevice hpart hone]
  case resumes => rw [exec_obsBpResume_up hup hstage, Block.doBpResume_eq]

end Sys2Proof
end

section
/-! PROOFS. The module: sensors, TLIMIT, supply, RESET_N and the TAP (R419 to R436). -/
namespace Sys2Proof.Machine

/-! ## The commands -/

section Commands
variable {s : State}

theorem exec_modulePowerUp : exec .modulePowerUp s = .next { s with blk := s.blk.doPowerUp } := rfl
theorem exec_powerFail : exec .powerFail s = .next { s with blk := s.blk.doPowerFail } := rfl
theorem exec_resetNAssertion : exec .resetNAssertion s = .next { s with blk := s.blk.doResetAssert } := rfl

section Up
variable (hup : s.Up)
include hup

theorem exec_inputLow_up : exec .inputLow s = .next { s with blk := s.blk.doInputLow s.env } := congrArg Host.Outcome.next (s.onBlock_up _ hup)
theorem exec_inputHigh_up : exec .inputHigh s = .next { s with blk := s.blk.doInputHigh s.env } := congrArg Host.Outcome.next (s.onBlock_up _ hup)

end Up

section Sampled
variable {s' : State} {rs : List Reading} (hs : s' = s.eventAt (some (s.slot 100)))
include hs

theorem exec_thermalSample_unpowered (h : s'.blk.module.powered = false) : exec (.thermalSample rs) s = .next s' := by
  subst hs
  exact congrArg Host.Outcome.next (if_neg (by simp [h]))

theorem exec_thermalSample_powered (h : s'.blk.module.powered = true) :
    exec (.thermalSample rs) s = .next { s' with blk := s'.blk.doThermalSample s'.env rs } := by
  subst hs
  exact congrArg Host.Outcome.next (if_pos h)

end Sampled

theorem exec_tlimitUpdate_up {s' : State} (hs : s' = s.eventAt (some (s.slot 100000))) (hup : s'.Up) :
    exec .tlimitUpdate s = .next { s' with blk := s'.blk.doTlimit s'.env } := by
  subst hs
  exact congrArg Host.Outcome.next (State.onBlock_up _ _ hup)

section Tap
variable (hpower : s.blk.module.powered = true)
include hpower

theorem exec_bypass_powered : exec .bypass s = .next { s with blk := s.blk.doBypass } := congrArg Host.Outcome.next (s.onTap_up _ hpower)
theorem exec_idcode_powered : exec .idcode s = .next { s with blk := s.blk.doIdcode } := congrArg Host.Outcome.next (s.onTap_up _ hpower)
theorem exec_sample_powered : exec .sample s = .next { s with blk := s.blk.doSample } := congrArg Host.Outcome.next (s.onTap_up _ hpower)
theorem exec_extest_powered : exec .extest s = .next { s with blk := s.blk.doExtest } := congrArg Host.Outcome.next (s.onTap_up _ hpower)

end Tap

theorem exec_tap_unpowered (hpower : s.blk.module.powered = false) {i : Instr} (hi : i ∈ [Instr.bypass, .idcode, .sample, .extest]) :
    exec i s = .next s := by
  have htap (f : Block → Block) : s.onTap f = s := if_neg (by simp [hpower])
  simp only [List.mem_cons, List.not_mem_nil, or_false] at hi
  obtain rfl | rfl | rfl | rfl := hi
  all_goals exact congrArg Host.Outcome.next (htap _)

end Commands

/-! ## One reading (R428, R429) -/

theorem mem_setIn {l : List Nat} {k j : Nat} {on : Bool} : j ∈ setIn l k on ↔ if j = k then on = true else j ∈ l := by
  cases on <;> by_cases hj : j = k <;> simp [setIn, hj]

theorem heldAt_iff {was : Bool} {limit : Option Int} {t : Int} :
    heldAt was limit t = true ↔ ∃ l, limit = some l ∧ (l ≤ t ∨ (was = true ∧ l - 3 < t)) := by
  cases limit with
  | none => simp [heldAt]
  | some l => simp [heldAt]

/-- Whether a temperature is at or above a threshold. -/
def reaches (limit : Option Int) (t : Int) : Bool :=
  match limit with
  | none => false
  | some l => decide (l ≤ t)

/-- The module after a reading. -/
def Module.taking (m : Module) (r : Reading) : Module :=
  let k := sensorKey r.cls r.index
  { m with
    temps := mset none m.temps k (some r.temp)
    warm := setIn m.warm k (heldAt (m.warm.contains k) (warnAt r.cls) r.temp)
    hot := setIn m.hot k (heldAt (m.hot.contains k) (throttleAt r.cls) r.temp)
    tripRuns := mset 0 m.tripRuns k (if reaches (tripAt r.cls) r.temp then mget 0 m.tripRuns k + 1 else 0) }

section Taking
variable {m : Module} {r : Reading} {k : Nat} (hk : k = sensorKey r.cls r.index)

theorem Module.taking_temp : (m.taking r).temp r.cls r.index = some r.temp := by
  simp only [Module.temp, Module.taking, mget_mset_self]

include hk

theorem Module.mem_taking_warm : k ∈ (m.taking r).warm ↔ heldAt (m.warm.contains k) (warnAt r.cls) r.temp = true := by
  subst hk
  exact mem_setIn.trans (by rw [if_pos rfl])

theorem Module.taking_warm : k ∈ (m.taking r).warm ↔ ∃ l, warnAt r.cls = some l ∧ (l ≤ r.temp ∨ (k ∈ m.warm ∧ l - 3 < r.temp)) := by
  rw [Module.mem_taking_warm hk, heldAt_iff, List.contains_iff_mem]

theorem Module.taking_hot : k ∈ (m.taking r).hot ↔ ∃ l, throttleAt r.cls = some l ∧ (l ≤ r.temp ∨ (k ∈ m.hot ∧ l - 3 < r.temp)) := by
  subst hk
  refine mem_setIn.trans ?_
  rw [if_pos rfl, heldAt_iff, List.contains_iff_mem]

theorem Module.taking_tripRuns {l : Int} (hl : tripAt r.cls = some l) :
    mget 0 (m.taking r).tripRuns k = if l ≤ r.temp then mget 0 m.tripRuns k + 1 else 0 := by
  subst hk
  simp only [Module.taking, mget_mset_self, hl, reaches, decide_eq_true_eq]

theorem Module.taking_others {j : Nat} (hj : j ≠ k) :
    mget none (m.taking r).temps j = mget none m.temps j ∧ (j ∈ (m.taking r).warm ↔ j ∈ m.warm) ∧ (j ∈ (m.taking r).hot ↔ j ∈ m.hot) ∧
      mget 0 (m.taking r).tripRuns j = mget 0 m.tripRuns j := by
  subst hk
  simp only [Module.taking, mget_mset_other _ _ _ _ _ (Ne.symm hj), mem_setIn, hj, if_false, and_self]

end Taking

section Reading
variable {b : Block} {e : Env} {r : Reading} {k : Nat}

/-- A reading stores its temperature and states; one that enters warning in a running module is recorded. -/
theorem Block.takeReading_eq (hk : k = sensorKey r.cls r.index) : b.takeReading e r =
    if k ∉ b.module.warm ∧ k ∈ (b.module.taking r).warm ∧ b.module.up = true then
      ({ b with module := b.module.taking r } : Block).moduleEvent e (if r.cls = 4 then 0x207 else 0x201) 1 r.cls r.index (twos 16 r.temp)
        (if r.cls = 4 then [(32, 2, twos 16 (((b.module.taking r).temp 5 0).getD 0))] else [])
    else { b with module := b.module.taking r } := by
  have hcls : r.cls = 4 ↔ r.cls.val = 4 := Fin.ext_iff
  unfold Block.takeReading
  extract_lets m key warm hot trips c
  have henters : (warm && !m.warm.contains key && m.up) = true ↔
      k ∉ b.module.warm ∧ k ∈ (b.module.taking r).warm ∧ b.module.up = true := by
    rw [Module.mem_taking_warm hk, hk, ← List.contains_iff_mem, Bool.not_eq_true, Bool.and_eq_true, Bool.and_eq_true, Bool.not_eq_true',
      and_comm (a := warm = true), and_assoc]
  have htrips : trips = reaches (tripAt r.cls) r.temp := by cases hlimit : tripAt r.cls <;> simp [trips, reaches, hlimit]
  have hc : c = { b with module := b.module.taking r } := by
    clear_value trips
    subst htrips
    rfl
  rw [hc]
  by_cases hrecord : k ∉ b.module.warm ∧ k ∈ (b.module.taking r).warm ∧ b.module.up = true
  · rw [if_pos (henters.mpr hrecord), if_pos hrecord]
    by_cases hinlet : r.cls = 4
    · rw [if_pos (hcls.mp hinlet), if_pos hinlet, if_pos hinlet]
    · rw [if_neg (fun h => hinlet (hcls.mpr h)), if_neg hinlet, if_neg hinlet]
  · rw [if_neg (fun h => hrecord (henters.mp h)), if_neg hrecord]

theorem Block.takeReading_module : (b.takeReading e r).module = b.module.taking r := by
  rw [Block.takeReading_eq rfl]
  split
  · exact (post_reports _ _ _).module_eq
  · rfl

end Reading

/-! ## A sample of all sensors (R428, R431) -/

section Sample
variable {b c : Block} {e : Env} {rs : List Reading} (hc : c = rs.foldl (fun b r => b.takeReading e r) b)
include hc

theorem Block.doThermalSample_trips (hup : c.module.up = true) (htherm : c.module.therm = false) {k n : Nat}
    (hrun : c.module.tripRuns.find? (fun x => decide (3 ≤ x.2)) = some (k, n)) :
    b.doThermalSample e rs = { c with module := { c.module with
      up := false, therm := true, trip := some { cls := k / 256, index := k % 256, temp := twos 8 ((mget none c.module.temps k).getD 0) } } } := by
  simp only [Block.doThermalSample, ← hc, hrun, hup, htherm, Bool.not_true, Bool.or_self, Bool.false_eq_true, if_false]
  rfl

theorem Block.doThermalSample_releases
    (h : c.module.up = false ∨ c.module.therm = true ∨ c.module.tripRuns.find? (fun x => decide (3 ≤ x.2)) = none) :
    b.doThermalSample e rs = if c.module.heldReset = true ∧ c.module.cool = true
      then { c with module := { c.module with heldReset := false, therm := false } } else c := by
  have hrelease : c.releaseTrip = if c.module.heldReset = true ∧ c.module.cool = true
      then { c with module := { c.module with heldReset := false, therm := false } } else c := by
    simp only [Block.releaseTrip, Bool.and_eq_true, Block.setModule]
  rw [Block.doThermalSample, ← hc, ← hrelease]
  cases hrun : c.module.tripRuns.find? (fun x => decide (3 ≤ x.2)) with
  | none => rfl
  | some x =>
    refine if_pos ?_
    obtain hdown | htherm | hnone := h
    · simp [hdown]
    · simp [htherm]
    · simp [hrun] at hnone

end Sample

/-! ## TLIMIT (R430) -/

/-- The first sensor at or above its throttle threshold. -/
def Module.hotSensor (m : Module) : Option (Nat × Option Int) :=
  m.temps.find? (fun x => match x.2, throttleAt (x.1 / 256) with | some t, some l => decide (l ≤ t) | _, _ => false)

section Tlimit
variable {b : Block} {e : Env} {m : Module} {t : Nat} (hm : m = b.module)
include hm

section Falls
variable (hthrottling : m.throttling = true)
  (ht : t = max 1500 (min m.tlimit (if b.tim.msMeans = [] then m.tlimit else mean b.tim.msMeans) - 100))
include hthrottling ht

theorem Block.doTlimit_fallsOn (hthrottled : m.throttled = true) :
    b.doTlimit e = ({ b with module := { m with tlimit := t } } : Block).relimit e.clk.now := by
  subst hm ht
  simp only [Block.doTlimit, hthrottling, hthrottled, if_true, List.isEmpty_iff, Block.setModule]

theorem Block.doTlimit_fallsFirst (hthrottled : m.throttled = false) {k : Nat} {v : Option Int} (hhot : m.hotSensor = some (k, v)) :
    b.doTlimit e = (({ b with module := { m with tlimit := t, throttled := true, throttleFrom := e.clk.now } } : Block).moduleEvent e 0x202 1
      (k / 256) (k % 256) (twos 16 ((m.temp (k / 256) (k % 256)).getD 0)) [(32, 2, t)]).relimit e.clk.now := by
  have hk : k = (m.hotSensor.map Prod.fst).getD 0 := by rw [hhot]; rfl
  subst hm ht hk
  simp only [Block.doTlimit, hthrottling, hthrottled, if_true, Bool.false_eq_true, if_false, List.isEmpty_iff, Block.setModule]
  rfl

end Falls

variable (hthrottling : m.throttling = false)
include hthrottling

section Rises
variable (hbelow : m.wellBelow = true) (hlow : m.tlimit < 6900)
  (ht : t = min 6900 (m.tlimit + (if b.boot.profile.mains60 then 6 else 5) * b.tim.slew))
include hbelow hlow ht

theorem Block.doTlimit_rises (hpart : t < 6900) :
    b.doTlimit e = ({ b with module := { m with tlimit := t } } : Block).relimit e.clk.now := by
  have hmin : min 6900 (m.tlimit + b.mainsCycles * b.tim.slew) = t := ht.symm
  have hne : t ≠ 6900 := Nat.ne_of_lt hpart
  subst hm
  simp only [Block.doTlimit, hthrottling, hbelow, hlow, hmin, hne, hpart, decide_true, decide_false, Bool.and_true, Bool.false_and,
    Bool.false_eq_true, if_false, if_true, Block.setModule]

theorem Block.doTlimit_full (hfull : t = 6900) {c : Block} (hc : c = { b with module := { m with tlimit := t, throttled := false } }) :
    b.doTlimit e = (if m.throttled then c.moduleEvent e 0x203 0 0xFF 0 0 [(32, 8, (e.clk.now - m.throttleFrom) / 1000)] else c).relimit
      e.clk.now := by
  have hmin : min 6900 (m.tlimit + b.mainsCycles * b.tim.slew) = 6900 := ht.symm.trans hfull
  subst hm hc hfull
  simp only [Block.doTlimit, hthrottling, hbelow, hlow, hmin, Nat.lt_irrefl, decide_true, decide_false, Bool.and_true, Bool.and_false,
    Bool.true_and, Bool.false_eq_true, if_false, if_true, Block.setModule]

end Rises

theorem Block.doTlimit_holds (hhold : m.wellBelow = false ∨ 6900 ≤ m.tlimit) : b.doTlimit e = b := by
  subst hm
  refine (if_neg (by simp [hthrottling])).trans (if_neg ?_)
  obtain hnear | hhigh := hhold
  · simp [hnear]
  · simp [Nat.not_lt.mpr hhigh]

end Tlimit

/-! ## Supply (R421, R423) -/

section Supply
variable {b : Block} {e : Env}

theorem Block.doPowerUp_powered (h : b.module.powered = true) : b.doPowerUp = b := if_pos h

theorem Block.doPowerUp_unpowered (h : b.module.powered = false) : b.doPowerUp =
    { b with module := { powered := true, up := false, resetLow := b.module.resetLow, tap := b.module.tap } } := if_neg (by simp [h])

variable {v sec : Nat} (hv : v = b.tim.vin) (hsec : sec = e.clk.now / 1000000 + 1)
include hv hsec

theorem Block.doInputLow_records (hlo : 4200 ≤ v) (hhi : v < 4800) (hnew : b.module.lowAt ≠ sec) : b.doInputLow e =
    ({ b with module := { b.module with lowAt := sec } } : Block).moduleEvent e 0x205 1 0xFF 0 v [(32, 2, min 0xFFFF b.ilimit)] := by
  subst hv hsec
  exact if_pos (by simp [hlo, hhi, hnew])

theorem Block.doInputLow_silent (h : v < 4200 ∨ 4800 ≤ v ∨ b.module.lowAt = sec) : b.doInputLow e = b := by
  subst hv hsec
  refine if_neg ?_
  simp only [Bool.and_eq_true, decide_eq_true_eq]
  omega

theorem Block.doInputHigh_records (hhi : 6200 < v) (hnew : b.module.highAt ≠ sec) : b.doInputHigh e =
    ({ b with module := { b.module with highAt := sec } } : Block).moduleEvent e 0x206 1 0xFF 0 v [] := by
  subst hv hsec
  exact if_pos (by simp [hhi, hnew])

theorem Block.doInputHigh_silent (h : v ≤ 6200 ∨ b.module.highAt = sec) : b.doInputHigh e = b := by
  subst hv hsec
  refine if_neg ?_
  simp only [Bool.and_eq_true, decide_eq_true_eq]
  omega

end Supply

/-! ## RESET_N and the TAP (R419, R431) -/

/-- RESET_N low takes the rails down; it stays held, and the trip with it, while a tripped module is not cool. -/
theorem Block.doResetAssert_eq (b : Block) : b.doResetAssert = { b with
    boot := { b.boot with retainedAsked := none }
    module := { b.module with
      resetLow := true, heldReset := b.module.therm && !b.module.cool, therm := b.module.therm && !b.module.cool, up := false } } := by
  have hwaits : b.doResetAssert = ({ b with
      boot := { b.boot with retainedAsked := none }
      module := { b.module with resetLow := true, heldReset := b.module.therm, up := false } } : Block).releaseTrip := rfl
  have hcool : ({ b.module with resetLow := true, heldReset := b.module.therm, up := false } : Module).cool = b.module.cool := rfl
  rw [hwaits, Block.releaseTrip]
  dsimp only
  rw [hcool]
  cases b.module.therm <;> cases b.module.cool <;> rfl

theorem Block.doExtest_eq (b : Block) : b.doExtest = b.setTap (if b.module.resetLow then 3 else 0) := (apply_ite b.setTap _ _ _).symm

end Sys2Proof.Machine

namespace Sys2Proof
open Machine

/-- Settles O53: a reading by `Module.taking` and `Block.takeReading_eq`, a sample by whether it trips, TLIMIT by the thermal state, the
supply and RESET_N by what they find. -/
theorem moduleIsSuppliedAndCooled : Obligations.ModuleIsSuppliedAndCooled := by
  unfold Obligations.ModuleIsSuppliedAndCooled
  refine ⟨fun b c e r k hc hk => ?reading, rfl, rfl, rfl,
    fun s s' rs b m hs hb hm => ⟨fun hdown => exec_thermalSample_unpowered hs hdown, fun hpower hup htherm k n hrun => ?trips,
      fun hpower hstays => ?releases⟩,
    fun s s' b e m t hs hup hb he hm => ⟨fun hthrottling ht => ⟨fun hthrottled => ?fallsOn, fun hthrottled k v hhot => ?fallsFirst⟩,
      fun hthrottling hbelow hlow ht => ⟨fun hpart => ?rises, fun hfull c hc => ⟨fun hthrottled => ?full, fun hthrottled => ?fullRecorded⟩⟩,
      fun hthrottling hhold => ?holds⟩,
    fun s m hm => ⟨fun hpower => ?powered, fun hpower => ?powerUp, hm ▸ exec_powerFail, fun boot hboot => ⟨fun htherm hhot => ?held,
      fun htherm hcool => ?released, fun htherm => ?reset⟩, fun hpower => ⟨?bypass, ?idcode, ?sample, ?extest⟩,
      fun hpower i hi => exec_tap_unpowered (hm ▸ hpower) hi⟩,
    fun s v sec hup hv hsec => ⟨fun hlo hhi hnew => ?low, fun hsilent => ?lowSilent, fun hhi hnew => ?high, fun hsilent => ?highSilent⟩⟩
  case reading =>
    have hmodule : c.module = b.module.taking r := hc ▸ Block.takeReading_module
    rw [hmodule]
    refine ⟨Module.taking_temp, Module.taking_warm hk, Module.taking_hot hk, fun l => Module.taking_tripRuns hk,
      fun j => Module.taking_others hk, rfl, fun hquiet => ?quiet, fun hcold hwarm hup => ?warns⟩
    case quiet =>
      rw [hc, Block.takeReading_eq hk, if_neg]
      rintro ⟨hcold, hwarm, hup⟩
      obtain h | h | h := hquiet
      · exact hcold h
      · exact h hwarm
      · exact absurd hup (ne_true_of_eq_false h)
    case warns => rw [hc, Block.takeReading_eq hk, if_pos ⟨hcold, hwarm, hup⟩]
  case trips => subst hb hm; rw [exec_thermalSample_powered hs hpower, Block.doThermalSample_trips rfl hup htherm hrun]
  case releases => subst hb hm; rw [exec_thermalSample_powered hs hpower, Block.doThermalSample_releases rfl hstays]
  case fallsOn =>
    subst hb he
    rw [exec_tlimitUpdate_up hs hup, Block.doTlimit_fallsOn hm hthrottling ht hthrottled]
    rfl
  case fallsFirst =>
    subst hb he
    rw [exec_tlimitUpdate_up hs hup, Block.doTlimit_fallsFirst hm hthrottling ht hthrottled hhot]
    rfl
  case rises =>
    subst hb he
    rw [exec_tlimitUpdate_up hs hup, Block.doTlimit_rises hm hthrottling hbelow hlow ht hpart]
    rfl
  case full | fullRecorded =>
    subst hb he
    rw [exec_tlimitUpdate_up hs hup, Block.doTlimit_full hm hthrottling hbelow hlow ht hfull hc, hthrottled]
    rfl
  case holds => subst hb he; rw [exec_tlimitUpdate_up hs hup, Block.doTlimit_holds hm hthrottling hhold]
  case powered => subst hm; rw [exec_modulePowerUp, Block.doPowerUp_powered hpower]
  case powerUp => subst hm; rw [exec_modulePowerUp, Block.doPowerUp_unpowered hpower]
  case held =>
    subst hm hboot
    rw [exec_resetNAssertion, Block.doResetAssert_eq]
    simp only [htherm, hhot, Bool.not_false, Bool.and_true]
  case released =>
    subst hm hboot
    rw [exec_resetNAssertion, Block.doResetAssert_eq]
    simp only [htherm, hcool, Bool.not_true, Bool.and_false]
  case reset =>
    subst hm hboot
    rw [exec_resetNAssertion, Block.doResetAssert_eq]
    simp only [htherm, Bool.false_and]
  case bypass => subst hm; exact exec_bypass_powered hpower
  case idcode => subst hm; exact exec_idcode_powered hpower
  case sample => subst hm; exact exec_sample_powered hpower
  case extest => subst hm; rw [exec_extest_powered hpower, Block.doExtest_eq, Block.setTap, Block.setModule]
  case low => rw [exec_inputLow_up hup, Block.doInputLow_records hv hsec hlo hhi hnew]
  case lowSilent => rw [exec_inputLow_up hup, Block.doInputLow_silent hv hsec hsilent]
  case high => rw [exec_inputHigh_up hup, Block.doInputHigh_records hv hsec hhi hnew]
  case highSilent => rw [exec_inputHigh_up hup, Block.doInputHigh_silent hv hsec hsilent]

end Sys2Proof
end
